-- ==== Sys2Proof/Word.lean ====
section
/-! DEFINITION. Word types of the Z940 and the names of its units (R12): plain data that the syntax, the decoder and
the state share. Nothing here computes. -/

namespace Sys2Proof

/-- One byte, the smallest addressable unit (R3). -/
abbrev Byte := BitVec 8
/-- One instruction halfword (R4). -/
abbrev Half := BitVec 16
/-- A 32-bit instruction word, a c-slice register, a mask of lanes. -/
abbrev Word := BitVec 32
/-- An a-slice or controller register. -/
abbrev DWord := BitVec 64
/-- A program counter or `.g` virtual address, 57 bits (R96, R1). -/
abbrev VAddr := BitVec 57

/-- A work die of a package of the pod (R12). -/
structure DieId where
  pkg : Nat
  die : Nat
deriving DecidableEq, Repr, Inhabited

/-- A cluster by its physical number on the die (R12, R357); the remap gives its logical number. -/
structure CluId where
  pkg : Nat
  die : Nat
  clu : Nat
deriving DecidableEq, Repr, Inhabited

/-- A core of a cluster (R12). -/
structure CoreId where
  pkg : Nat
  die : Nat
  clu : Nat
  core : Nat
deriving DecidableEq, Repr, Inhabited

/-- A gang slot of a core (R12, R186). -/
structure GangId where
  pkg : Nat
  die : Nat
  clu : Nat
  core : Nat
  slot : Nat
deriving DecidableEq, Repr, Inhabited

/-- The three issuing units that share the encoding space (chapter 02): a-slice, c-slice, anvil controller. -/
inductive UnitKind where
  | A
  | C
  | M
deriving DecidableEq, Repr, Inhabited

/-- One instruction stream: a slice of a gang, or the controller of a cluster. -/
inductive UnitId where
  | a (g : GangId)
  | c (g : GangId)
  | m (c : CluId)
deriving DecidableEq, Repr, Inhabited

/-- The privilege modes of an a-slice or controller (R201). -/
inductive Mode where
  | user
  | supervisor
  | firmware
deriving DecidableEq, Repr, Inhabited

/-- Who waits on a die-TLB miss (R352, field req): a gang with an access of its user code, or of its handler. -/
inductive Requester where
  | gang (g : GangId)
  | handler (g : GangId)
  | tileFetch (c : CluId)
  | engine (d : DieId) (e : Nat)
  | ctrl (c : CluId)
deriving DecidableEq, Repr, Inhabited

/-- A weir of the sluice network (R356, R433): the leaf of a work die, the weir of a package, a pod weir of level 1 or
2 by its number in that level, and the pod root. -/
inductive WeirId where
  | die (d : DieId)
  | pkg (p : Nat)
  | pod (level : Nat) (n : Nat)
deriving DecidableEq, Repr, Inhabited

namespace UnitId
/-- Which of the three kinds of unit a stream belongs to. -/
def kind : UnitId → UnitKind
  | .a _ => .A
  | .c _ => .C
  | .m _ => .M
end UnitId

namespace GangId
/-- The core a gang slot belongs to. -/
def coreId (g : GangId) : CoreId := ⟨g.pkg, g.die, g.clu, g.core⟩
/-- The cluster a gang slot belongs to. -/
def cluId (g : GangId) : CluId := ⟨g.pkg, g.die, g.clu⟩
/-- The work die a gang slot belongs to. -/
def dieId (g : GangId) : DieId := ⟨g.pkg, g.die⟩
end GangId

namespace CoreId
/-- The cluster a core belongs to. -/
def cluId (c : CoreId) : CluId := ⟨c.pkg, c.die, c.clu⟩
/-- The work die a core belongs to. -/
def dieId (c : CoreId) : DieId := ⟨c.pkg, c.die⟩
/-- A slot of a core. -/
def slot (c : CoreId) (n : Nat) : GangId := ⟨c.pkg, c.die, c.clu, c.core, n⟩
end CoreId

namespace CluId
/-- The work die a cluster belongs to. -/
def dieId (c : CluId) : DieId := ⟨c.pkg, c.die⟩
/-- A core of a cluster. -/
def core (c : CluId) (n : Nat) : CoreId := ⟨c.pkg, c.die, c.clu, n⟩
end CluId

end Sys2Proof
end

