-- ==== Sys2Proof/Syntax.lean ====
section
/-! DEFINITION. The syntax of the Z940: one constructor for every row of spec/opcode_table.json. An encoded
instruction carries its operand fields as the encoding has them (R58, R60, R65, R67, R69, R70, R72, R74); a step of the
machine that is no instruction of a stream (file 95) carries what singles it out. -/

namespace Sys2Proof

/-- One row of the table of operations and events. Field names of the encoded rows are the table's; `sk` is the sink. -/
inductive Instr where
  /-- R59: 16-bit d := s. -/
  | mov16 (d : BitVec 6) (b : BitVec 5)
  /-- R59: 16-bit d := d + s. -/
  | add16 (d : BitVec 6) (b : BitVec 5)
  /-- R59: 16-bit d := d − s. -/
  | sub16 (d : BitVec 6) (b : BitVec 5)
  /-- R59: 16-bit low product. -/
  | mul16 (d : BitVec 6) (b : BitVec 5)
  /-- R59: 16-bit bitwise and. -/
  | and16 (d : BitVec 6) (b : BitVec 5)
  /-- R59: 16-bit bitwise or. -/
  | or16 (d : BitVec 6) (b : BitVec 5)
  /-- R59: 16-bit bitwise xor. -/
  | xor16 (d : BitVec 6) (b : BitVec 5)
  /-- R59: 16-bit shift left. -/
  | shl16 (d : BitVec 6) (b : BitVec 5)
  /-- R59: 16-bit logical shift right. -/
  | shr16 (d : BitVec 6) (b : BitVec 5)
  /-- R59: 16-bit arithmetic shift right. -/
  | sar16 (d : BitVec 6) (b : BitVec 5)
  /-- R59: 16-bit signed minimum. -/
  | min16 (d : BitVec 6) (b : BitVec 5)
  /-- R59: 16-bit signed maximum. -/
  | max16 (d : BitVec 6) (b : BitVec 5)
  /-- R59: 16-bit floating add at the natural width. -/
  | fadd16 (d : BitVec 6) (b : BitVec 5)
  /-- R59: 16-bit floating subtract. -/
  | fsub16 (d : BitVec 6) (b : BitVec 5)
  /-- R59: 16-bit floating multiply. -/
  | fmul16 (d : BitVec 6) (b : BitVec 5)
  /-- R59: 16-bit IEEE maximum. -/
  | fmax16 (d : BitVec 6) (b : BitVec 5)
  /-- R139: Lane add modulo 2^W; q selects a queue source. -/
  | add (w : BitVec 1) (sk : BitVec 4) (b : BitVec 6) (a : BitVec 6) (d : BitVec 6) (q : BitVec 1)
  /-- R139: Lane subtract. -/
  | sub (w : BitVec 1) (sk : BitVec 4) (b : BitVec 6) (a : BitVec 6) (d : BitVec 6) (q : BitVec 1)
  /-- R139: Lane low product. -/
  | mul (w : BitVec 1) (sk : BitVec 4) (b : BitVec 6) (a : BitVec 6) (d : BitVec 6) (q : BitVec 1)
  /-- R139: Lane high product, signed or unsigned. -/
  | mulh (i : BitVec 2) (sk : BitVec 4) (b : BitVec 6) (a : BitVec 6) (d : BitVec 6) (q : BitVec 1)
  /-- R139: Lane a × b + d. -/
  | mad (w : BitVec 1) (sk : BitVec 4) (b : BitVec 6) (a : BitVec 6) (d : BitVec 6) (q : BitVec 1)
  /-- R140: Lane quotient toward zero, with defined results for division by zero and overflow. -/
  | div (i : BitVec 2) (sk : BitVec 4) (b : BitVec 6) (a : BitVec 6) (d : BitVec 6) (q : BitVec 1)
  /-- R140: Lane remainder with the sign of a. -/
  | rem (i : BitVec 2) (sk : BitVec 4) (b : BitVec 6) (a : BitVec 6) (d : BitVec 6) (q : BitVec 1)
  /-- R139: Lane minimum. -/
  | min (i : BitVec 2) (sk : BitVec 4) (b : BitVec 6) (a : BitVec 6) (d : BitVec 6) (q : BitVec 1)
  /-- R139: Lane maximum. -/
  | max (i : BitVec 2) (sk : BitVec 4) (b : BitVec 6) (a : BitVec 6) (d : BitVec 6) (q : BitVec 1)
  /-- R139: Lane bitwise and. -/
  | and (w : BitVec 1) (sk : BitVec 4) (b : BitVec 6) (a : BitVec 6) (d : BitVec 6) (q : BitVec 1)
  /-- R139: Lane bitwise or; mov d, a is or d, a, a. -/
  | or (w : BitVec 1) (sk : BitVec 4) (b : BitVec 6) (a : BitVec 6) (d : BitVec 6) (q : BitVec 1)
  /-- R139: Lane bitwise xor. -/
  | xor (w : BitVec 1) (sk : BitVec 4) (b : BitVec 6) (a : BitVec 6) (d : BitVec 6) (q : BitVec 1)
  /-- R139: Lane shift left by b mod W. -/
  | shl (w : BitVec 1) (sk : BitVec 4) (b : BitVec 6) (a : BitVec 6) (d : BitVec 6) (q : BitVec 1)
  /-- R139: Lane logical shift right. -/
  | shr (w : BitVec 1) (sk : BitVec 4) (b : BitVec 6) (a : BitVec 6) (d : BitVec 6) (q : BitVec 1)
  /-- R139: Lane arithmetic shift right. -/
  | sar (w : BitVec 1) (sk : BitVec 4) (b : BitVec 6) (a : BitVec 6) (d : BitVec 6) (q : BitVec 1)
  /-- R139: Lane rotate left. -/
  | rol (w : BitVec 1) (sk : BitVec 4) (b : BitVec 6) (a : BitVec 6) (d : BitVec 6) (q : BitVec 1)
  /-- R139: Lane rotate right. -/
  | ror (w : BitVec 1) (sk : BitVec 4) (b : BitVec 6) (a : BitVec 6) (d : BitVec 6) (q : BitVec 1)
  /-- R141: Lane absolute value. -/
  | abs (w : BitVec 1) (sk : BitVec 4) (a : BitVec 6) (d : BitVec 6) (q : BitVec 1)
  /-- R141: Lane negation. -/
  | neg (w : BitVec 1) (sk : BitVec 4) (a : BitVec 6) (d : BitVec 6) (q : BitVec 1)
  /-- R141: Lane bitwise not. -/
  | not (w : BitVec 1) (sk : BitVec 4) (a : BitVec 6) (d : BitVec 6) (q : BitVec 1)
  /-- R141: Lane leading-zero count. -/
  | clz (w : BitVec 1) (sk : BitVec 4) (a : BitVec 6) (d : BitVec 6) (q : BitVec 1)
  /-- R141: Lane population count. -/
  | popc (w : BitVec 1) (sk : BitVec 4) (a : BitVec 6) (d : BitVec 6) (q : BitVec 1)
  /-- R141: Lane bit reversal. -/
  | brev (w : BitVec 1) (sk : BitVec 4) (a : BitVec 6) (d : BitVec 6) (q : BitVec 1)
  /-- R142: Lane bit-field extract. -/
  | bfx (i : BitVec 2) (sk : BitVec 4) (b : BitVec 6) (a : BitVec 6) (d : BitVec 6) (q : BitVec 1)
  /-- R142: Lane bit-field insert into d. -/
  | bfi (w : BitVec 1) (sk : BitVec 4) (b : BitVec 6) (a : BitVec 6) (d : BitVec 6) (q : BitVec 1)
  /-- R144: Integer compare producing a mask. -/
  | icmp (i : BitVec 2) (sk : BitVec 4) (b : BitVec 6) (a : BitVec 6) (c : BitVec 3) (m : BitVec 3) (q : BitVec 1)
  /-- R145: Lane select by mask k0–k3. -/
  | sel (n : BitVec 2) (sk : BitVec 4) (b : BitVec 6) (a : BitVec 6) (d : BitVec 6) (q : BitVec 1)
  /-- R143: d := a + (b << n). -/
  | lea (n : BitVec 2) (sk : BitVec 4) (b : BitVec 6) (a : BitVec 6) (d : BitVec 6) (q : BitVec 1)
  /-- R147: Floating add with rne. -/
  | fadd (f : BitVec 2) (sk : BitVec 4) (b : BitVec 6) (a : BitVec 6) (d : BitVec 6) (q : BitVec 1)
  /-- R147: Floating subtract. -/
  | fsub (f : BitVec 2) (sk : BitVec 4) (b : BitVec 6) (a : BitVec 6) (d : BitVec 6) (q : BitVec 1)
  /-- R147: Floating multiply. -/
  | fmul (f : BitVec 2) (sk : BitVec 4) (b : BitVec 6) (a : BitVec 6) (d : BitVec 6) (q : BitVec 1)
  /-- R147: Fused a × b + d. -/
  | fma (f : BitVec 2) (sk : BitVec 4) (b : BitVec 6) (a : BitVec 6) (d : BitVec 6) (q : BitVec 1)
  /-- R147: Floating divide. -/
  | fdiv (f : BitVec 2) (sk : BitVec 4) (b : BitVec 6) (a : BitVec 6) (d : BitVec 6) (q : BitVec 1)
  /-- R149: Correctly rounded square root with rounding code. -/
  | fsqrt (f : BitVec 2) (sk : BitVec 4) (r : BitVec 3) (a : BitVec 6) (d : BitVec 6) (q : BitVec 1)
  /-- R149: Reciprocal within 1 ulp. -/
  | frcp (f : BitVec 2) (sk : BitVec 4) (a : BitVec 6) (d : BitVec 6) (q : BitVec 1)
  /-- R149: Reciprocal square root within 1 ulp. -/
  | frsq (f : BitVec 2) (sk : BitVec 4) (a : BitVec 6) (d : BitVec 6) (q : BitVec 1)
  /-- R149: 2^a within 2 ulp. -/
  | fexp2 (f : BitVec 2) (sk : BitVec 4) (a : BitVec 6) (d : BitVec 6) (q : BitVec 1)
  /-- R149: log2 a within 2 ulp. -/
  | flog2 (f : BitVec 2) (sk : BitVec 4) (a : BitVec 6) (d : BitVec 6) (q : BitVec 1)
  /-- R149: Clear the sign bit. -/
  | fabs (f : BitVec 2) (sk : BitVec 4) (a : BitVec 6) (d : BitVec 6) (q : BitVec 1)
  /-- R149: Invert the sign bit. -/
  | fneg (f : BitVec 2) (sk : BitVec 4) (a : BitVec 6) (d : BitVec 6) (q : BitVec 1)
  /-- R150: IEEE minimum. -/
  | fmin (f : BitVec 2) (sk : BitVec 4) (b : BitVec 6) (a : BitVec 6) (d : BitVec 6) (q : BitVec 1)
  /-- R150: IEEE maximum. -/
  | fmax (f : BitVec 2) (sk : BitVec 4) (b : BitVec 6) (a : BitVec 6) (d : BitVec 6) (q : BitVec 1)
  /-- R150: IEEE minimumNumber. -/
  | fminn (f : BitVec 2) (sk : BitVec 4) (b : BitVec 6) (a : BitVec 6) (d : BitVec 6) (q : BitVec 1)
  /-- R150: IEEE maximumNumber. -/
  | fmaxn (f : BitVec 2) (sk : BitVec 4) (b : BitVec 6) (a : BitVec 6) (d : BitVec 6) (q : BitVec 1)
  /-- R144: Floating compare producing a mask. -/
  | fcmp (f : BitVec 2) (sk : BitVec 4) (b : BitVec 6) (a : BitVec 6) (c : BitVec 3) (m : BitVec 3) (q : BitVec 1)
  /-- R153: Encode one TS block per half-gang into element fields and scale words. -/
  | tspk (t : BitVec 2) (sk : BitVec 4) (r : BitVec 3) (i : BitVec 3) (a : BitVec 6) (d : BitVec 6) (q : BitVec 1)
  /-- R154: Decode a TS element to FP32. -/
  | tsupk (t : BitVec 2) (sk : BitVec 4) (b : BitVec 6) (a : BitVec 6) (d : BitVec 6) (q : BitVec 1)
  /-- R155: Adjust a scale word's exponent by a signed step. -/
  | tssc (sk : BitVec 4) (b : BitVec 6) (a : BitVec 6) (d : BitVec 6) (q : BitVec 1)
  /-- R156: Read a from lane b[4:0]. -/
  | shflIdx (sk : BitVec 4) (b : BitVec 6) (a : BitVec 6) (d : BitVec 6) (q : BitVec 1)
  /-- R156: Read a from lane i − b. -/
  | shflUp (sk : BitVec 4) (b : BitVec 6) (a : BitVec 6) (d : BitVec 6) (q : BitVec 1)
  /-- R156: Read a from lane i + b. -/
  | shflDn (sk : BitVec 4) (b : BitVec 6) (a : BitVec 6) (d : BitVec 6) (q : BitVec 1)
  /-- R156: Read a from lane i xor b. -/
  | shflXor (sk : BitVec 4) (b : BitVec 6) (a : BitVec 6) (d : BitVec 6) (q : BitVec 1)
  /-- R156: Rotate lanes up. -/
  | rotUp (sk : BitVec 4) (b : BitVec 6) (a : BitVec 6) (d : BitVec 6) (q : BitVec 1)
  /-- R156: Rotate lanes down. -/
  | rotDn (sk : BitVec 4) (b : BitVec 6) (a : BitVec 6) (d : BitVec 6) (q : BitVec 1)
  /-- R156: Broadcast lane n's value. -/
  | bcast (sk : BitVec 4) (n : BitVec 5) (a : BitVec 6) (d : BitVec 6) (q : BitVec 1)
  /-- R157: Reduction over the active lanes in ascending order. -/
  | gred (t : BitVec 2) (sk : BitVec 4) (c : BitVec 1) (o : BitVec 3) (a : BitVec 6) (d : BitVec 6) (q : BitVec 1)
  /-- R157: Inclusive scan over the active lanes. -/
  | scanInc (t : BitVec 2) (sk : BitVec 4) (c : BitVec 1) (o : BitVec 3) (a : BitVec 6) (d : BitVec 6) (q : BitVec 1)
  /-- R157: Exclusive scan over the active lanes. -/
  | scanExc (t : BitVec 2) (sk : BitVec 4) (c : BitVec 1) (o : BitVec 3) (a : BitVec 6) (d : BitVec 6) (q : BitVec 1)
  /-- R146: Mask and. -/
  | kand (sk : BitVec 4) (b : BitVec 3) (a : BitVec 3) (d : BitVec 3) (q : BitVec 1)
  /-- R146: Mask and-not. -/
  | kandn (sk : BitVec 4) (b : BitVec 3) (a : BitVec 3) (d : BitVec 3) (q : BitVec 1)
  /-- R146: Mask or. -/
  | kor (sk : BitVec 4) (b : BitVec 3) (a : BitVec 3) (d : BitVec 3) (q : BitVec 1)
  /-- R146: Mask xor. -/
  | kxor (sk : BitVec 4) (b : BitVec 3) (a : BitVec 3) (d : BitVec 3) (q : BitVec 1)
  /-- R146: Mask not. -/
  | knot (sk : BitVec 4) (a : BitVec 3) (d : BitVec 3) (q : BitVec 1)
  /-- R146: 1 if every active lane's bit is set. -/
  | voteAll (sk : BitVec 4) (a : BitVec 3) (d : BitVec 3) (q : BitVec 1)
  /-- R146: 1 if any active lane's bit is set. -/
  | voteAny (sk : BitVec 4) (a : BitVec 3) (d : BitVec 3) (q : BitVec 1)
  /-- R146: Write the mask of active lanes as a value. -/
  | ballot (sk : BitVec 4) (a : BitVec 3) (d : BitVec 6) (q : BitVec 1)
  /-- R146: Set a mask from the value in the lowest active lane. -/
  | kset (sk : BitVec 4) (a : BitVec 6) (d : BitVec 3) (q : BitVec 1)
  /-- R146: Mask copy. -/
  | kmov (sk : BitVec 4) (a : BitVec 3) (d : BitVec 3) (q : BitVec 1)
  /-- R148: Floating add with directed rounding. -/
  | faddD (r : BitVec 2) (sk : BitVec 4) (b : BitVec 6) (a : BitVec 6) (d : BitVec 6) (q : BitVec 1)
  /-- R148: Floating subtract with directed rounding. -/
  | fsubD (r : BitVec 2) (sk : BitVec 4) (b : BitVec 6) (a : BitVec 6) (d : BitVec 6) (q : BitVec 1)
  /-- R148: Floating multiply with directed rounding. -/
  | fmulD (r : BitVec 2) (sk : BitVec 4) (b : BitVec 6) (a : BitVec 6) (d : BitVec 6) (q : BitVec 1)
  /-- R148: Fused multiply-add with directed rounding. -/
  | fmaD (r : BitVec 2) (sk : BitVec 4) (b : BitVec 6) (a : BitVec 6) (d : BitVec 6) (q : BitVec 1)
  /-- R151: Convert with rne. -/
  | cvtRne (u : BitVec 2) (sk : BitVec 4) (y : BitVec 4) (v : BitVec 2) (a : BitVec 6) (d : BitVec 6) (q : BitVec 1)
  /-- R151: Convert with rna. -/
  | cvtRna (u : BitVec 2) (sk : BitVec 4) (y : BitVec 4) (v : BitVec 2) (a : BitVec 6) (d : BitVec 6) (q : BitVec 1)
  /-- R151: Convert with rz. -/
  | cvtRz (u : BitVec 2) (sk : BitVec 4) (y : BitVec 4) (v : BitVec 2) (a : BitVec 6) (d : BitVec 6) (q : BitVec 1)
  /-- R151: Convert with rup. -/
  | cvtRup (u : BitVec 2) (sk : BitVec 4) (y : BitVec 4) (v : BitVec 2) (a : BitVec 6) (d : BitVec 6) (q : BitVec 1)
  /-- R151: Convert with rdn. -/
  | cvtRdn (u : BitVec 2) (sk : BitVec 4) (y : BitVec 4) (v : BitVec 2) (a : BitVec 6) (d : BitVec 6) (q : BitVec 1)
  /-- R65: d := sign-extended immediate. -/
  | movImm (i : BitVec 16) (d : BitVec 6)
  /-- R65: d := d + immediate. -/
  | addImm (i : BitVec 16) (d : BitVec 6)
  /-- R65: d := d × immediate. -/
  | mulImm (i : BitVec 16) (d : BitVec 6)
  /-- R65: d := d and zero-extended immediate. -/
  | andImm (i : BitVec 16) (d : BitVec 6)
  /-- R65: d := d or immediate. -/
  | orImm (i : BitVec 16) (d : BitVec 6)
  /-- R65: d := d xor immediate. -/
  | xorImm (i : BitVec 16) (d : BitVec 6)
  /-- R66: Shift left by an immediate count. -/
  | shlImm (i : BitVec 16) (d : BitVec 6)
  /-- R66: Logical shift right by an immediate count. -/
  | shrImm (i : BitVec 16) (d : BitVec 6)
  /-- R66: Arithmetic shift right by an immediate count. -/
  | sarImm (i : BitVec 16) (d : BitVec 6)
  /-- R65: Signed minimum with an immediate. -/
  | minImm (i : BitVec 16) (d : BitVec 6)
  /-- R65: Signed maximum with an immediate. -/
  | maxImm (i : BitVec 16) (d : BitVec 6)
  /-- R66: Write imm16 into halfword h of d. -/
  | movh (i : BitVec 16) (h : BitVec 2) (d : BitVec 6)
  /-- R158: d := FP16 immediate widened exactly. -/
  | fmovImm (i : BitVec 16) (d : BitVec 6)
  /-- R158: Floating add of an FP16 immediate. -/
  | faddImm (i : BitVec 16) (d : BitVec 6)
  /-- R158: Floating multiply by an FP16 immediate. -/
  | fmulImm (i : BitVec 16) (d : BitVec 6)
  /-- R158: IEEE maximum with an FP16 immediate. -/
  | fmaxImm (i : BitVec 16) (d : BitVec 6)
  /-- R252: Load into a register or queue, after the address, permission and mapping checks. -/
  | ld (o : BitVec 4) (q : BitVec 1) (p : BitVec 2) (z : BitVec 3) (a : BitVec 6) (d : BitVec 6)
  /-- R252: Load that waits for the granule to be full. -/
  | ldFe (o : BitVec 4) (q : BitVec 1) (p : BitVec 2) (z : BitVec 3) (a : BitVec 6) (d : BitVec 6)
  /-- R252: Load that waits for full, then reads and clears. -/
  | ldFec (o : BitVec 4) (q : BitVec 1) (p : BitVec 2) (z : BitVec 3) (a : BitVec 6) (d : BitVec 6)
  /-- R253: Store from a register or from sq0/sq1 through the store hold. -/
  | st (o : BitVec 4) (q : BitVec 1) (p : BitVec 2) (z : BitVec 3) (a : BitVec 6) (d : BitVec 6)
  /-- R253: Store that sets the granule full after earlier accesses are performed. -/
  | stFe (o : BitVec 4) (q : BitVec 1) (p : BitVec 2) (z : BitVec 3) (a : BitVec 6) (d : BitVec 6)
  /-- R260: Atomic add returning the old value. -/
  | atomAdd (t : BitVec 2) (p : BitVec 2) (b : BitVec 5) (a : BitVec 6) (d : BitVec 6)
  /-- R260: Atomic minimum. -/
  | atomMin (t : BitVec 2) (p : BitVec 2) (b : BitVec 5) (a : BitVec 6) (d : BitVec 6)
  /-- R260: Atomic maximum. -/
  | atomMax (t : BitVec 2) (p : BitVec 2) (b : BitVec 5) (a : BitVec 6) (d : BitVec 6)
  /-- R260: Atomic and. -/
  | atomAnd (t : BitVec 2) (p : BitVec 2) (b : BitVec 5) (a : BitVec 6) (d : BitVec 6)
  /-- R260: Atomic or. -/
  | atomOr (t : BitVec 2) (p : BitVec 2) (b : BitVec 5) (a : BitVec 6) (d : BitVec 6)
  /-- R260: Atomic xor. -/
  | atomXor (t : BitVec 2) (p : BitVec 2) (b : BitVec 5) (a : BitVec 6) (d : BitVec 6)
  /-- R260: Atomic exchange. -/
  | atomExch (t : BitVec 2) (p : BitVec 2) (b : BitVec 5) (a : BitVec 6) (d : BitVec 6)
  /-- R260: Atomic compare-and-swap against d. -/
  | atomCas (t : BitVec 2) (p : BitVec 2) (b : BitVec 5) (a : BitVec 6) (d : BitVec 6)
  /-- R262: No-return atomic add. -/
  | redAdd (t : BitVec 2) (p : BitVec 2) (b : BitVec 5) (a : BitVec 6)
  /-- R262: No-return atomic minimum. -/
  | redMin (t : BitVec 2) (p : BitVec 2) (b : BitVec 5) (a : BitVec 6)
  /-- R262: No-return atomic maximum. -/
  | redMax (t : BitVec 2) (p : BitVec 2) (b : BitVec 5) (a : BitVec 6)
  /-- R262: No-return atomic and. -/
  | redAnd (t : BitVec 2) (p : BitVec 2) (b : BitVec 5) (a : BitVec 6)
  /-- R262: No-return atomic or. -/
  | redOr (t : BitVec 2) (p : BitVec 2) (b : BitVec 5) (a : BitVec 6)
  /-- R262: No-return atomic xor. -/
  | redXor (t : BitVec 2) (p : BitVec 2) (b : BitVec 5) (a : BitVec 6)
  /-- R261: Floating atomic add returning the old value. -/
  | fatomAdd (t : BitVec 2) (p : BitVec 2) (b : BitVec 5) (a : BitVec 6) (d : BitVec 6)
  /-- R261: Floating atomic minimumNumber. -/
  | fatomMin (t : BitVec 2) (p : BitVec 2) (b : BitVec 5) (a : BitVec 6) (d : BitVec 6)
  /-- R261: Floating atomic maximumNumber. -/
  | fatomMax (t : BitVec 2) (p : BitVec 2) (b : BitVec 5) (a : BitVec 6) (d : BitVec 6)
  /-- R262: No-return floating add. -/
  | fredAdd (t : BitVec 2) (p : BitVec 2) (b : BitVec 5) (a : BitVec 6)
  /-- R262: No-return floating minimumNumber. -/
  | fredMin (t : BitVec 2) (p : BitVec 2) (b : BitVec 5) (a : BitVec 6)
  /-- R262: No-return floating maximumNumber. -/
  | fredMax (t : BitVec 2) (p : BitVec 2) (b : BitVec 5) (a : BitVec 6)
  /-- R163: Unconditional branch, optionally pushing a decision record. -/
  | bra (o : BitVec 18) (p : BitVec 1)
  /-- R163: Conditional uniform branch on a mask or scalar. -/
  | brc (o : BitVec 18) (p : BitVec 1) (k : BitVec 3) (c : BitVec 2)
  /-- R166: Divergent branch that splits lanes into fragments or a deferred path. -/
  | brv (o : BitVec 18) (k : BitVec 3)
  /-- R167: C-slice branch that follows the dq record at the head. -/
  | brd (o : BitVec 18)
  /-- R169: Branch and write the return address. -/
  | call (o : BitVec 18) (p : BitVec 1)
  /-- R184: Advances the program counter. -/
  | nop
  /-- R112: Arrive at a join; merge, switch to a deferred path, or wait. -/
  | rejoin
  /-- R170: Return to the address in the return register. -/
  | ret
  /-- R171: Indirect jump, with an optional c-slice target record. -/
  | jmpi (b : BitVec 6) (a : BitVec 6) (p : BitVec 1)
  /-- R173: End the fragment's lanes, or the c-slice or controller stream. -/
  | exit
  /-- R174: Read the head entry of a queue without popping. -/
  | qpeek (q : BitVec 3) (d : BitVec 6)
  /-- R174: Read the number of entries in a queue. -/
  | qcount (q : BitVec 3) (d : BitVec 6)
  /-- R174: Discard every entry present in a queue. -/
  | qdrain (q : BitVec 3)
  /-- R176: Two-slice rendezvous with the whole-gang mask. -/
  | gsync
  /-- R176: Two-slice rendezvous with the membership mask in a. -/
  | gsyncMask (a : BitVec 6)
  /-- R179: Raise a software trap n. -/
  | trap (n : BitVec 12)
  /-- R179: Raise a breakpoint n. -/
  | brk (n : BitVec 12)
  /-- R179: Raise a supervisor call n. -/
  | svc (n : BitVec 12)
  /-- R180: Return from a trap or first-touch entry, applying kill and skip. -/
  | rft
  /-- R182: Open an idempotent region by a rendezvous of the slices. -/
  | region
  /-- R183: Clear the checked-mode flag. -/
  | chkOff
  /-- R183: Set the checked-mode flag. -/
  | chkOn
  /-- R183: Read the checked-mode flag and lock. -/
  | chkQ (d : BitVec 6)
  /-- R159: Read a special register. -/
  | rdsr (a : BitVec 6) (d : BitVec 6)
  /-- R160: Write a special register from the lowest active lane. -/
  | wrsr (b : BitVec 6) (a : BitVec 6)
  /-- R233: Wait for earlier accesses and invalidate L1 lines for wide scopes. -/
  | fence (c : BitVec 3)
  /-- R265: Acquire a lock word. -/
  | acq (a : BitVec 6)
  /-- R265: Release a lock word by writing 0. -/
  | rel (a : BitVec 6)
  /-- R226: Bind a .g region to a synchronisation object. -/
  | bind (b : BitVec 6) (a : BitVec 6) (d : BitVec 6)
  /-- R226: Remove a region binding. -/
  | unbind (a : BitVec 6)
  /-- R267: Arm the fragment's monitor on lines. -/
  | mon (a : BitVec 6)
  /-- R269: Park the fragment until its monitor triggers. -/
  | mwait
  /-- R270: Prefetch lines into the L1. -/
  | pfL1 (a : BitVec 6)
  /-- R270: Prefetch lines into the home L2. -/
  | pfL2 (a : BitVec 6)
  /-- R362: Issue a linear copy operation. -/
  | copy (b : BitVec 6) (a : BitVec 6) (d : BitVec 6)
  /-- R362: Issue a tensor copy operation. -/
  | tcopy (a : BitVec 6) (d : BitVec 6)
  /-- R363: Arm a copy on a trigger threshold. -/
  | copyt (b : BitVec 6) (a : BitVec 6) (d : BitVec 6)
  /-- R364: Wait until a completion count meets its target. -/
  | cwait (b : BitVec 6) (a : BitVec 6)
  /-- R365: Enqueue one item per active lane. -/
  | enq (b : BitVec 6) (a : BitVec 6)
  /-- R367: Dequeue items into lanes. -/
  | deq (a : BitVec 6) (d : BitVec 6)
  /-- R368: Dequeue with a timeout. -/
  | deqt (b : BitVec 6) (a : BitVec 6) (d : BitVec 6)
  /-- R370: Write a valid leaf, fence, zero an HBM frame and free a handler merge entry. -/
  | mappg (z : BitVec 2) (b : BitVec 6) (a : BitVec 6) (d : BitVec 6)
  /-- R371: Clear a leaf and remove its TLB entries, L1 lines and pins. -/
  | unmappg (z : BitVec 2) (a : BitVec 6)
  /-- R372: Remove TLB entries within a scope. -/
  | tlbinv (a : BitVec 6) (c : BitVec 3)
  /-- R373: Remove the oldest fault-buffer record into four registers. -/
  | fbread (d : BitVec 6)
  /-- R374: Free a buffered merge entry and reissue its waiters. -/
  | replay (a : BitVec 6)
  /-- R374: Free every buffered and dropped merge entry. -/
  | replayall
  /-- R409: Wait until the time base reaches a. -/
  | tmwait (a : BitVec 6)
  /-- R410: Request a save of the issuing gang's own context. -/
  | ctxsv (a : BitVec 6)
  /-- R411: Restore a context image. -/
  | ctxld (a : BitVec 6)
  /-- R413: Retire a core, or return it to service. -/
  | rtcore (a : BitVec 6)
  /-- R414: Retire a physical cluster, or return it to service. -/
  | rtclu (a : BitVec 6)
  /-- R415: Read the launch's skew state. -/
  | skrd (d : BitVec 6)
  /-- R416: Raise a re-plan request. -/
  | replan (a : BitVec 6)
  /-- R453: Remote load from another package. -/
  | rld (z : BitVec 2) (a : BitVec 6) (d : BitVec 6)
  /-- R454: Remote store. -/
  | rst (z : BitVec 2) (b : BitVec 6) (a : BitVec 6)
  /-- R454: Remote add reduction. -/
  | rredAdd (t : BitVec 2) (b : BitVec 6) (a : BitVec 6)
  /-- R454: Remote minimum reduction. -/
  | rredMin (t : BitVec 2) (b : BitVec 6) (a : BitVec 6)
  /-- R454: Remote maximum reduction. -/
  | rredMax (t : BitVec 2) (b : BitVec 6) (a : BitVec 6)
  /-- R454: Remote and reduction. -/
  | rredAnd (t : BitVec 2) (b : BitVec 6) (a : BitVec 6)
  /-- R454: Remote or reduction. -/
  | rredOr (t : BitVec 2) (b : BitVec 6) (a : BitVec 6)
  /-- R454: Remote xor reduction. -/
  | rredXor (t : BitVec 2) (b : BitVec 6) (a : BitVec 6)
  /-- R458: Multicast store stamped by the headgate; the sequence is returned. -/
  | mcst (z : BitVec 2) (b : BitVec 6) (a : BitVec 6) (d : BitVec 6)
  /-- R459: Multicast atomic add. -/
  | mcatomAdd (t : BitVec 2) (b : BitVec 6) (a : BitVec 6)
  /-- R459: Multicast atomic minimum. -/
  | mcatomMin (t : BitVec 2) (b : BitVec 6) (a : BitVec 6)
  /-- R459: Multicast atomic maximum. -/
  | mcatomMax (t : BitVec 2) (b : BitVec 6) (a : BitVec 6)
  /-- R459: Multicast atomic and. -/
  | mcatomAnd (t : BitVec 2) (b : BitVec 6) (a : BitVec 6)
  /-- R459: Multicast atomic or. -/
  | mcatomOr (t : BitVec 2) (b : BitVec 6) (a : BitVec 6)
  /-- R459: Multicast atomic xor. -/
  | mcatomXor (t : BitVec 2) (b : BitVec 6) (a : BitVec 6)
  /-- R460: Wait until the applied sequence reaches b, then invalidate the window's L1 lines. -/
  | mcwait (b : BitVec 6) (a : BitVec 6)
  /-- R462: Register with a phaser as a signaller, waiter, both or proxy. -/
  | phjoin (b : BitVec 6) (a : BitVec 6)
  /-- R463: Leave a phaser with the agent's own registration and proxies. -/
  | phleave (a : BitVec 6)
  /-- R464: Signal the next phase as a release. -/
  | phsig (a : BitVec 6)
  /-- R464: Signal with the bound flag once the pending-byte counter is zero. -/
  | phsigBnd (a : BitVec 6)
  /-- R465: Wait for phase b to complete. -/
  | phwait (b : BitVec 6) (a : BitVec 6)
  /-- R466: Signal, then wait for phase b. -/
  | phsw (b : BitVec 6) (a : BitVec 6)
  /-- R466: Bound signal, then wait. -/
  | phswBnd (b : BitVec 6) (a : BitVec 6)
  /-- R467: Any-of signal carrying a finder value. -/
  | phany (b : BitVec 6) (a : BitVec 6)
  /-- R468: Read the phaser state and the agent's registration. -/
  | phfind (a : BitVec 6) (d : BitVec 6)
  /-- R308: Matrix multiply-accumulate over S k-steps. -/
  | mma (t : BitVec 4) (y : BitVec 4) (z : BitVec 4) (x : BitVec 3) (m : BitVec 6)
  /-- R308: Matrix multiply with the accumulator zeroed first. -/
  | mmaz (t : BitVec 4) (y : BitVec 4) (z : BitVec 4) (x : BitVec 3) (m : BitVec 6)
  /-- R310: Zero an accumulator tile. -/
  | azero (t : BitVec 4)
  /-- R311: Convert an accumulator tile out to a format. -/
  | acvt (t : BitVec 4) (y : BitVec 4) (x : BitVec 3)
  /-- R312: Hand a tile's lines to the tile fetch unit for pinning. -/
  | tpin (t : BitVec 4) (x : BitVec 3)
  /-- R313: Wait for anvil progress. -/
  | awt (m : BitVec 6)
  /-- R322: Permute a tile's rows or columns. -/
  | pmapply (t : BitVec 4) (x : BitVec 3)
  /-- R323: Read a growth estimate into m. -/
  | gerd (j : BitVec 2) (m : BitVec 6)
  /-- R316: LU factorisation with partial pivoting. -/
  | lup (t : BitVec 4) (x : BitVec 3)
  /-- R317: Cholesky factorisation. -/
  | chol (t : BitVec 4) (x : BitVec 3)
  /-- R318: Householder QR factorisation. -/
  | qrh (t : BitVec 4) (y : BitVec 4) (x : BitVec 3)
  /-- R321: Triangular solve in place. -/
  | trsm (t : BitVec 4) (y : BitVec 4) (f : BitVec 3) (x : BitVec 3)
  /-- R10: Package cold reset puts every register field at its reset value and clears the supervisor windows. -/
  | packageColdReset (p : Nat)
  /-- R403: The management controller checks the next firmware stage's SM2 signature and anti-rollback count, extends a measurement register, and stops the boot on failure. -/
  | secureBootStage (p : Nat) (image : List Byte) (sig : BitVec 512) (version : Nat) (reg : BitVec 3)
  /-- R404: A request carrying a 32-byte nonce is answered with a report signed by the identity key. -/
  | attestationRequest (p : Nat) (nonce : BitVec 256)
  /-- R244: A host write arriving on a PCI Express port is performed as a .g write at its home L2 slice. -/
  | hostWrite (p : Nat) (port : Nat) (addr : Nat) (data : List Byte)
  /-- R395: A host read through BAR0 or BAR2 returns control-block or HBM data. -/
  | hostRead (p : Nat) (port : Nat) (addr : Nat) (len : Nat)
  /-- R384: A write to a queue's notify register advances its tail, or is ignored and sets ovr when it overruns the ring. -/
  | submissionNotify (p : Nat) (n : Nat) (tail : Word)
  /-- R384: A write to qcfg sets the queue's configuration; clearing en stops reading and resets head and tail to 0. -/
  | qcfgWrite (p : Nat) (n : Nat) (v : DWord)
  /-- R386: The sequencer reads a packet's stamp and rereads it every 200 ns or less until the generation matches, then reads the packet. -/
  | launchPacketStampRead (p : Nat) (n : Nat)
  /-- R388: An accepted launch starts once every unit its placement names is free, and its crews are placed. -/
  | launchStart (p : Nat) (l : Nat)
  /-- R390: A unit's time base reaches the launch's start time and the held crews issue their first instruction. -/
  | startTimeReached (p : Nat) (l : Nat)
  /-- R132: A gang ends once the c-slice has popped the end record and every memory access is acknowledged; queue leftovers are discarded and the slot is freed. -/
  | gangEnd (g : GangId)
  /-- R173: A launch ends when its crews, anvil streams and copies are done; armed copyt operations are disarmed and the status record and comp are written. -/
  | launchEnd (p : Nat) (l : Nat)
  /-- R392: A write of a status-record address to lend stops that launch's agents and copies, drops its registrations and writes status code 7. -/
  | lendWrite (p : Nat) (v : DWord)
  /-- R397: A write of a context number to preempt starts its pre-emption with the image at imgaddr, or is held while another save or restore runs. -/
  | preemptWrite (p : Nat) (v : DWord)
  /-- R397: A held preempt write takes effect when the previous save or restore ends. -/
  | preemptHeldStart (p : Nat)
  /-- R212: Once every sent access of the context is complete, its gangs, controllers, engines and queues are captured into the image. -/
  | contextCapture (p : Nat)
  /-- R398: The image header (both headers if durable) is written complete; ctxstat reads saved, the units are freed and source 79 fires. -/
  | contextImageComplete (p : Nat)
  /-- R399: A line of a context image is read during restore, falling back to the second copy or marking the context lost; after the last line the units are placed. -/
  | restoreLineRead (p : Nat)
  /-- R383: A write to a context entry sets root, or en; setting en first removes stale TLB, merge and L1 state, and clearing en is ignored while the context is in use. -/
  | contextEntryWrite (p : Nat) (n : Nat) (v : DWord)
  /-- R381: A write of go starts a retirement migration that copies the old frame, or fails with state 5. -/
  | migctlGo (p : Nat) (v : DWord)
  /-- R381: At most 4,096 dirty granules remain, so writes to the frame are held, walks and pins are drained and the dirty granules are copied. -/
  | migrationFinalStart (p : Nat)
  /-- R381: The final copy completes, so the leaf is switched to the new frame, TLBs are cleared and held accesses are released, or the migration fails. -/
  | migrationSwitch (p : Nat)
  /-- R381: 40 µs after the hold began it is released, aborts rises, and copying resumes or fails at 16 aborts. -/
  | migrationHoldTimeout (p : Nat)
  /-- R377: The base die scrubs its stack at least daily, correcting what it can and marking poisoned lines. -/
  | baseDieScrub (p : Nat) (stack : Nat) (corrected : List Nat) (bad : List Nat)
  /-- R378: A row that failed repeatedly or uncorrectably is copied into a spare row and remapped while its accesses wait. -/
  | rowSpareCopy (p : Nat) (stack : Nat) (bank : Nat) (row : Nat)
  /-- R379: The base die finishes zeroing a newly mapped frame, and accesses waiting on it proceed. -/
  | frameZeroingDone (p : Nat) (frame : Nat)
  /-- R401: Firmware moves the arithmetic clock in 25 MHz steps to hold the powcap limit over 1 ms. -/
  | clockAdjust (p : Nat) (up : Bool)
  /-- R401: At a junction temperature of 100 °C firmware lowers the clock. -/
  | thermalThrottle (p : Nat)
  /-- R401: At 110 °C the package stops every context as if pre-empted and reports to the management controller. -/
  | thermalStop (p : Nat)
  /-- R402: At least daily the wear records are recomputed, and source 77 fires when one falls below 365 days. -/
  | wearRecompute (p : Nat) (records : List DWord)
  /-- R393: An IEEE 1588 message on the management port is used to slew the time base. -/
  | ptpMessage (p : Nat) (offs : Word) (locked : Bool) (forward : Nat)
  /-- R394: Loss of sync puts the time base into holdover. -/
  | ptpSyncLoss (p : Nat)
  /-- R396: A write to an interrupt routing entry sets vector, port and enable; enabling delivers a pending source. -/
  | interruptRouteWrite (p : Nat) (n : Nat) (v : DWord)
  /-- R331: A write to qres sets the die-scratchpad queue reserve, or is ignored while die groups hold scratchpad or a queue is enabled. -/
  | qresWrite (d : DieId) (v : DWord)
  /-- R353: A write to fbcfg sets ie, and sets the clamped capacity only while the buffer is empty. -/
  | fbcfgWrite (d : DieId) (v : DWord)
  /-- R353: A write of ones to the dropped or empty bits of fbstat clears them. -/
  | fbstatWrite (d : DieId) (v : DWord)
  /-- R351: A write to poolpush pushes an aligned HBM frame onto the first-touch pool of that size, or is ignored. -/
  | poolpush (d : DieId) (z : BitVec 2) (v : DWord)
  /-- R342: A write to a work-queue entry sets cap, ctx or en; clearing en discards the items and releases blocked operations as disabled. -/
  | queueTableWrite (d : DieId) (n : Nat) (high : Bool) (v : DWord)
  /-- R433: Setting en zeroes the phaser's counts; clearing it drops local registrations and releases stalled instructions as failed. -/
  | phaserEntryEnWrite (p : Nat) (n : Nat) (v : DWord)
  /-- R476: A write of hold is sent to the root weir and taken in its order; clearing hold completes a phase whose arrivals already suffice. -/
  | phaserHoldWrite (p : Nat) (n : Nat) (v : DWord)
  /-- R431: Writing en = 1 on a member package requests a join to the multicast group. -/
  | groupEnJoin (p : Nat) (n : Nat) (v : DWord)
  /-- R431: Writing en = 0 requests a leave, or takes a failed member out. -/
  | groupEnLeave (p : Nat) (n : Nat) (v : DWord)
  /-- R432: Naming a new headgate starts the rehoming: collect hmax, fill the members, set voidfrom and epoch, and stamp again. -/
  | headgateRehome (n : Nat) (hpkg : Nat) (hdie : Nat)
  /-- R7: A write to a register that has no row of its own sets its rw fields and ignores the rest. -/
  | registerWrite (p : Nat) (addr : Nat) (v : DWord)
  /-- R191: Each cycle the core selects up to two issuers per slice by age, class, wait count and slot, and updates the wait counts. -/
  | issueCycle (c : CoreId)
  /-- R106: An sq entry arrives for a store held in the store hold, and the access is sent. -/
  | storeHoldDataArrival (g : GangId)
  /-- R177: Both slices are at their matching gsync with checks passed, so both retire in the same cycle. -/
  | gsyncRendezvous (g : GangId)
  /-- R121: After 256 instructions since the other slice trapped, the running slice stops at an instruction boundary. -/
  | otherSliceStopBound (g : GangId)
  /-- R204: Once both slices have stopped, the trap is delivered: double fault, kill, or record written and supervisor entry. -/
  | trapDelivery (g : GangId)
  /-- R127: Both slices stalled on each other for 1,024 cycles with no access outstanding raises the queue-deadlock trap. -/
  | queueDeadlockTimeout (g : GangId)
  /-- R252: A load's data returns for every lane and is written to its register or pushed into its queue. -/
  | loadDataReturn (n : Nat)
  /-- R217: A store, atomic or reduction is performed at its home slice or bank and acknowledged. -/
  | storeAck (n : Nat)
  /-- R269: A home slice drops a monitor for lack of room, which wakes its fragment spuriously. -/
  | monitorDrop (g : GangId) (frag : Nat)
  /-- R196: A waiting full-empty load is served once its granules are full and earlier waiters on them have been served. -/
  | fullEmptyServe (n : Nat)
  /-- R265: A waiting acq repeats its atomic attempt after a write to the lock word and takes the lock if it is free. -/
  | acqAttempt (u : UnitId)
  /-- R364: A completion word is evaluated at its home after a write, and a waiting cwait that now meets its target is released. -/
  | cwaitEvaluate (u : UnitId)
  /-- R349: A .g miss at the die TLB joins a live merge entry, allocates a new one and walks, or waits for a free entry. -/
  | dieTlbMiss (r : Requester)
  /-- R349: A requester waiting for a free merge entry begins the miss again once an entry is freed. -/
  | mergeEntryWaitRetry (r : Requester)
  /-- R350: A walk ends: it fills the TLB and reissues, hands the miss to the first-touch handler, or buffers or drops it. -/
  | pageTableWalkEnd (d : DieId) (tag : Nat)
  /-- R332: An engine takes its next assigned operation and runs it, stopping at unmapped pages for a replay. -/
  | copyOpStart (d : DieId) (e : Nat)
  /-- R333: With every write acknowledged, the engine raises the completion object's count, setting fault if the operation faulted. -/
  | copyOpComplete (d : DieId) (e : Nat)
  /-- R343: A waiting enq lane enqueues once a dequeue frees room. -/
  | enqLaneResume (g : GangId)
  /-- R368: Lanes of deqt not served by the deadline write status 2. -/
  | deqtTimeout (g : GangId)
  /-- R344: An uncorrectable error in a queue's state sets failed, discards its items and releases blocked operations as failed. -/
  | queueFailure (d : DieId) (n : Nat)
  /-- R409: The time base reaches a waiting tmwait's time, and it returns. -/
  | tmwaitExpiry (u : UnitId)
  /-- R290: The tile fetch unit translates, reads and pins an operand-B line, or meets a fault that stops the anvil. -/
  | tileFetchLine (c : CluId)
  /-- R288: One k-step runs with its lines pinned, is checked by checksums and applied once, and a head that finishes completes. -/
  | anvilKstep (c : CluId)
  /-- R315: One factorisation column or trsm step is applied whole, gej is updated, or a zero-pivot or definiteness fault stops it. -/
  | anvilColumn (c : CluId)
  /-- R292: A controller trap is delivered at its next boundary: double fault, runtime end of the launch, or supervisor entry. -/
  | controllerTrapDelivery (c : CluId)
  /-- R313: A waiting awt returns once done reaches its value or the anvil queue empties. -/
  | awtReturn (c : CluId)
  /-- R420: A flit is received, checked by CRC and sequence, and delivered or discarded; link-control gaps trigger a resend. -/
  | flitReceive (p : Nat) (port : Nat) (flit : List Byte)
  /-- R420: 2 µs without an aseq advance resends from the first unacknowledged flit. -/
  | linkRetryTimeout (p : Nat) (port : Nat)
  /-- R421: A lane over its error rate, or out of lock, is retired: the spare is swapped in, the port falls to half width, or it goes down. -/
  | laneRetire (p : Nat) (port : Nat) (lane : Nat)
  /-- R421: A spare-lane swap or half-width switch ends and the port carries flits again. -/
  | laneSwapDone (p : Nat) (port : Nat)
  /-- R424: Every 2 µs each port exchanges a link-control keepalive. -/
  | keepaliveSend (p : Nat) (port : Nat) (heard : Bool)
  /-- R424: Ten missed keepalives in a row put the port down. -/
  | portDown (p : Nat) (port : Nat)
  /-- R424: A package is declared dead after 20 ms with every port to it down, or on report; its traffic, phasers and groups are failed or lost. -/
  | packageDead (n : Nat)
  /-- R423: Every 100 µs a package exchanges route costs with its peers and updates its route entries. -/
  | routeExchange (p : Nat) (n : Nat) (port : Nat) (cost : Nat)
  /-- R451: A remote load, store or reduction arriving at the destination is translated there and served at its home slice, or answered as lost. -/
  | remoteAccessServe (n : Nat)
  /-- R453: Remote load data returns and is written into the destination registers. -/
  | remoteLoadReturn (n : Nat)
  /-- R456: A fabric write's acknowledgement, possibly as lost, lowers the pending-byte counter. -/
  | remoteWriteAck (n : Nat)
  /-- R427: The headgate receives a multicast store or atomic and stamps the next sequence if s − stable ≤ 1,024, else holds it. -/
  | multicastStamp (n : Nat)
  /-- R427: Stable advances far enough for a held record to be stamped and sent. -/
  | multicastStampRelease (n : Nat)
  /-- R428: A member applies the next record in sequence order, advances applied and reports to the headgate. -/
  | multicastApply (p : Nat) (n : Nat)
  /-- R429: An idle headgate sends stable to the members every 10 µs, and they discard records at or below it. -/
  | stableBroadcast (n : Nat)
  /-- R436: An arrival reaches a weir; at equality it is forwarded upward, or at an unheld root the phase completes and is broadcast. -/
  | weirArrival (n : Nat) (weir : WeirId)
  /-- R438: The root takes a join or leave in its order, fixes its effective phase and sends the acknowledgement down. -/
  | phaserMembershipAtRoot (n : Nat)
  /-- R441: An uncorrectable count error or a registrant's death fails the phaser, which is broadcast as a failed completion. -/
  | phaserFail (n : Nat)
  /-- R441: A package weir whose counts are lost is replaced by its standby copy within 10 µs. -/
  | weirStandbyTakeover (p : Nat) (n : Nat)
  /-- R444: The collective writes a chunk or result into a package and sets its arrival flag as st.fe does. -/
  | collectiveChunkWrite (p : Nat) (l : Nat) (chunk : Nat)
  /-- R286: The anvil performs a queued azero, acvt or pmapply at the head of the anvil queue, writes its tile and completes it, raising done. -/
  | anvilQueuedOperation (c : CluId)
  /-- R418: A fabric port finishes training, learns its peer's package and port, and moves from state 1 training to full width. -/
  | linkTrainingComplete (p : Nat) (port : Nat) (ppkg : Nat) (pport : Nat)
  /-- R431: An uncorrectable error in a member's multicast group state or retained records puts that member in state 5 failed. -/
  | groupStateError (p : Nat) (n : Nat)
deriving DecidableEq, Repr, Inhabited

end Sys2Proof
end

