-- ==== Sys2Proof/WellFormed.lean ====
section
/-! DEFINITION. Well-formed instructions: which units may issue each row (Units columns of R65, R71, R75, R77, R302), the
privilege it needs (R75), and every rule of R61 to R75, R359 and R448 on the values of its operand fields, each giving the
detail of R79 that its breach records. -/

namespace Sys2Proof

/-- The types that fn fields, size fields and conversion codes name (R24, R64, R77). -/
inductive Ty where
  | b32 | b64 | i8 | i16 | i32 | i64 | n8 | n16 | n32 | n64
  | f16 | bf16 | f32 | f64 | e4m3 | e5m2 | bad
deriving DecidableEq, Repr, Inhabited

namespace Ty
/-- fn class B, of which an instruction's field keeps the low bit (R64). -/
def B (w : BitVec 1) : Ty := if w = 0 then .b32 else .b64
/-- fn class I (R64). -/
def I (i : BitVec 2) : Ty := if i = 0 then .i32 else if i = 1 then .i64 else if i = 2 then .n32 else .n64
/-- fn class F (R64). -/
def F (f : BitVec 2) : Ty := if f = 0 then .f32 else if f = 1 then .f64 else if f = 2 then .f16 else .bf16
/-- fn of `gred` and `scan`: class I when b[5] is 0, class F when it is 1 (R77). -/
def IF (c : BitVec 1) (t : BitVec 2) : Ty := if c = 0 then I t else F t
/-- The `cvt` type codes (R77). -/
def code (c : BitVec 4) : Ty :=
  match c.toNat with
  | 0 => .i8 | 1 => .i16 | 2 => .i32 | 3 => .i64 | 4 => .n8 | 5 => .n16 | 6 => .n32 | 7 => .n64
  | 8 => .f16 | 9 => .bf16 | 10 => .f32 | 11 => .f64 | 12 => .e4m3 | 13 => .e5m2 | _ => .bad
/-- A 64-bit type: a pair of c-slice registers (R53), two queue entries (R61). -/
def wide : Ty → Bool
  | .b64 | .i64 | .n64 | .f64 => true
  | _ => false
/-- The width of a type in bits. -/
def bits : Ty → Nat
  | .i8 | .n8 | .e4m3 | .e5m2 => 8
  | .i16 | .n16 | .f16 | .bf16 => 16
  | .b32 | .i32 | .n32 | .f32 => 32
  | _ => 64
/-- A signed integer type (R24). -/
def signed : Ty → Bool
  | .i8 | .i16 | .i32 | .i64 => true
  | _ => false
/-- A floating type (R15). -/
def floating : Ty → Bool
  | .f16 | .bf16 | .f32 | .f64 | .e4m3 | .e5m2 => true
  | _ => false
end Ty

namespace UnitKind
/-- The natural raw type of a unit (R59, R135). -/
def natural : UnitKind → Ty
  | .C => .b32
  | _ => .b64
/-- The type in which a unit computes with a directed rounding (R64). -/
def floating : UnitKind → Ty
  | .C => .f32
  | _ => .f64
end UnitKind

/-- What field a of a lane operation names when it is no queue: a value register of a type, a mask register, or for
`kset` a value register that a mask record may replace (R63, R146). -/
inductive AOperand where
  | ty (t : Ty)
  | msk
  | mskVal (t : Ty)
deriving DecidableEq, Repr

/-- What field b of a lane operation names. -/
inductive BOperand where
  | reg (t : Ty)
  | msk
  | none
deriving DecidableEq, Repr

/-- What field d of a lane operation names: a destination, a destination that is also the third source, or the mask of
a mask producer (R60, R138). -/
inductive DOperand where
  | dst
  | acc
  | mask
deriving DecidableEq, Repr

/-- The operands of a lane operation, read off its fields: the type of each, the sink, and the register or queue codes. -/
structure LaneForm where
  aOp : AOperand
  bOp : BOperand
  res : Ty
  dOp : DOperand
  sk : BitVec 4
  a : BitVec 6
  b : BitVec 6
  d : BitVec 6
  q : BitVec 1
deriving DecidableEq, Repr

namespace Instr

/-- The operands of every lane operation of the register format (R60, R77); none for any other row. -/
def laneForm (u : UnitKind) : Instr → Option LaneForm
  | .add w sk b a d q => some ⟨.ty (.B w), .reg (.B w), .B w, .dst, sk, a, b, d, q⟩
  | .sub w sk b a d q => some ⟨.ty (.B w), .reg (.B w), .B w, .dst, sk, a, b, d, q⟩
  | .mul w sk b a d q => some ⟨.ty (.B w), .reg (.B w), .B w, .dst, sk, a, b, d, q⟩
  | .and w sk b a d q => some ⟨.ty (.B w), .reg (.B w), .B w, .dst, sk, a, b, d, q⟩
  | .or w sk b a d q => some ⟨.ty (.B w), .reg (.B w), .B w, .dst, sk, a, b, d, q⟩
  | .xor w sk b a d q => some ⟨.ty (.B w), .reg (.B w), .B w, .dst, sk, a, b, d, q⟩
  | .shl w sk b a d q => some ⟨.ty (.B w), .reg (.B w), .B w, .dst, sk, a, b, d, q⟩
  | .shr w sk b a d q => some ⟨.ty (.B w), .reg (.B w), .B w, .dst, sk, a, b, d, q⟩
  | .sar w sk b a d q => some ⟨.ty (.B w), .reg (.B w), .B w, .dst, sk, a, b, d, q⟩
  | .rol w sk b a d q => some ⟨.ty (.B w), .reg (.B w), .B w, .dst, sk, a, b, d, q⟩
  | .ror w sk b a d q => some ⟨.ty (.B w), .reg (.B w), .B w, .dst, sk, a, b, d, q⟩
  | .mad w sk b a d q => some ⟨.ty (.B w), .reg (.B w), .B w, .acc, sk, a, b, d, q⟩
  | .bfi w sk b a d q => some ⟨.ty (.B w), .reg (.B w), .B w, .acc, sk, a, b, d, q⟩
  | .mulh i sk b a d q => some ⟨.ty (.I i), .reg (.I i), .I i, .dst, sk, a, b, d, q⟩
  | .div i sk b a d q => some ⟨.ty (.I i), .reg (.I i), .I i, .dst, sk, a, b, d, q⟩
  | .rem i sk b a d q => some ⟨.ty (.I i), .reg (.I i), .I i, .dst, sk, a, b, d, q⟩
  | .min i sk b a d q => some ⟨.ty (.I i), .reg (.I i), .I i, .dst, sk, a, b, d, q⟩
  | .max i sk b a d q => some ⟨.ty (.I i), .reg (.I i), .I i, .dst, sk, a, b, d, q⟩
  | .bfx i sk b a d q => some ⟨.ty (.I i), .reg (.I i), .I i, .dst, sk, a, b, d, q⟩
  | .abs w sk a d q => some ⟨.ty (.B w), .none, .B w, .dst, sk, a, 0, d, q⟩
  | .neg w sk a d q => some ⟨.ty (.B w), .none, .B w, .dst, sk, a, 0, d, q⟩
  | .not w sk a d q => some ⟨.ty (.B w), .none, .B w, .dst, sk, a, 0, d, q⟩
  | .clz w sk a d q => some ⟨.ty (.B w), .none, .B w, .dst, sk, a, 0, d, q⟩
  | .popc w sk a d q => some ⟨.ty (.B w), .none, .B w, .dst, sk, a, 0, d, q⟩
  | .brev w sk a d q => some ⟨.ty (.B w), .none, .B w, .dst, sk, a, 0, d, q⟩
  | .icmp i sk b a _ m q => some ⟨.ty (.I i), .reg (.I i), .B 0, .mask, sk, a, b, m.zeroExtend 6, q⟩
  | .sel _ sk b a d q => some ⟨.ty u.natural, .reg u.natural, u.natural, .dst, sk, a, b, d, q⟩
  | .lea _ sk b a d q => some ⟨.ty .b64, .reg .b64, .b64, .dst, sk, a, b, d, q⟩
  | .fadd f sk b a d q => some ⟨.ty (.F f), .reg (.F f), .F f, .dst, sk, a, b, d, q⟩
  | .fsub f sk b a d q => some ⟨.ty (.F f), .reg (.F f), .F f, .dst, sk, a, b, d, q⟩
  | .fmul f sk b a d q => some ⟨.ty (.F f), .reg (.F f), .F f, .dst, sk, a, b, d, q⟩
  | .fdiv f sk b a d q => some ⟨.ty (.F f), .reg (.F f), .F f, .dst, sk, a, b, d, q⟩
  | .fmin f sk b a d q => some ⟨.ty (.F f), .reg (.F f), .F f, .dst, sk, a, b, d, q⟩
  | .fmax f sk b a d q => some ⟨.ty (.F f), .reg (.F f), .F f, .dst, sk, a, b, d, q⟩
  | .fminn f sk b a d q => some ⟨.ty (.F f), .reg (.F f), .F f, .dst, sk, a, b, d, q⟩
  | .fmaxn f sk b a d q => some ⟨.ty (.F f), .reg (.F f), .F f, .dst, sk, a, b, d, q⟩
  | .fma f sk b a d q => some ⟨.ty (.F f), .reg (.F f), .F f, .acc, sk, a, b, d, q⟩
  | .fsqrt f sk _ a d q => some ⟨.ty (.F f), .none, .F f, .dst, sk, a, 0, d, q⟩
  | .frcp f sk a d q => some ⟨.ty (.F f), .none, .F f, .dst, sk, a, 0, d, q⟩
  | .frsq f sk a d q => some ⟨.ty (.F f), .none, .F f, .dst, sk, a, 0, d, q⟩
  | .fexp2 f sk a d q => some ⟨.ty (.F f), .none, .F f, .dst, sk, a, 0, d, q⟩
  | .flog2 f sk a d q => some ⟨.ty (.F f), .none, .F f, .dst, sk, a, 0, d, q⟩
  | .fabs f sk a d q => some ⟨.ty (.F f), .none, .F f, .dst, sk, a, 0, d, q⟩
  | .fneg f sk a d q => some ⟨.ty (.F f), .none, .F f, .dst, sk, a, 0, d, q⟩
  | .fcmp f sk b a _ m q => some ⟨.ty (.F f), .reg (.F f), .B 0, .mask, sk, a, b, m.zeroExtend 6, q⟩
  | .tspk _ sk _ _ a d q => some ⟨.ty .b32, .none, .b64, .dst, sk, a, 0, d, q⟩
  | .tsupk _ sk b a d q => some ⟨.ty .b32, .reg .b32, .b32, .dst, sk, a, b, d, q⟩
  | .tssc sk b a d q => some ⟨.ty .b32, .reg .b32, .b32, .dst, sk, a, b, d, q⟩
  | .shflIdx sk b a d q => some ⟨.ty u.natural, .reg u.natural, u.natural, .dst, sk, a, b, d, q⟩
  | .shflUp sk b a d q => some ⟨.ty u.natural, .reg u.natural, u.natural, .dst, sk, a, b, d, q⟩
  | .shflDn sk b a d q => some ⟨.ty u.natural, .reg u.natural, u.natural, .dst, sk, a, b, d, q⟩
  | .shflXor sk b a d q => some ⟨.ty u.natural, .reg u.natural, u.natural, .dst, sk, a, b, d, q⟩
  | .rotUp sk b a d q => some ⟨.ty u.natural, .reg u.natural, u.natural, .dst, sk, a, b, d, q⟩
  | .rotDn sk b a d q => some ⟨.ty u.natural, .reg u.natural, u.natural, .dst, sk, a, b, d, q⟩
  | .bcast sk _ a d q => some ⟨.ty u.natural, .none, u.natural, .dst, sk, a, 0, d, q⟩
  | .gred t sk c _ a d q => some ⟨.ty (.IF c t), .none, .IF c t, .dst, sk, a, 0, d, q⟩
  | .scanInc t sk c _ a d q => some ⟨.ty (.IF c t), .none, .IF c t, .dst, sk, a, 0, d, q⟩
  | .scanExc t sk c _ a d q => some ⟨.ty (.IF c t), .none, .IF c t, .dst, sk, a, 0, d, q⟩
  | .kand sk b a d q => some ⟨.msk, .msk, .B 0, .mask, sk, a.zeroExtend 6, b.zeroExtend 6, d.zeroExtend 6, q⟩
  | .kandn sk b a d q => some ⟨.msk, .msk, .B 0, .mask, sk, a.zeroExtend 6, b.zeroExtend 6, d.zeroExtend 6, q⟩
  | .kor sk b a d q => some ⟨.msk, .msk, .B 0, .mask, sk, a.zeroExtend 6, b.zeroExtend 6, d.zeroExtend 6, q⟩
  | .kxor sk b a d q => some ⟨.msk, .msk, .B 0, .mask, sk, a.zeroExtend 6, b.zeroExtend 6, d.zeroExtend 6, q⟩
  | .knot sk a d q => some ⟨.msk, .none, .B 0, .mask, sk, a.zeroExtend 6, 0, d.zeroExtend 6, q⟩
  | .voteAll sk a d q => some ⟨.msk, .none, .B 0, .mask, sk, a.zeroExtend 6, 0, d.zeroExtend 6, q⟩
  | .voteAny sk a d q => some ⟨.msk, .none, .B 0, .mask, sk, a.zeroExtend 6, 0, d.zeroExtend 6, q⟩
  | .kmov sk a d q => some ⟨.msk, .none, .B 0, .mask, sk, a.zeroExtend 6, 0, d.zeroExtend 6, q⟩
  | .ballot sk a d q => some ⟨.msk, .none, u.natural, .dst, sk, a.zeroExtend 6, 0, d, q⟩
  | .kset sk a d q => some ⟨.mskVal u.natural, .none, .B 0, .mask, sk, a, 0, d.zeroExtend 6, q⟩
  | .faddD _ sk b a d q => some ⟨.ty u.floating, .reg u.floating, u.floating, .dst, sk, a, b, d, q⟩
  | .fsubD _ sk b a d q => some ⟨.ty u.floating, .reg u.floating, u.floating, .dst, sk, a, b, d, q⟩
  | .fmulD _ sk b a d q => some ⟨.ty u.floating, .reg u.floating, u.floating, .dst, sk, a, b, d, q⟩
  | .fmaD _ sk b a d q => some ⟨.ty u.floating, .reg u.floating, u.floating, .acc, sk, a, b, d, q⟩
  | .cvtRne u' sk y v a d q => some ⟨.ty (.code (u' ++ v)), .none, .code y, .dst, sk, a, 0, d, q⟩
  | .cvtRna u' sk y v a d q => some ⟨.ty (.code (u' ++ v)), .none, .code y, .dst, sk, a, 0, d, q⟩
  | .cvtRz u' sk y v a d q => some ⟨.ty (.code (u' ++ v)), .none, .code y, .dst, sk, a, 0, d, q⟩
  | .cvtRup u' sk y v a d q => some ⟨.ty (.code (u' ++ v)), .none, .code y, .dst, sk, a, 0, d, q⟩
  | .cvtRdn u' sk y v a d q => some ⟨.ty (.code (u' ++ v)), .none, .code y, .dst, sk, a, 0, d, q⟩
  | _ => none

/-- The units that may issue an instruction; an event is issued by none (Units columns of R59, R65, R71, R75, R77, R302). -/
def units : Instr → List UnitKind
  | .mov16 _ _ | .add16 _ _ | .sub16 _ _ | .mul16 _ _ | .and16 _ _ | .or16 _ _ | .xor16 _ _ | .shl16 _ _
  | .shr16 _ _ | .sar16 _ _ | .min16 _ _ | .max16 _ _ | .add _ _ _ _ _ _ | .sub _ _ _ _ _ _ | .mul _ _ _ _ _ _
  | .mulh _ _ _ _ _ _ | .mad _ _ _ _ _ _ | .div _ _ _ _ _ _ | .rem _ _ _ _ _ _ | .min _ _ _ _ _ _
  | .max _ _ _ _ _ _ | .and _ _ _ _ _ _ | .or _ _ _ _ _ _ | .xor _ _ _ _ _ _ | .shl _ _ _ _ _ _
  | .shr _ _ _ _ _ _ | .sar _ _ _ _ _ _ | .rol _ _ _ _ _ _ | .ror _ _ _ _ _ _ | .abs _ _ _ _ _ | .neg _ _ _ _ _
  | .not _ _ _ _ _ | .clz _ _ _ _ _ | .popc _ _ _ _ _ | .brev _ _ _ _ _ | .bfx _ _ _ _ _ _ | .bfi _ _ _ _ _ _
  | .movImm _ _ | .addImm _ _ | .mulImm _ _ | .andImm _ _ | .orImm _ _ | .xorImm _ _ | .shlImm _ _
  | .shrImm _ _ | .sarImm _ _ | .minImm _ _ | .maxImm _ _ | .movh _ _ _ | .bra _ _ | .call _ _ | .nop | .ret
  | .jmpi _ _ _ | .exit | .trap _ | .brk _ | .svc _ | .rft | .region | .rdsr _ _ | .wrsr _ _ => [.A, .C, .M]
  | .fadd16 _ _ | .fsub16 _ _ | .fmul16 _ _ | .fmax16 _ _ | .icmp _ _ _ _ _ _ _ | .sel _ _ _ _ _ _
  | .fadd _ _ _ _ _ _ | .fsub _ _ _ _ _ _ | .fmul _ _ _ _ _ _ | .fdiv _ _ _ _ _ _ | .fmin _ _ _ _ _ _
  | .fmax _ _ _ _ _ _ | .fminn _ _ _ _ _ _ | .fmaxn _ _ _ _ _ _ | .fma _ _ _ _ _ _ | .fsqrt _ _ _ _ _ _
  | .frcp _ _ _ _ _ | .frsq _ _ _ _ _ | .fexp2 _ _ _ _ _ | .flog2 _ _ _ _ _ | .fabs _ _ _ _ _ | .fneg _ _ _ _ _
  | .fcmp _ _ _ _ _ _ _ | .shflIdx _ _ _ _ _ | .shflUp _ _ _ _ _ | .shflDn _ _ _ _ _ | .shflXor _ _ _ _ _
  | .rotUp _ _ _ _ _ | .rotDn _ _ _ _ _ | .bcast _ _ _ _ _ | .gred _ _ _ _ _ _ _ | .scanInc _ _ _ _ _ _ _
  | .scanExc _ _ _ _ _ _ _ | .kand _ _ _ _ _ | .kandn _ _ _ _ _ | .kor _ _ _ _ _ | .kxor _ _ _ _ _
  | .knot _ _ _ _ | .voteAll _ _ _ _ | .voteAny _ _ _ _ | .kmov _ _ _ _ | .ballot _ _ _ _ | .kset _ _ _ _
  | .faddD _ _ _ _ _ _ | .fsubD _ _ _ _ _ _ | .fmulD _ _ _ _ _ _ | .fmaD _ _ _ _ _ _ | .cvtRne _ _ _ _ _ _ _
  | .cvtRna _ _ _ _ _ _ _ | .cvtRz _ _ _ _ _ _ _ | .cvtRup _ _ _ _ _ _ _ | .cvtRdn _ _ _ _ _ _ _ | .fmovImm _ _
  | .faddImm _ _ | .fmulImm _ _ | .fmaxImm _ _ | .rejoin | .qpeek _ _ | .qcount _ _ | .qdrain _ | .gsync
  | .gsyncMask _ => [.A, .C]
  | .lea _ _ _ _ _ _ | .brc _ _ _ _ | .fence _ | .acq _ | .rel _ | .copy _ _ _ | .tcopy _ _ | .cwait _ _
  | .tmwait _ | .phjoin _ _ | .phleave _ | .phsig _ | .phsigBnd _ | .phwait _ _ | .phsw _ _ | .phswBnd _ _
  | .phany _ _ | .phfind _ _ => [.A, .M]
  | .brv _ _ | .chkOff | .chkOn | .chkQ _ | .bind _ _ _ | .unbind _ | .mon _ | .mwait | .pfL1 _ | .pfL2 _
  | .copyt _ _ _ | .enq _ _ | .deq _ _ | .deqt _ _ _ | .mappg _ _ _ _ | .unmappg _ _ | .tlbinv _ _ | .fbread _
  | .replay _ | .replayall | .ctxsv _ | .ctxld _ | .rtcore _ | .rtclu _ | .skrd _ | .replan _ | .rld _ _ _
  | .rst _ _ _ | .rredAdd _ _ _ | .rredMin _ _ _ | .rredMax _ _ _ | .rredAnd _ _ _ | .rredOr _ _ _
  | .rredXor _ _ _ | .mcst _ _ _ _ | .mcatomAdd _ _ _ | .mcatomMin _ _ _ | .mcatomMax _ _ _ | .mcatomAnd _ _ _
  | .mcatomOr _ _ _ | .mcatomXor _ _ _ | .mcwait _ _ | .ld _ _ _ _ _ _ | .ldFe _ _ _ _ _ _ | .ldFec _ _ _ _ _ _
  | .st _ _ _ _ _ _ | .stFe _ _ _ _ _ _ | .atomAdd _ _ _ _ _ | .atomMin _ _ _ _ _ | .atomMax _ _ _ _ _
  | .atomAnd _ _ _ _ _ | .atomOr _ _ _ _ _ | .atomXor _ _ _ _ _ | .atomExch _ _ _ _ _ | .atomCas _ _ _ _ _
  | .redAdd _ _ _ _ | .redMin _ _ _ _ | .redMax _ _ _ _ | .redAnd _ _ _ _ | .redOr _ _ _ _ | .redXor _ _ _ _
  | .fatomAdd _ _ _ _ _ | .fatomMin _ _ _ _ _ | .fatomMax _ _ _ _ _ | .fredAdd _ _ _ _ | .fredMin _ _ _ _
  | .fredMax _ _ _ _ => [.A]
  | .brd _ | .tspk _ _ _ _ _ _ _ | .tsupk _ _ _ _ _ _ | .tssc _ _ _ _ _ => [.C]
  | .mma _ _ _ _ _ | .mmaz _ _ _ _ _ | .azero _ | .acvt _ _ _ | .tpin _ _ | .awt _ | .pmapply _ _ | .gerd _ _
  | .lup _ _ | .chol _ _ | .qrh _ _ _ | .trsm _ _ _ _ => [.M]
  | .packageColdReset _ | .secureBootStage _ _ _ _ _ | .attestationRequest _ _ | .hostWrite _ _ _ _
  | .hostRead _ _ _ _ | .submissionNotify _ _ _ | .qcfgWrite _ _ _ | .launchPacketStampRead _ _
  | .launchStart _ _ | .startTimeReached _ _ | .gangEnd _ | .launchEnd _ _ | .lendWrite _ _ | .preemptWrite _ _
  | .preemptHeldStart _ | .contextCapture _ | .contextImageComplete _ | .restoreLineRead _
  | .contextEntryWrite _ _ _ | .migctlGo _ _ | .migrationFinalStart _ | .migrationSwitch _
  | .migrationHoldTimeout _ | .baseDieScrub _ _ _ _ | .rowSpareCopy _ _ _ _ | .frameZeroingDone _ _
  | .clockAdjust _ _ | .thermalThrottle _ | .thermalStop _ | .wearRecompute _ _ | .ptpMessage _ _ _ _
  | .ptpSyncLoss _ | .interruptRouteWrite _ _ _ | .qresWrite _ _ | .fbcfgWrite _ _ | .fbstatWrite _ _
  | .poolpush _ _ _ | .queueTableWrite _ _ _ _ | .phaserEntryEnWrite _ _ _ | .phaserHoldWrite _ _ _
  | .groupEnJoin _ _ _ | .groupEnLeave _ _ _ | .headgateRehome _ _ _ | .registerWrite _ _ _ | .issueCycle _
  | .storeHoldDataArrival _ | .gsyncRendezvous _ | .otherSliceStopBound _ | .trapDelivery _
  | .queueDeadlockTimeout _ | .loadDataReturn _ | .storeAck _ | .monitorDrop _ _ | .fullEmptyServe _
  | .acqAttempt _ | .cwaitEvaluate _ | .dieTlbMiss _ | .mergeEntryWaitRetry _ | .pageTableWalkEnd _ _
  | .copyOpStart _ _ | .copyOpComplete _ _ | .enqLaneResume _ | .deqtTimeout _ | .queueFailure _ _
  | .tmwaitExpiry _ | .tileFetchLine _ | .anvilKstep _ | .anvilColumn _ | .controllerTrapDelivery _
  | .awtReturn _ | .flitReceive _ _ _ | .linkRetryTimeout _ _ | .laneRetire _ _ _ | .laneSwapDone _ _
  | .keepaliveSend _ _ _ | .portDown _ _ | .packageDead _ | .routeExchange _ _ _ _ | .remoteAccessServe _
  | .remoteLoadReturn _ | .remoteWriteAck _ | .multicastStamp _ | .multicastStampRelease _
  | .multicastApply _ _ | .stableBroadcast _ | .weirArrival _ _ | .phaserMembershipAtRoot _ | .phaserFail _
  | .weirStandbyTakeover _ _ | .collectiveChunkWrite _ _ _ | .anvilQueuedOperation _
  | .linkTrainingComplete _ _ _ _ | .groupStateError _ _ => []

/-- The least privilege an instruction needs (Privilege column of R75): S is supervisor or firmware, F firmware. -/
def privilege : Instr → Mode
  | .rft | .mappg _ _ _ _ | .unmappg _ _ | .tlbinv _ _ | .fbread _ | .replay _ | .replayall | .ctxsv _
  | .ctxld _ => .supervisor
  | .rtcore _ | .rtclu _ => .firmware
  | _ => .user

/-- A 16-bit row (R58); every other encoded row is 32 bits long. -/
def isShort : Instr → Bool
  | .mov16 _ _ | .add16 _ _ | .sub16 _ _ | .mul16 _ _ | .and16 _ _ | .or16 _ _ | .xor16 _ _ | .shl16 _ _
  | .shr16 _ _ | .sar16 _ _ | .min16 _ _ | .max16 _ _ | .fadd16 _ _ | .fsub16 _ _ | .fmul16 _ _ | .fmax16 _ _ => true
  | _ => false

/-- A step of the machine that is no instruction of a stream (file 95). -/
def isEvent : Instr → Bool
  | .packageColdReset _ | .secureBootStage _ _ _ _ _ | .attestationRequest _ _ | .hostWrite _ _ _ _
  | .hostRead _ _ _ _ | .submissionNotify _ _ _ | .qcfgWrite _ _ _ | .launchPacketStampRead _ _
  | .launchStart _ _ | .startTimeReached _ _ | .gangEnd _ | .launchEnd _ _ | .lendWrite _ _ | .preemptWrite _ _
  | .preemptHeldStart _ | .contextCapture _ | .contextImageComplete _ | .restoreLineRead _
  | .contextEntryWrite _ _ _ | .migctlGo _ _ | .migrationFinalStart _ | .migrationSwitch _
  | .migrationHoldTimeout _ | .baseDieScrub _ _ _ _ | .rowSpareCopy _ _ _ _ | .frameZeroingDone _ _
  | .clockAdjust _ _ | .thermalThrottle _ | .thermalStop _ | .wearRecompute _ _ | .ptpMessage _ _ _ _
  | .ptpSyncLoss _ | .interruptRouteWrite _ _ _ | .qresWrite _ _ | .fbcfgWrite _ _ | .fbstatWrite _ _
  | .poolpush _ _ _ | .queueTableWrite _ _ _ _ | .phaserEntryEnWrite _ _ _ | .phaserHoldWrite _ _ _
  | .groupEnJoin _ _ _ | .groupEnLeave _ _ _ | .headgateRehome _ _ _ | .registerWrite _ _ _ | .issueCycle _
  | .storeHoldDataArrival _ | .gsyncRendezvous _ | .otherSliceStopBound _ | .trapDelivery _
  | .queueDeadlockTimeout _ | .loadDataReturn _ | .storeAck _ | .monitorDrop _ _ | .fullEmptyServe _
  | .acqAttempt _ | .cwaitEvaluate _ | .dieTlbMiss _ | .mergeEntryWaitRetry _ | .pageTableWalkEnd _ _
  | .copyOpStart _ _ | .copyOpComplete _ _ | .enqLaneResume _ | .deqtTimeout _ | .queueFailure _ _
  | .tmwaitExpiry _ | .tileFetchLine _ | .anvilKstep _ | .anvilColumn _ | .controllerTrapDelivery _
  | .awtReturn _ | .flitReceive _ _ _ | .linkRetryTimeout _ _ | .laneRetire _ _ _ | .laneSwapDone _ _
  | .keepaliveSend _ _ _ | .portDown _ _ | .packageDead _ | .routeExchange _ _ _ _ | .remoteAccessServe _
  | .remoteLoadReturn _ | .remoteWriteAck _ | .multicastStamp _ | .multicastStampRelease _
  | .multicastApply _ _ | .stableBroadcast _ | .weirArrival _ _ | .phaserMembershipAtRoot _ | .phaserFail _
  | .weirStandbyTakeover _ _ | .collectiveChunkWrite _ _ _ | .anvilQueuedOperation _
  | .linkTrainingComplete _ _ _ _ | .groupStateError _ _ => true
  | _ => false

/-- The length of an encoded instruction in bytes (R49). -/
def size (i : Instr) : Nat := if i.isShort then 2 else 4

end Instr

/-- A mode reaches a needed privilege (R75). -/
def Mode.permits (needed mode : Mode) : Bool :=
  match needed with
  | .user => true
  | .supervisor => mode != .user
  | .firmware => mode == .firmware

namespace WellFormed

/-- One check: its detail of R79 when it fails. -/
def bad (detail : Nat) (fails : Bool) : List Nat := if fails then [detail] else []

/-- A register code that a unit does not have (R52 to R54): only the controller's codes are short of 64. -/
def noReg (u : UnitKind) (r : BitVec 6) : List Nat := bad 7 (u == .M && r ≥ 32)

/-- A value operand: in C an odd code of a 64-bit type names no pair (R53). -/
def valueReg (u : UnitKind) (t : Ty) (r : BitVec 6) : List Nat :=
  noReg u r ++ bad 7 (u == .C && t.wide && r.toNat % 2 == 1)

/-- The queue codes of field a that a unit reads (R63). -/
def queueOk (u : UnitKind) (code : BitVec 6) (mask : Bool) : Bool :=
  match u with
  | .A => !mask && code.toNat < 3
  | .C => if mask then code.toNat == 4 else code.toNat < 4
  | .M => false

/-- The sink and operand rules of a lane operation (R61 to R63, R53, R138). -/
def laneFaults (u : UnitKind) (f : LaneForm) : List Nat :=
  let masky := f.aOp != .msk && (match f.aOp with | .mskVal _ => false | _ => true)
  bad 3 (f.q == 1 && u == .M)
    ++ bad 5 (!f.sk.getLsbD 0 && f.d != 0)
    ++ bad 5 (f.q == 1 && f.a.extractLsb' 3 3 != 0)
    ++ bad 6 (u == .M && f.sk != 1)
    ++ bad 6 (f.dOp == .acc && !f.sk.getLsbD 0)
    ++ bad 6 (f.dOp == .mask && (f.sk.getLsbD 1 || f.sk.getLsbD 2))
    ++ bad 6 (u == .A && f.dOp != .mask && f.sk.getLsbD 3)
    ++ (if f.q == 1 then bad 7 (!queueOk u f.a (!masky))
        else match f.aOp with
          | .ty t => valueReg u t f.a
          | .mskVal t => valueReg u t f.a
          | .msk => [])
    ++ (match f.bOp with
        | .reg t => valueReg u t f.b
        | _ => [])
    ++ (if f.dOp == .mask then [] else valueReg u f.res f.d)

/-- The sizes of a memory access of the fabric group: fn 11 is illegal (R448). -/
def sizeFault (z : BitVec 2) : List Nat := bad 6 (z == 3)

/-- A register pair of the a-slice or the controller needs an even code (R75, R448); it may be of s registers (log entry 37). -/
def pairFault (r : BitVec 6) : List Nat := bad 7 (r.toNat % 2 == 1)

/-- A special register code and whether `rdsr` may read it in a unit (R57). -/
def readable (u : UnitKind) (c : BitVec 6) : Bool :=
  match u with
  | .A => c.toNat < 9
  | .C => c.toNat < 7
  | .M => c.toNat == 3 || c.toNat == 4 || c.toNat == 5 || c.toNat == 8 || c.toNat == 9

/-- Whether `wrsr` may write a special register in a unit and mode (R57, R160). -/
def writable (u : UnitKind) (m : Mode) (c : BitVec 6) : Bool :=
  match u with
  | .A => c.toNat == 6 || c.toNat == 7
  | .C => c.toNat == 6
  | .M => c.toNat == 9 && m != .user

/-- The even code below 48 that a register pair written by `copyt`, `deq` and `deqt` needs (R359). -/
def lanePair (r : BitVec 6) : List Nat := bad 7 (r.toNat % 2 == 1 || r ≥ 48)

/-- The data form of `ld` and `st` (R67, R68, R251). -/
def memFault (load fe : Bool) (q : BitVec 1) (z : BitVec 3) (d : BitVec 6) : List Nat :=
  bad 5 (q == 1 && (if load then d.extractLsb' 2 4 != 0 else d.extractLsb' 1 5 != 0))
    ++ bad 6 (z == 7 || (!load && (z == 1 || z == 3)))
    ++ bad 6 (fe && z != 4 && z != 5 && z != 6)
    ++ bad 7 (q == 0 && z == 6 && d.toNat % 2 == 1)

/-- A shift immediate keeps to the count bits of the unit's natural width (R66). -/
def shiftImm (u : UnitKind) (i : BitVec 16) : List Nat := bad 5 (if u == .C then i ≥ 32 else i ≥ 64)

/-- A conversion type code that names no type (R77). -/
def typeFault (c : BitVec 4) : List Nat := bad 6 (c ≥ 14)

/-- A 3-bit rounding code that names no rounding (R64). -/
def roundFault (r : BitVec 3) : List Nat := bad 6 (r ≥ 5)

/-- The rules on the operand values of one row that its shape alone does not give. -/
def ownFaults (u : UnitKind) (m : Mode) : Instr → List Nat
  | .mov16 d b => noReg u d ++ bad 2 (d == 0 && b == 0)
  | .add16 d _ => noReg u d
  | .sub16 d _ => noReg u d
  | .mul16 d _ => noReg u d
  | .and16 d _ => noReg u d
  | .or16 d _ => noReg u d
  | .xor16 d _ => noReg u d
  | .shl16 d _ => noReg u d
  | .shr16 d _ => noReg u d
  | .sar16 d _ => noReg u d
  | .min16 d _ => noReg u d
  | .max16 d _ => noReg u d
  | .fadd16 d _ => noReg u d
  | .fsub16 d _ => noReg u d
  | .fmul16 d _ => noReg u d
  | .fmax16 d _ => noReg u d
  | .icmp _ _ _ _ c _ _ => bad 6 (c ≥ 6)
  | .fsqrt _ _ r _ _ _ => roundFault r
  | .tspk t _ r i _ _ _ => bad 6 (t == 3) ++ roundFault r ++ bad 6 (i ≥ 3)
  | .tsupk t _ _ _ _ _ => bad 6 (t == 3)
  | .gred _ _ c o _ _ _ => bad 6 (if c == 0 then o ≥ 6 else o ≥ 3)
  | .scanInc _ _ c o _ _ _ => bad 6 (if c == 0 then o ≥ 6 else o ≥ 3)
  | .scanExc _ _ c o _ _ _ => bad 6 (if c == 0 then o ≥ 6 else o ≥ 3)
  | .cvtRne x _ y v _ _ _ => typeFault (x ++ v) ++ typeFault y
  | .cvtRna x _ y v _ _ _ => typeFault (x ++ v) ++ typeFault y
  | .cvtRz x _ y v _ _ _ => typeFault (x ++ v) ++ typeFault y
  | .cvtRup x _ y v _ _ _ => typeFault (x ++ v) ++ typeFault y
  | .cvtRdn x _ y v _ _ _ => typeFault (x ++ v) ++ typeFault y
  | .movImm _ d => noReg u d
  | .addImm _ d => noReg u d
  | .mulImm _ d => noReg u d
  | .andImm _ d => noReg u d
  | .orImm _ d => noReg u d
  | .xorImm _ d => noReg u d
  | .minImm _ d => noReg u d
  | .maxImm _ d => noReg u d
  | .shlImm i d => noReg u d ++ shiftImm u i
  | .shrImm i d => noReg u d ++ shiftImm u i
  | .sarImm i d => noReg u d ++ shiftImm u i
  | .movh _ h d => noReg u d ++ bad 6 (u == .C && h ≥ 2)
  | .ld _ q _ z _ d => memFault true false q z d
  | .ldFe _ q _ z _ d => memFault true true q z d
  | .ldFec _ q _ z _ d => memFault true true q z d
  | .st _ q _ z _ d => memFault false false q z d
  | .stFe _ q _ z _ d => memFault false true q z d
  | .bra _ p => bad 5 (u != .A && p == 1)
  | .brc _ p _ _ => bad 5 (u != .A && p == 1)
  | .call _ p => bad 5 (u != .A && p == 1)
  | .jmpi b a p =>
    match u with
    | .A => bad 5 (p == 0 && b != 0)
    | .C => bad 5 (b != 0 || a != 0 || p != 0)
    | .M => bad 5 (b != 0 || p != 0) ++ noReg u a
  | .qpeek q _ => bad 7 (if u == .C then q ≥ 5 else q ≥ 3)
  | .qcount q _ => bad 7 (if u == .C then q ≥ 5 else q ≥ 3)
  | .qdrain q => bad 6 (u == .C && q == 4) ++ bad 7 (if u == .C then q ≥ 5 else q ≥ 3)
  | .rdsr a d => noReg u d ++ bad 7 (!readable u a)
  | .wrsr b a => noReg u b ++ bad 6 (a < 10 && !writable u m a) ++ bad 7 (a ≥ 10)
  | .fence c => bad 6 (c == 7)
  | .acq a => noReg u a
  | .rel a => noReg u a
  | .tmwait a => noReg u a
  | .phleave a => noReg u a
  | .phsig a => noReg u a
  | .phsigBnd a => noReg u a
  | .copy b a d => noReg u d ++ noReg u a ++ noReg u b
  | .tcopy a d => noReg u d ++ noReg u a
  | .copyt _ _ d => lanePair d
  | .deq _ d => lanePair d
  | .deqt _ _ d => lanePair d
  | .cwait b a => noReg u a ++ noReg u b
  | .phjoin b a => noReg u a ++ noReg u b
  | .phwait b a => noReg u a ++ noReg u b
  | .phsw b a => noReg u a ++ noReg u b
  | .phswBnd b a => noReg u a ++ noReg u b
  | .phany b a => noReg u a ++ noReg u b
  | .phfind a d => noReg u a ++ noReg u d ++ pairFault d
  | .tlbinv _ c => bad 6 (c ≥ 6)
  | .fbread d => bad 7 (d.toNat % 4 != 0 || d ≥ 48)
  | .rld z a d => sizeFault z ++ pairFault a ++ (if z == 2 then pairFault d else [])
  | .rst z b a => sizeFault z ++ pairFault a ++ (if z == 2 then pairFault b else [])
  | .rredAdd _ _ a => pairFault a
  | .rredMin _ _ a => pairFault a
  | .rredMax _ _ a => pairFault a
  | .rredAnd _ _ a => pairFault a
  | .rredOr _ _ a => pairFault a
  | .rredXor _ _ a => pairFault a
  | .mcst z b _ _ => sizeFault z ++ (if z == 2 then pairFault b else [])
  | .mma _ _ _ _ r => noReg .M r
  | .mmaz _ _ _ _ r => noReg .M r
  | .awt r => noReg .M r
  | .gerd _ r => noReg .M r
  | _ => []

/-- Every detail of R79 that applies to an instruction issued by a unit in a mode; the trap records the lowest. -/
def faults (u : UnitKind) (m : Mode) (i : Instr) : List Nat :=
  bad 3 (!i.units.contains u)
    ++ bad 4 (!Mode.permits i.privilege m)
    ++ (match i.laneForm u with
        | some f => laneFaults u f
        | none => [])
    ++ ownFaults u m i

/-- The lowest detail of a list (R79). -/
def lowest : List Nat → Option Nat
  | [] => none
  | x :: xs =>
    match lowest xs with
    | none => some x
    | some y => some (min x y)

end WellFormed

/-- An instruction that a unit in a mode may issue as it stands: no rule of R61 to R79 is broken. -/
def wellFormed (u : UnitKind) (m : Mode) (i : Instr) : Bool := (WellFormed.faults u m i).isEmpty

end Sys2Proof
end

