-- ==== Sys2Proof/Config.lean ====
section
/-! DEFINITION. The free values: what the specification leaves open, as constants without a body. Nothing can be proved of
the value of any of them; a claim about a step holds whatever they are. -/

namespace Sys2Proof

/-- The four approximate lane operations (R28). -/
inductive ApproxOp where
  | rcp
  | rsq
  | exp2
  | log2
deriving DecidableEq, Repr, Inhabited

namespace Config

/-- The result bits an implementation offers for an approximate operation on a format's bits; the machine takes them only
where they lie within the bound of R28 (log entry 7). -/
opaque approx (op : ApproxOp) (t : Ty) (bits : Nat) : Nat

/-- Which event comes next when nothing is on the agenda and no unit is selected (log entry 3). -/
opaque schedule (clock : Nat) : Instr

/-- How far a time base moves in one issue cycle of a core (log entry 4). -/
opaque timeAdvance (clock : Nat) : Nat

/-- Whether a cached line or a translation is still there at a lookup: replacement is the implementation's (log entry 8). -/
opaque cacheKeeps (clock key : Nat) : Bool

/-- A choice among `n` that the specification leaves to the implementation (log entry 4). -/
opaque choice (clock n : Nat) : Nat

/-- How many 16-byte rows of its own contents a section of a context image has, by its kind and unit (R397, log entry 11). -/
opaque sectionRows (kind unit : Nat) : Nat

/-- The bytes of those rows, in the image of a number: the contents of a section are the device's own (R397, log entry 11). -/
opaque sectionByte (image kind unit off : Nat) : Byte

/-- The SM3 digest of some bytes, which R403 names and does not define (log entry 9). -/
opaque sm3 (bytes : List Byte) : BitVec 256

/-- Whether an SM2 signature of some bytes is valid under a public key (R403, log entry 9). -/
opaque sm2Valid (key : BitVec 512) (bytes : List Byte) (sig : BitVec 512) : Bool

/-- A byte of the payload of a flit, by its type and its tag: the spec lays out no payload (R419, log entry 22). -/
opaque flitByte (kind tag off : Nat) : Byte

/-- The package whose fabric die holds a pod weir, by its level and number: the runtime designates it (chapter 16), and the spec gives
no register for that (log entry 31). -/
opaque podHost (level n : Nat) : Nat

/-- The bank and the row that hold a 64-byte line of a stack, which the spec does not say (R378, log entry 34). -/
opaque rowOf (line : Nat) : Nat × Nat

/-- The SM2 signature an identity key gives to some bytes (R404, log entry 9). -/
opaque sm2Sign (key : Nat) (bytes : List Byte) : BitVec 512

end Config
end Sys2Proof
end

