-- ==== Sys2Proof/Machine/Float.lean ====
section
/-! DEFINITION. The number formats of chapter 01: exact values, the five roundings of R19, the arithmetic of R21 to R28 and
the conversions of R25 to R27. Bits are natural numbers below 2 to the width of the format. -/

namespace Sys2Proof.Machine

/-- The roundings of R19. -/
inductive Rnd where
  | rne
  | rna
  | rz
  | rup
  | rdn
deriving DecidableEq, Repr, Inhabited

/-- The 3-bit rounding codes of R64. -/
def Rnd.code (c : Nat) : Rnd :=
  match c with
  | 0 => .rne
  | 1 => .rna
  | 2 => .rz
  | 3 => .rup
  | _ => .rdn

/-- fn class D (R64). -/
def Rnd.directed (r : BitVec 2) : Rnd := Rnd.code (r.toNat + 1)

/-- A floating format: exponent and fraction widths, bias, and whether the all-ones exponent is special (R15 to R17, R42). -/
structure Fmt where
  ew : Nat
  fw : Nat
  bias : Nat
  inf : Bool
deriving DecidableEq, Repr, Inhabited

namespace Fmt
/-- `.f64` (R15). -/
def f64 : Fmt := ⟨11, 52, 1023, true⟩
/-- `.f32` (R15). -/
def f32 : Fmt := ⟨8, 23, 127, true⟩
/-- `.f16` (R15). -/
def f16 : Fmt := ⟨5, 10, 15, true⟩
/-- `.bf16` (R15). -/
def bf16 : Fmt := ⟨8, 7, 127, true⟩
/-- `.e5m2` (R15). -/
def e5m2 : Fmt := ⟨5, 2, 15, true⟩
/-- `.e4m3` (R15, R17). -/
def e4m3 : Fmt := ⟨4, 3, 7, false⟩
/-- W40 (R42). -/
def w40 : Fmt := ⟨10, 29, 511, true⟩
/-- W80 (R42). -/
def w80 : Fmt := ⟨15, 64, 16383, true⟩
/-- The format of a floating type. -/
def ofTy : Ty → Fmt
  | .f64 => f64
  | .f16 => f16
  | .bf16 => bf16
  | .e5m2 => e5m2
  | .e4m3 => e4m3
  | _ => f32
/-- The sign's bit number. -/
def sign (F : Fmt) : Nat := F.ew + F.fw
/-- The all-ones exponent. -/
def emax (F : Fmt) : Nat := 2 ^ F.ew - 1
/-- The bits of the largest finite magnitude (R15). -/
def maxFinite (F : Fmt) : Nat := if F.inf then F.emax * 2 ^ F.fw - 1 else 2 ^ F.sign - 2
/-- The bits of +infinity; `.e4m3` has none, and an infinity converted to it is 448 (R25). -/
def infBits (F : Fmt) : Nat := if F.inf then F.emax * 2 ^ F.fw else F.maxFinite
/-- The canonical quiet NaN (R15). -/
def nan (F : Fmt) : Nat := if F.inf then F.emax * 2 ^ F.fw + 2 ^ (F.fw - 1) else 2 ^ F.sign - 1
/-- The bits of a signed magnitude. -/
def signed (F : Fmt) (neg : Bool) (mag : Nat) : Nat := if neg then mag + 2 ^ F.sign else mag
/-- The magnitude of some bits: all but the sign. -/
def mag (F : Fmt) (b : Nat) : Nat := b % 2 ^ F.sign
/-- The sign bit of some bits. -/
def neg (F : Fmt) (b : Nat) : Bool := b.testBit F.sign
/-- Whether bits are a NaN (R16, R17). -/
def isNaN (F : Fmt) (b : Nat) : Bool :=
  if F.inf then F.mag b > F.emax * 2 ^ F.fw else F.mag b == 2 ^ F.sign - 1
/-- Whether bits are an infinity (R16, R17). -/
def isInf (F : Fmt) (b : Nat) : Bool := F.inf && F.mag b == F.emax * 2 ^ F.fw
end Fmt

/-- An exact value: a NaN, an infinity, or a signed m times 2 to the x; zeros keep their sign. -/
inductive FV where
  | nan
  | inf (neg : Bool)
  | fin (neg : Bool) (m : Nat) (x : Int)
deriving DecidableEq, Repr, Inhabited

/-- The value of some bits of a format (R15 to R18). -/
def Fmt.value (F : Fmt) (b : Nat) : FV :=
  if F.isNaN b then .nan
  else if F.isInf b then .inf (F.neg b)
  else
    let e := F.mag b / 2 ^ F.fw
    let f := F.mag b % 2 ^ F.fw
    if e = 0 then .fin (F.neg b) f (1 - F.bias - F.fw) else .fin (F.neg b) (2 ^ F.fw + f) (e - F.bias - F.fw)

/-- Whether the magnitude of a quotient goes up from its floor, given the remainder (R19). -/
def Rnd.up (r : Rnd) (neg : Bool) (q rem den : Nat) : Bool :=
  match r with
  | .rne => 2 * rem > den || (2 * rem == den && q % 2 == 1)
  | .rna => 2 * rem ≥ den
  | .rz => false
  | .rup => rem != 0 && !neg
  | .rdn => rem != 0 && neg

/-- The magnitude of a quotient rounded to an integer (R19). -/
def Rnd.quot (r : Rnd) (neg : Bool) (num den : Nat) : Nat :=
  let q := num / den
  if r.up neg q (num % den) den then q + 1 else q

/-- What a finite magnitude beyond the format's range becomes (R25); 8-bit formats saturate. -/
def Fmt.overflow (F : Fmt) (r : Rnd) (neg : Bool) : Nat :=
  if F.sign = 7 then F.maxFinite
  else
    match r with
    | .rne => F.infBits
    | .rna => F.infBits
    | .rz => F.maxFinite
    | .rup => if neg then F.maxFinite else F.infBits
    | .rdn => if neg then F.infBits else F.maxFinite

/-- A number times a power of two, as a fraction. -/
def scaled (m : Nat) (x : Int) : Nat × Nat :=
  match x with
  | .ofNat k => (m * 2 ^ k, 1)
  | .negSucc k => (m, 2 ^ (k + 1))

/-- The exponent of a positive quotient `num / den * 2 ^ x`: the largest e with `2 ^ e` at most the quotient. -/
def expOf (num den : Nat) (x : Int) : Int :=
  let e : Int := (num.log2 : Int) - (den.log2 : Int)
  let (n, d) := scaled num (-e)
  if n < d * den then x + e - 1 else x + e

/-- The exact quotient `num / den * 2 ^ x` of a sign, rounded once to a format (R19, R25). -/
def Fmt.round (F : Fmt) (r : Rnd) (neg : Bool) (num den : Nat) (x : Int) : Nat :=
  if num = 0 then F.signed neg 0
  else
    let emin : Int := 1 - F.bias
    let e := max (expOf num den x) emin
    let quantum := e - F.fw
    let (n, d) := scaled num (x - quantum)
    let q := r.quot neg n (d * den)
    let mag := q + (e - emin).toNat * 2 ^ F.fw
    if mag > F.maxFinite then F.signed neg (F.overflow r neg) else F.signed neg mag

/-- A value converted to a format (R25). -/
def Fmt.ofValue (F : Fmt) (r : Rnd) : FV → Nat
  | .nan => F.nan
  | .inf neg => F.signed neg F.infBits
  | .fin neg m x => F.round r neg m 1 x

namespace FV
/-- A value with its sign inverted. -/
def negate : FV → FV
  | .nan => .nan
  | .inf n => .inf (!n)
  | .fin n m x => .fin (!n) m x
/-- The exact sum (R23): the sign of an exact zero of opposite operands is + but under `.rdn`. -/
def add (r : Rnd) : FV → FV → FV
  | .nan, _ => .nan
  | _, .nan => .nan
  | .inf a, .inf b => if a = b then .inf a else .nan
  | .inf a, .fin _ _ _ => .inf a
  | .fin _ _ _, .inf b => .inf b
  | .fin na ma xa, .fin nb mb xb =>
    let x := min xa xb
    let a := ma * 2 ^ (xa - x).toNat
    let b := mb * 2 ^ (xb - x).toNat
    if na = nb then .fin na (a + b) x
    else if a > b then .fin na (a - b) x
    else if b > a then .fin nb (b - a) x
    else .fin (r == .rdn) 0 x
/-- The exact product; zero times infinity is a NaN. -/
def mul : FV → FV → FV
  | .nan, _ => .nan
  | _, .nan => .nan
  | .inf a, .inf b => .inf (a != b)
  | .inf a, .fin b m _ => if m = 0 then .nan else .inf (a != b)
  | .fin a m _, .inf b => if m = 0 then .nan else .inf (a != b)
  | .fin na ma xa, .fin nb mb xb => .fin (na != nb) (ma * mb) (xa + xb)
end FV

/-- `fadd` (R147). -/
def Fmt.add (F : Fmt) (r : Rnd) (a b : Nat) : Nat := F.ofValue r ((F.value a).add r (F.value b))
/-- `fsub` (R147): the sum with b's sign inverted. -/
def Fmt.sub (F : Fmt) (r : Rnd) (a b : Nat) : Nat := F.ofValue r ((F.value a).add r (F.value b).negate)
/-- `fmul` (R147). -/
def Fmt.mul (F : Fmt) (r : Rnd) (a b : Nat) : Nat := F.ofValue r ((F.value a).mul (F.value b))
/-- `fma` (R147): a times b plus c, rounded once. -/
def Fmt.fma (F : Fmt) (r : Rnd) (a b c : Nat) : Nat :=
  F.ofValue r (((F.value a).mul (F.value b)).add r (F.value c))
/-- `fdiv` (R147). -/
def Fmt.div (F : Fmt) (r : Rnd) (a b : Nat) : Nat :=
  match F.value a, F.value b with
  | .nan, _ => F.nan
  | _, .nan => F.nan
  | .inf _, .inf _ => F.nan
  | .inf p, .fin n _ _ => F.signed (p != n) F.infBits
  | .fin n _ _, .inf p => F.signed (p != n) 0
  | .fin na ma xa, .fin nb mb xb =>
    if mb = 0 then (if ma = 0 then F.nan else F.signed (na != nb) F.infBits)
    else F.round r (na != nb) ma mb (xa - xb)

/-- The bits of a square root, from the top: k bits are still to be tried above `r`. -/
def isqrtFrom (n : Nat) : Nat → Nat → Nat
  | 0, r => r
  | k + 1, r =>
    let t := r + 2 ^ k
    isqrtFrom n k (if t * t ≤ n then t else r)

/-- The integer square root. -/
def isqrt (n : Nat) : Nat := isqrtFrom n (n.log2 / 2 + 1) 0

/-- A positive square root as m times 2 to the x, exact but for a last bit that stands for any remainder. -/
def sqrtParts (F : Fmt) (m : Nat) (x : Int) : Nat × Int :=
  let grow := 2 * (F.fw + 4)
  let shift := if (x - grow) % 2 = 0 then grow else grow + 1
  let n := m * 2 ^ shift
  let root := isqrt n
  (2 * root + (if root * root = n then 0 else 1), (x - shift) / 2 - 1)

/-- `fsqrt` (R149). -/
def Fmt.sqrt (F : Fmt) (r : Rnd) (a : Nat) : Nat :=
  match F.value a with
  | .nan => F.nan
  | .inf n => if n then F.nan else F.infBits
  | .fin n m x =>
    if m = 0 then F.signed n 0
    else if n then F.nan
    else
      let (s, y) := sqrtParts F m x
      F.round r false s 1 y

/-- The order of R23 on bits that are no NaN: sign and magnitude, with -0 below +0. -/
def Fmt.key (F : Fmt) (b : Nat) : Int := if F.neg b then -(F.mag b : Int) - 1 else F.mag b

/-- IEEE 754-2019 minimum and maximum (R150): a NaN operand gives the canonical NaN. -/
def Fmt.pick (F : Fmt) (larger : Bool) (a b : Nat) : Nat :=
  if F.isNaN a || F.isNaN b then F.nan
  else if (if larger then F.key a ≥ F.key b else F.key a ≤ F.key b) then a else b

/-- IEEE 754-2019 minimumNumber and maximumNumber (R150): a NaN operand yields to a number. -/
def Fmt.pickNumber (F : Fmt) (larger : Bool) (a b : Nat) : Nat :=
  if F.isNaN a then (if F.isNaN b then F.nan else b)
  else if F.isNaN b then a
  else F.pick larger a b

/-- `fcmp` by its condition code (R144). -/
def Fmt.compare (F : Fmt) (cc : Nat) (a b : Nat) : Bool :=
  let un := F.isNaN a || F.isNaN b
  match cc with
  | 0 => !un && F.key a == F.key b
  | 1 => un || F.key a != F.key b
  | 2 => !un && decide (F.key a < F.key b)
  | 3 => !un && decide (F.key a ≤ F.key b)
  | 4 => !un && decide (F.key a > F.key b)
  | 5 => !un && decide (F.key a ≥ F.key b)
  | 6 => un
  | _ => !un

/-! Approximate operations (R28): what an implementation offers is taken where it lies within the bound; elsewhere, and in the
FP16 and BF16 forms, which round the exact result once, the nearest value is. The exact result is known as an integer `v` in units of
`2 ^ (-p)`, true to within `err` units; where it is not exact, `p` is large enough that no rounding of it is in doubt. -/

/-- An integer in units of 2 to the minus p, known to within err of them. -/
structure Near where
  v : Int
  err : Nat
  p : Nat
deriving DecidableEq, Repr

/-- The nearest value of a format. -/
def Fmt.ofNear (F : Fmt) (n : Near) : Nat := F.round .rne (n.v < 0) n.v.natAbs 1 (-(n.p : Int))

/-- The exponent of the ulp at a value, in the format (R28). -/
def Fmt.ulpExp (F : Fmt) (n : Near) : Int :=
  let m := n.v.natAbs - n.err
  max (if m = 0 then (1 : Int) - F.bias else expOf m 1 (-(n.p : Int))) (1 - F.bias) - F.fw

/-- Whether some bits lie within k ulp of a value (R28). The error of the value counts against the bits, so some that R28 permits are
refused where the error is large or the ulp shrinks (log entry 7). -/
def Fmt.within (F : Fmt) (k : Nat) (n : Near) (b : Nat) : Bool :=
  match F.value b with
  | .fin neg m x =>
    let p : Int := max n.p (max (-x) (-(F.ulpExp n)))
    let c : Int := (if neg then -1 else 1) * (m * 2 ^ (x + p).toNat)
    let v := n.v * 2 ^ (p - n.p).toNat
    (c - v).natAbs + n.err * 2 ^ (p - n.p).toNat ≤ k * 2 ^ (F.ulpExp n + p).toNat && decide (b < 2 ^ (F.sign + 1))
  | _ => false

/-- Whether an operation's forms at a type round the exact result once (R28). -/
def roundsOnce (t : Ty) : Bool := t == .f16 || t == .bf16

/-- What an approximate operation gives at a value that is no special one. A result out of range is the infinity. -/
def Fmt.approx (F : Fmt) (op : ApproxOp) (t : Ty) (a k : Nat) (n : Near) : Nat :=
  let best := F.ofNear n
  let offered := Config.approx op t a
  if roundsOnce t || F.isInf best then best else if F.within k n offered then offered else best

/-- `frcp` (R28, R149). -/
def Fmt.rcp (t : Ty) (a : Nat) : Nat :=
  let F := Fmt.ofTy t
  match F.value a with
  | .nan => F.nan
  | .inf n => F.signed n 0
  | .fin n m x =>
    if m = 0 then F.signed n F.infBits
    else
      let p := 2 * F.bias + 2 * F.fw + 8
      let (num, den) := scaled 1 (p - x)
      F.approx .rcp t a 1 ⟨(if n then -1 else 1) * ((num / (den * m) : Nat) : Int), if num % (den * m) = 0 then 0 else 1, p⟩

/-- `frsq` (R28, R149). -/
def Fmt.rsq (t : Ty) (a : Nat) : Nat :=
  let F := Fmt.ofTy t
  match F.value a with
  | .nan => F.nan
  | .inf n => if n then F.nan else 0
  | .fin n m x =>
    if m = 0 then F.signed n F.infBits
    else if n then F.nan
    else
      let p := 2 * F.bias + 2 * F.fw + 8
      let (num, den) := scaled 1 (2 * p - x)
      let root := isqrt (num / (den * m))
      F.approx .rsq t a 1 ⟨root, if root * root * (den * m) = num then 0 else 1, p⟩

/-- The product of the constants `2 ^ (2 ^ (-j))` that the top `k` bits of `f` select, in units of `2 ^ (-p)`; `f` is a
fraction in units of `2 ^ (-p)` and `c` the next constant. -/
def exp2Bits (p f : Nat) : Nat → Nat → Nat → Nat → Nat
  | 0, _, _, acc => acc
  | k + 1, j, c, acc =>
    exp2Bits p f k (j + 1) (isqrt (c * 2 ^ p)) (if f.testBit (p - 1 - j) then acc * c / 2 ^ p else acc)

/-- 2 to a fraction below 1 in units of `2 ^ (-p)`, within `4 * p` units. -/
def exp2Frac (p f : Nat) : Nat := exp2Bits p f p 0 (isqrt (2 * 2 ^ (2 * p))) (2 ^ p)

/-- `fexp2` (R28, R149). Below -32768 the result lies between 0 and the least ulp, and any value there stands for it in every
comparison; near 0 the precision grows so that the result differs from 1 by more than the error. -/
def Fmt.exp2 (t : Ty) (a : Nat) : Nat :=
  let F := Fmt.ofTy t
  match F.value a with
  | .nan => F.nan
  | .inf n => if n then 0 else F.infBits
  | .fin n m x =>
    let (num, den) := scaled m x
    if num ≥ 32768 * den then (if n then F.approx .exp2 t a 2 ⟨1, 0, 32768⟩ else F.infBits)
    else
      let p := 2 * F.fw + 80 + (den.log2 - num.log2)
      let i : Int := (if n then -1 else 1) * ((num / den : Nat) : Int)
      if num % den = 0 then
        if 1 - F.bias - F.fw ≤ i then F.round .rne false 1 1 i else F.approx .exp2 t a 2 ⟨1, 0, i.natAbs⟩
      else
        let f := num % den * 2 ^ p / den
        let (i, f) := if n then (i - 1, 2 ^ p - 1 - f) else (i, f)
        let v := exp2Frac p f
        match i with
        | .ofNat k => F.approx .exp2 t a 2 ⟨v * 2 ^ k, 8 * p * 2 ^ k, p⟩
        | .negSucc k => F.approx .exp2 t a 2 ⟨v, 8 * p, p + (k + 1)⟩

/-- The bits of a logarithm: `y` in units of `2 ^ (-p)` lies in [1, 2); each squaring gives one bit. -/
def log2Bits (p : Nat) : Nat → Nat → Nat → Nat
  | 0, _, acc => acc
  | k + 1, y, acc =>
    let y := y * y / 2 ^ p
    if y ≥ 2 ^ (p + 1) then log2Bits p k (y / 2) (2 * acc + 1) else log2Bits p k y (2 * acc)

/-- `flog2` (R28, R149). -/
def Fmt.log2 (t : Ty) (a : Nat) : Nat :=
  let F := Fmt.ofTy t
  match F.value a with
  | .nan => F.nan
  | .inf n => if n then F.nan else F.infBits
  | .fin n m x =>
    if m = 0 then F.signed true F.infBits
    else if n then F.nan
    else
      let e := expOf m 1 x
      if m = 2 ^ m.log2 then F.round .rne (e < 0) e.natAbs 1 0
      else
        let k := 4 * F.fw + 40
        let p := 2 * k + 16
        let f := log2Bits p k (m * 2 ^ p / 2 ^ m.log2) 0
        F.approx .log2 t a 2 ⟨e * 2 ^ k + f, 2, k⟩

/-! Conversions (R25 to R27). -/

/-- The least and greatest value of an integer type (R24). -/
def intRange (t : Ty) : Int × Int :=
  if t.signed then (-(2 ^ (t.bits - 1) : Nat), (2 ^ (t.bits - 1) : Nat) - 1) else (0, (2 ^ t.bits : Nat) - 1)

/-- The integer that the low bits of a value hold in a type (R24). -/
def intOf (t : Ty) (b : Nat) : Int :=
  let n := b % 2 ^ t.bits
  if t.signed && n.testBit (t.bits - 1) then (n : Int) - (2 ^ t.bits : Nat) else n

/-- The bits of an integer in a type. -/
def bitsOfInt (t : Ty) (v : Int) : Nat := (v % (2 ^ t.bits : Nat)).toNat

/-- Floating to integer (R26). -/
def floatToInt (F : Fmt) (t : Ty) (r : Rnd) (b : Nat) : Int :=
  match F.value b with
  | .nan => 0
  | .inf n => if n then (intRange t).1 else (intRange t).2
  | .fin n m x =>
    let (num, den) := scaled m x
    let q : Int := r.quot n num den
    max (intRange t).1 (min (intRange t).2 (if n then -q else q))

/-- `cvt` on the low bits of a source (R151): the result in the low bits of the destination type. -/
def convert (r : Rnd) (dst src : Ty) (b : Nat) : Nat :=
  let v := b % 2 ^ src.bits
  match src.floating, dst.floating with
  | true, true => (Fmt.ofTy dst).ofValue r ((Fmt.ofTy src).value v)
  | true, false => bitsOfInt dst (floatToInt (Fmt.ofTy src) dst r v)
  | false, true =>
    let i := intOf src v
    (Fmt.ofTy dst).round r (i < 0) i.natAbs 1 0
  | false, false => bitsOfInt dst (intOf src v)

end Sys2Proof.Machine
end

