-- ==== Sys2Proof/Machine/TsBlock.lean ====
section
/-! DEFINITION. TS blocks (R29 to R37): the exact value of an element, the scale word, and the encoding of a block. -/

namespace Sys2Proof.Machine

/-- Magnitude bits k of the kinds TS3, TS5 and TS8 by their code 0, 1, 2 (R77, chapter 01). -/
def tsBits (kind : Nat) : Nat :=
  match kind with
  | 0 => 2
  | 1 => 4
  | _ => 7

/-- The fields of a scale word (R29). -/
structure TsScale where
  mu : BitVec 8
  e : BitVec 8
  f : BitVec 4
deriving DecidableEq, Repr, Inhabited

/-- A scale word decoded: bits [31:20] are ignored (R31). -/
def TsScale.read (w : Word) : TsScale := ⟨w.extractLsb' 12 8, w.extractLsb' 4 8, w.extractLsb' 0 4⟩

/-- A scale word encoded: bits [31:20] are zero (R31). -/
def TsScale.word (s : TsScale) : Word := (0#12) ++ s.mu ++ s.e ++ s.f

/-- The exact value of element i of a block (R30 to R32). -/
def tsValue (k : Nat) (w : Word) (i : Nat) (field : Nat) : FV :=
  let s := TsScale.read w
  if s.e = 0 then .fin false 0 0
  else if s.e = 255 then .nan
  else
    .fin (field.testBit k) (field % 2 ^ k * (16 + s.f.toNat))
      ((1 : Int) - k + s.e.toNat - 131 - (if s.mu.getLsbD (i / 2) then 1 else 0))

/-- The finite magnitude of a value in units of `2 ^ (-tsUnit)`: every finite input format is a multiple of it. -/
def tsUnit : Nat := 1200

/-- The magnitude of a finite value in those units. -/
def tsMag : FV → Nat
  | .fin _ m x => m * 2 ^ (x + tsUnit).toNat
  | _ => 0

/-- The sign bit of a value. -/
def tsNeg : FV → Bool
  | .fin n _ _ => n
  | .inf n => n
  | .nan => false

/-- scale(e, f) in those units (R34). -/
def tsScaleMag (e f : Nat) : Nat := (16 + f) * 2 ^ (e + tsUnit - 131)

/-- Whether scale(e, f) is at least amax over mmax (R34). -/
def tsReaches (k amax e f : Nat) : Bool := amax * 2 ^ (k - 1) ≤ (2 ^ k - 1) * tsScaleMag e f

/-- The pair of R34 with the smallest scale that reaches amax over mmax, or the saturating scale. -/
def tsChoose (k amax : Nat) : Nat × Nat :=
  match ((List.range 254).map (· + 1)).find? (fun e => tsReaches k amax e 15) with
  | none => (254, 15)
  | some e =>
    match (List.range 16).find? (fun f => tsReaches k amax e f) with
    | none => (254, 15)
    | some f => (e, f)

/-- The element field of one input under a scale (R34). -/
def tsElement (k : Nat) (r : Rnd) (e f : Nat) (half : Bool) (x : FV) : Nat :=
  let num := tsMag x * 2 ^ (k - 1) * (if half then 2 else 1)
  let q := min (r.quot (tsNeg x) num (tsScaleMag e f)) (2 ^ k - 1)
  q + (if tsNeg x then 2 ^ k else 0)

/-- One block encoded (R34 to R36): the scale word and its sixteen element fields. -/
def tsEncode (k : Nat) (r : Rnd) (xs : List FV) : Word × List Nat :=
  if xs.any (fun x => match x with | .fin _ _ _ => false | _ => true) then
    ((TsScale.mk 0 255 0).word, xs.map (fun _ => 0))
  else
    let amax := xs.foldl (fun a x => max a (tsMag x)) 0
    if amax = 0 then (0, xs.map (fun _ => 0))
    else
      let (e, f) := tsChoose k amax
      let at' (i : Nat) : Nat := tsMag (xs.getD i (.fin false 0 0))
      let half (j : Nat) : Bool :=
        max (at' (2 * j)) (at' (2 * j + 1)) * 2 * 2 ^ (k - 1) ≤ (2 ^ k - 1) * tsScaleMag e f
      let mu := (List.range 8).foldl (fun m j => if half j then m ||| (1#8 <<< j) else m) 0#8
      ((TsScale.mk mu (BitVec.ofNat 8 e) (BitVec.ofNat 4 f)).word,
        xs.zipIdx.map (fun (x, i) => tsElement k r e f (half (i / 2)) x))

/-- `tssc` (R155): the exponent of a scale word moved by a signed step. -/
def tsStep (w : Word) (step : Int) : Word :=
  let s := TsScale.read w
  if s.e = 0 || s.e = 255 then s.word
  else
    let e2 : Int := s.e.toNat + step
    if e2 < 1 then 0
    else if e2 > 254 then (TsScale.mk s.mu 254 15).word
    else (TsScale.mk s.mu (BitVec.ofNat 8 e2.toNat) s.f).word

end Sys2Proof.Machine
end

