-- ==== Sys2Proof/Machine/Alu.lean ====
section
/-! DEFINITION. What one lane computes (chapter 05): integer, floating and conversion functions on raw bits. A 64-bit
carrier holds the value of any type in its low bits; the bits above a type's width are zero in every result. -/

namespace Sys2Proof.Machine

/-- A binary function at the width of a type (R139): 32 bits or 64. -/
def atWidth2 (t : Ty) (f : (W : Nat) → BitVec W → BitVec W → BitVec W) (a b : DWord) : DWord :=
  if t.wide then f 64 a b else (f 32 (a.truncate 32) (b.truncate 32)).zeroExtend 64

/-- A unary function at the width of a type (R141). -/
def atWidth1 (t : Ty) (f : (W : Nat) → BitVec W → BitVec W) (a : DWord) : DWord :=
  if t.wide then f 64 a else (f 32 (a.truncate 32)).zeroExtend 64

/-- A ternary function at the width of a type. -/
def atWidth3 (t : Ty) (f : (W : Nat) → BitVec W → BitVec W → BitVec W → BitVec W) (a b c : DWord) : DWord :=
  if t.wide then f 64 a b c else (f 32 (a.truncate 32) (b.truncate 32) (c.truncate 32)).zeroExtend 64

/-! R139. -/

/-- `add`. -/
def aluAdd (t : Ty) : DWord → DWord → DWord := atWidth2 t fun _ a b => a + b
/-- `sub`. -/
def aluSub (t : Ty) : DWord → DWord → DWord := atWidth2 t fun _ a b => a - b
/-- `mul`. -/
def aluMul (t : Ty) : DWord → DWord → DWord := atWidth2 t fun _ a b => a * b
/-- `mulh`. -/
def aluMulh (t : Ty) : DWord → DWord → DWord := atWidth2 t fun W a b =>
  if t.signed then (a.signExtend (2 * W) * b.signExtend (2 * W)).extractLsb' W W
  else (a.zeroExtend (2 * W) * b.zeroExtend (2 * W)).extractLsb' W W
/-- `mad`. -/
def aluMad (t : Ty) : DWord → DWord → DWord → DWord := atWidth3 t fun _ a b d => a * b + d
/-- `div` (R140). -/
def aluDiv (t : Ty) : DWord → DWord → DWord := atWidth2 t fun _ a b =>
  if b = 0 then BitVec.allOnes _ else if t.signed then a.sdiv b else a.udiv b
/-- `rem` (R140). -/
def aluRem (t : Ty) : DWord → DWord → DWord := atWidth2 t fun _ a b =>
  if b = 0 then a else if t.signed then a.srem b else a.umod b
/-- `min`. -/
def aluMin (t : Ty) : DWord → DWord → DWord := atWidth2 t fun _ a b =>
  if (if t.signed then a.sle b else a.ule b) then a else b
/-- `max`. -/
def aluMax (t : Ty) : DWord → DWord → DWord := atWidth2 t fun _ a b =>
  if (if t.signed then b.sle a else b.ule a) then a else b
/-- `and`. -/
def aluAnd (t : Ty) : DWord → DWord → DWord := atWidth2 t fun _ a b => a &&& b
/-- `or`. -/
def aluOr (t : Ty) : DWord → DWord → DWord := atWidth2 t fun _ a b => a ||| b
/-- `xor`. -/
def aluXor (t : Ty) : DWord → DWord → DWord := atWidth2 t fun _ a b => a ^^^ b
/-- `shl`: the count is b mod the width. -/
def aluShl (t : Ty) : DWord → DWord → DWord := atWidth2 t fun W a b => a <<< (b.toNat % W)
/-- `shr`. -/
def aluShr (t : Ty) : DWord → DWord → DWord := atWidth2 t fun W a b => a >>> (b.toNat % W)
/-- `sar`. -/
def aluSar (t : Ty) : DWord → DWord → DWord := atWidth2 t fun W a b => a.sshiftRight (b.toNat % W)
/-- `rol`. -/
def aluRol (t : Ty) : DWord → DWord → DWord := atWidth2 t fun W a b =>
  (a <<< (b.toNat % W)) ||| (a >>> (W - b.toNat % W))
/-- `ror`. -/
def aluRor (t : Ty) : DWord → DWord → DWord := atWidth2 t fun W a b =>
  (a >>> (b.toNat % W)) ||| (a <<< (W - b.toNat % W))

/-! R141. -/

/-- `abs`. -/
def aluAbs (t : Ty) : DWord → DWord := atWidth1 t fun _ a => if a.msb then -a else a
/-- `neg`. -/
def aluNeg (t : Ty) : DWord → DWord := atWidth1 t fun _ a => -a
/-- `not`. -/
def aluNot (t : Ty) : DWord → DWord := atWidth1 t fun _ a => ~~~a
/-- `clz`. -/
def aluClz (t : Ty) : DWord → DWord := atWidth1 t fun W a =>
  BitVec.ofNat W (if a = 0 then W else W - 1 - a.toNat.log2)
/-- The number of set bits below n. -/
def countBits (a : Nat) : Nat → Nat
  | 0 => 0
  | n + 1 => countBits a n + (if a.testBit n then 1 else 0)
/-- `popc`. -/
def aluPopc (t : Ty) : DWord → DWord := atWidth1 t fun W a => BitVec.ofNat W (countBits a.toNat W)
/-- The low n bits in reversed order. -/
def reverseBits (a : Nat) : Nat → Nat
  | 0 => 0
  | n + 1 => reverseBits (a / 2) n + (if a.testBit 0 then 2 ^ n else 0)
/-- `brev`. -/
def aluBrev (t : Ty) : DWord → DWord := atWidth1 t fun W a => BitVec.ofNat W (reverseBits a.toNat W)

/-! R142, R143. -/

/-- `bfx`: position b[5:0], length b[13:8]. -/
def aluBfx (t : Ty) : DWord → DWord → DWord := atWidth2 t fun W a b =>
  let pos := b.toNat % 64
  let len := b.toNat / 256 % 64
  if pos ≥ W || len = 0 then 0
  else
    let len := min len (W - pos)
    let f := a <<< (W - pos - len)
    if t.signed then f.sshiftRight (W - len) else f >>> (W - len)
/-- `bfi`: a's low bits go into d at the position. -/
def aluBfi (t : Ty) : DWord → DWord → DWord → DWord := atWidth3 t fun W a b d =>
  let pos := b.toNat % 64
  let len := b.toNat / 256 % 64
  if pos ≥ W || len = 0 then d
  else
    let len := min len (W - pos)
    let m := BitVec.ofNat W ((2 ^ len - 1) * 2 ^ pos)
    (d &&& ~~~m) ||| ((a <<< pos) &&& m)
/-- `lea`: a plus b shifted left by n (R143). -/
def aluLea (n : Nat) (a b : DWord) : DWord := a + (b <<< n)

/-- `icmp` by its condition code (R144). -/
def aluIcmp (t : Ty) (cc : Nat) (a b : DWord) : Bool :=
  let x := intOf t a.toNat
  let y := intOf t b.toNat
  match cc with
  | 0 => x == y
  | 1 => x != y
  | 2 => decide (x < y)
  | 3 => decide (x ≤ y)
  | 4 => decide (x > y)
  | _ => decide (x ≥ y)

/-! Floating point (R147 to R150) and conversion (R151). -/

/-- The low bits of a carrier that a type uses. -/
def lowBits (t : Ty) (a : DWord) : Nat := a.toNat % 2 ^ t.bits
/-- A binary floating function on carriers. -/
def float2 (t : Ty) (f : Fmt → Nat → Nat → Nat) (a b : DWord) : DWord :=
  BitVec.ofNat 64 (f (Fmt.ofTy t) (lowBits t a) (lowBits t b))
/-- A unary floating function on carriers. -/
def float1 (t : Ty) (f : Nat → Nat) (a : DWord) : DWord := BitVec.ofNat 64 (f (lowBits t a))

/-- `fadd`. -/
def aluFadd (t : Ty) (r : Rnd) : DWord → DWord → DWord := float2 t fun F => F.add r
/-- `fsub`. -/
def aluFsub (t : Ty) (r : Rnd) : DWord → DWord → DWord := float2 t fun F => F.sub r
/-- `fmul`. -/
def aluFmul (t : Ty) (r : Rnd) : DWord → DWord → DWord := float2 t fun F => F.mul r
/-- `fma`. -/
def aluFma (t : Ty) (r : Rnd) (a b d : DWord) : DWord :=
  BitVec.ofNat 64 ((Fmt.ofTy t).fma r (lowBits t a) (lowBits t b) (lowBits t d))
/-- `fdiv`. -/
def aluFdiv (t : Ty) : DWord → DWord → DWord := float2 t fun F => F.div .rne
/-- `fmin`. -/
def aluFmin (t : Ty) : DWord → DWord → DWord := float2 t fun F => F.pick false
/-- `fmax`. -/
def aluFmax (t : Ty) : DWord → DWord → DWord := float2 t fun F => F.pick true
/-- `fminn`. -/
def aluFminn (t : Ty) : DWord → DWord → DWord := float2 t fun F => F.pickNumber false
/-- `fmaxn`. -/
def aluFmaxn (t : Ty) : DWord → DWord → DWord := float2 t fun F => F.pickNumber true
/-- `fsqrt`. -/
def aluFsqrt (t : Ty) (r : Rnd) : DWord → DWord := float1 t fun a => (Fmt.ofTy t).sqrt r a
/-- `frcp`. -/
def aluFrcp (t : Ty) : DWord → DWord := float1 t (Fmt.rcp t)
/-- `frsq`. -/
def aluFrsq (t : Ty) : DWord → DWord := float1 t (Fmt.rsq t)
/-- `fexp2`. -/
def aluFexp2 (t : Ty) : DWord → DWord := float1 t (Fmt.exp2 t)
/-- `flog2`. -/
def aluFlog2 (t : Ty) : DWord → DWord := float1 t (Fmt.log2 t)
/-- `fabs`: the sign bit cleared (R21). -/
def aluFabs (t : Ty) : DWord → DWord := float1 t fun a => (Fmt.ofTy t).mag a
/-- `fneg`: the sign bit inverted (R21). -/
def aluFneg (t : Ty) : DWord → DWord := float1 t fun a => (Fmt.ofTy t).signed (!(Fmt.ofTy t).neg a) ((Fmt.ofTy t).mag a)
/-- `fcmp`. -/
def aluFcmp (t : Ty) (cc : Nat) (a b : DWord) : Bool := (Fmt.ofTy t).compare cc (lowBits t a) (lowBits t b)
/-- `cvt`. -/
def aluCvt (r : Rnd) (dst src : Ty) (a : DWord) : DWord := BitVec.ofNat 64 (convert r dst src a.toNat)

/-- The operations of `gred` and `scan` by c and o (R77, R157). -/
def aluReduce (t : Ty) (o : Nat) : DWord → DWord → DWord :=
  if t.floating then
    match o with
    | 0 => aluFadd t .rne
    | 1 => aluFmin t
    | _ => aluFmax t
  else
    match o with
    | 0 => aluAdd t
    | 1 => aluMin t
    | 2 => aluMax t
    | 3 => aluAnd t
    | 4 => aluOr t
    | _ => aluXor t

/-- The identities of `scan.exc` (R157). -/
def aluIdentity (t : Ty) (o : Nat) : DWord :=
  BitVec.ofNat 64 (if t.floating then
    match o with
    | 0 => (Fmt.ofTy t).signed true 0
    | 1 => (Fmt.ofTy t).infBits
    | _ => (Fmt.ofTy t).signed true (Fmt.ofTy t).infBits
  else
    match o with
    | 1 => bitsOfInt t (intRange t).2
    | 2 => bitsOfInt t (intRange t).1
    | 3 => 2 ^ t.bits - 1
    | _ => 0)

/-- A result as a unit's register holds it (R55, R152): extended by its type above its width, up to 64 bits in A and M. In
C the bits above 32 are the high word of a pair and stay as they are for narrower types. -/
def extendResult (u : UnitKind) (t : Ty) (v : DWord) : DWord :=
  let v := v &&& BitVec.ofNat 64 (2 ^ t.bits - 1)
  if t.signed && v.getLsbD (t.bits - 1) then
    let w := v ||| BitVec.ofNat 64 (2 ^ 64 - 2 ^ t.bits)
    if u = .C && t.bits < 64 then w &&& 0xFFFFFFFF else w
  else v

end Sys2Proof.Machine
end

