-- ==== Sys2Proof/Machine/Table.lean ====
section
/-! DEFINITION. Association tables: how State holds anything that is numbered. A key that is not listed reads as the default
its reader names, so that a table at reset is empty. -/

namespace Sys2Proof.Machine

/-- A finite map; the first entry of a key counts. -/
abbrev Table (K V : Type) : Type := List (K × V)

/-- The value of a key, or a default. -/
def tget {K V : Type} [DecidableEq K] (k : K) (dflt : V) : Table K V → V
  | [] => dflt
  | (j, v) :: t => if j = k then v else tget k dflt t

/-- A table with one key set. -/
def tset {K V : Type} [DecidableEq K] (k : K) (v : V) : Table K V → Table K V
  | [] => [(k, v)]
  | (j, w) :: t => if j = k then (k, v) :: t else (j, w) :: tset k v t

/-- A table with one key removed. -/
def tdel {K V : Type} [DecidableEq K] (k : K) (t : Table K V) : Table K V := t.filter (fun p => p.1 ≠ k)

/-- The value of a key where one is listed. -/
def tfind {K V : Type} [DecidableEq K] (k : K) : Table K V → Option V
  | [] => none
  | (j, v) :: t => if j = k then some v else tfind k t

/-- The element of a list at an index changed by a function. -/
def lmod {α : Type} (f : α → α) : Nat → List α → List α
  | _, [] => []
  | 0, x :: xs => f x :: xs
  | n + 1, x :: xs => x :: lmod f n xs

/-- An element put into a list before the first one that it precedes. -/
def insertBy {α : Type} (before : α → α → Bool) (x : α) : List α → List α
  | [] => [x]
  | y :: ys => if before x y then x :: y :: ys else y :: insertBy before x ys

/-- A list put in order; elements of which neither precedes the other keep their order. -/
def sortBy {α : Type} (before : α → α → Bool) : List α → List α
  | [] => []
  | x :: xs => insertBy (fun a b => !before b a) x (sortBy before xs)

/-- The lanes of a gang, in ascending order (R96). -/
def laneIdx : List Nat := List.range 32

/-- The lowest lane of a mask, if it has one. -/
def lowestLane (m : Word) : Option Nat := laneIdx.find? (fun n => m.getLsbD n)

/-- The lanes of a mask, in ascending order. -/
def lanesOf (m : Word) : List Nat := laneIdx.filter (fun n => m.getLsbD n)

/-- The mask of the lanes that a test accepts. -/
def maskOf (f : Nat → Bool) : Word := BitVec.ofNat 32 ((lanesOf (BitVec.allOnes 32)).foldl (fun m n => if f n then m + 2 ^ n else m) 0)

/-- How many lanes a mask has. -/
def laneCount (m : Word) : Nat := (lanesOf m).length

end Sys2Proof.Machine
end

