-- ==== Sys2Proof/Machine/State.lean ====
section
/-! DEFINITION. The state of a pod of EZ940-P packages: all that the specification gives the machine, as plain data. A
package, die, cluster, core, gang slot or register that no table lists is at its reset value. -/

namespace Sys2Proof.Machine

/-! ## The gang (R96) -/

/-- One lane of an a-slice or s register, or a controller register: its bits and its poison mark (R197, R255). -/
structure Val where
  bits : DWord := 0
  poison : Bool := false
deriving DecidableEq, Repr, Inhabited

/-- One lane of a c-slice register or of a queue entry. -/
structure Val32 where
  bits : Word := 0
  poison : Bool := false
deriving DecidableEq, Repr, Inhabited

/-- A queue entry: 32 bits per lane and a valid mask (R100). -/
structure QEntry where
  words : List Val32
  valid : Word
deriving DecidableEq, Repr, Inhabited

/-- A `dq` record (R103). -/
structure DRec where
  kind : Nat
  payload : DWord
deriving DecidableEq, Repr, Inhabited

/-- The states of a fragment entry (R108). -/
inductive FragState where
  | free
  | running
  | ready
  | waiting
  | parked
deriving DecidableEq, Repr, Inhabited

/-- The a-slice side of a fragment table entry (R108). -/
structure Frag where
  state : FragState := .free
  mask : Word := 0
  aexm : Word := 0
  apc : VAddr := 0
  join : Nat := 15
  woken : Bool := false
  age : Nat := 0
  /-- The join whose release the fragment's next selection pushes (R113), and whether it took a free entry (R478). -/
  rel : Option Nat := none
  fresh : Bool := false
deriving DecidableEq, Repr, Inhabited

/-- The c-slice side of a fragment table entry: what `dq` has told the c-slice so far (R108, R167; log entry 10). -/
structure CFrag where
  live : Bool := false
  mask : Word := 0
  cexm : Word := 0
  cpc : VAddr := 0
deriving DecidableEq, Repr, Inhabited

/-- The a-slice side of a join record (R109). -/
structure Join where
  pending : Word := 0
  arrived : Word := 0
  outer : Nat := 15
  defer : Bool := false
  dmask : Word := 0
  dapc : VAddr := 0
  aArr : Word := 0
  /-- The address after the `rejoin` that the arrivals took (R112). -/
  rpc : VAddr := 0
deriving DecidableEq, Repr, Inhabited

/-- The c-slice side of a join record (R109, R167; log entry 10). One that is still to be released stands beside a later use of its
number, and the lanes that it awaits tell the two apart. -/
structure CJoin where
  num : Nat := 0
  lanes : Word := 0
  dmask : Word := 0
  dcpc : VAddr := 0
  cArr : Word := 0
  rpc : VAddr := 0
deriving DecidableEq, Repr, Inhabited

/-- Region entry state (R129). -/
structure Region where
  apc : VAddr
  cpc : VAddr
  entry : Nat
  mask : Word
  join : Nat
  aexm : Word
  cexm : Word
  joins : Table Nat Join
  cjoins : List CJoin
  restarts : Nat
deriving DecidableEq, Repr, Inhabited

/-- A trap that a unit has raised and that awaits delivery (R121). -/
structure Raised where
  cause : Nat
  detail : Nat
  info : DWord
  lanes : Word
  skip : Bool
  /-- Length of the trapping instruction in bytes, for skip (R125). -/
  len : Nat := 4
deriving DecidableEq, Repr, Inhabited

/-- A trap record (R123), and the controller's of the same fields (R293). -/
structure TrapRec where
  skip : Bool := false
  kill : Word := 0
  info : DWord := 0
  cpc : DWord := 0
  apc : DWord := 0
  lanes : Word := 0
  frag : Nat := 0
  region : Bool := false
  chk : Bool := false
  bound : Bool := false
  slice : Bool := false
  detail : Nat := 0
  cause : Nat := 0
  /-- Length of the trapping instruction in bytes, for skip (R125). -/
  len : Nat := 4
deriving DecidableEq, Repr, Inhabited

/-- A first-touch record (R205). -/
structure FirstTouch where
  addr : DWord := 0
  lanes : Word := 0
  kind : Nat := 0
deriving DecidableEq, Repr, Inhabited

/-- The address spaces (R220). -/
inductive Space where
  | g
  | c
  | cl
  | d
deriving DecidableEq, Repr, Inhabited

/-- What an access does at the place it is performed (R252, R253, R260 to R262). -/
inductive AccessKind where
  | load
  | loadFe
  | loadFec
  | store
  | storeFe
  | atomic
deriving DecidableEq, Repr, Inhabited

/-- Where the data of a load, or the old value of an atomic, goes (R252, R259). -/
inductive Dest where
  | none
  | reg (code : Nat)
  | queue (n : Nat)
deriving DecidableEq, Repr, Inhabited

/-- One lane of an access: its effective address, the key of its place once translated, its data, and for `cas` the compare
value (R247, R259). -/
structure LaneAccess where
  lane : Nat
  ea : Nat
  pa : Option Nat
  data : Nat
  cmp : Nat
deriving DecidableEq, Repr, Inhabited

/-- A lane's loaded value, or the old value of an atomic, with its poison mark. -/
structure LaneVal where
  lane : Nat
  val : Nat
  poison : Bool
deriving DecidableEq, Repr, Inhabited

/-- A memory instruction on its way: its lanes in ascending order that are not yet performed, and what it is (R217). -/
structure Access where
  id : Nat
  gang : GangId
  ctx : Nat
  /-- Issued in supervisor or firmware mode: its destination is read from that bank (R202). -/
  sup : Bool
  kind : AccessKind
  space : Space
  /-- Bytes accessed by each lane. -/
  size : Nat
  /-- Size code of R68 for a load, or the operation of R69 for an atomic. -/
  op : Nat
  /-- The type of an atomic (R69). -/
  ty : Ty
  dest : Dest
  /-- Lanes active at issue: the valid mask of a pushed entry (R101). -/
  active : Word
  lanes : List LaneAccess
  /-- Values kept until every lane has its value (R256). -/
  got : List LaneVal
  /-- The queue that a held store waits on (R106). -/
  waitsOn : Option Nat
  /-- How many `gsync`s of its gang came before it (R178). -/
  era : Nat := 0
deriving DecidableEq, Repr, Inhabited

/-- The instruction in the replay buffer: its access, its address and its length (R256). -/
structure Held where
  access : Access
  pc : VAddr
  len : Nat
  /-- The translation alone is waited for, and the instruction then issues again: it is no load, store or atomic. -/
  redo : Bool
deriving DecidableEq, Repr, Inhabited

/-- A phaser registration of an agent (R447, R461). -/
structure PhReg where
  phaser : Nat
  /-- 0 signaller, 1 waiter, 2 both, 3 proxy (R462). -/
  role : Nat
  next : Word
  /-- The completion object of a proxy, and its completions beyond one phase of run-ahead (R462). -/
  proxy : DWord
  backlog : Nat
deriving DecidableEq, Repr, Inhabited

/-- A signal held at the agent's port or at its die weir, with its finder value, and whether it is a proxy's (R437, R456). -/
structure HeldSignal where
  phaser : Nat
  phase : Word
  bound : Bool
  finder : Option DWord
  port : Bool
  proxy : DWord
deriving DecidableEq, Repr, Inhabited

/-- A fragment's monitor: the lines it watches and whether a write has triggered it (R267). -/
structure Monitor where
  lines : List Nat
  vlines : List Nat
  hit : Bool
deriving DecidableEq, Repr, Inhabited

/-- An instruction that has issued and waits without an issue slot (R265, R364, R366, R367, R409, R465, R313, R460). -/
inductive Wait where
  | acq (pa va : Nat) (handle : DWord)
  | cwait (pa : Nat) (handle : DWord) (target : Nat)
  | enq (queue : Nat) (items : List (Nat × Nat × Bool))
  | deq (queue : Nat) (lanes : Word) (d : Nat) (deadline : Option Nat)
  | tmwait (time : Nat)
  | phwait (phaser : Nat) (phase : Word) (sent : Bool)
  | awt (value : Nat)
  | mcwait (group : Nat) (seq : Nat)
  | join (phaser : Nat) (upto : Option Word)
  | leave (phaser : Nat)
  /-- A `cwait` whose object has met its target, or failed, after a write performed at its home (R364). -/
  | counted
deriving DecidableEq, Repr, Inhabited

/-- What supervisor entry is in progress (R180). -/
inductive Entry where
  | none
  | trap
  | firstTouch
deriving DecidableEq, Repr, Inhabited

/-- A waiting `gsync` of a slice (R176, R177): its mask, its values per active lane already checked, and for the a-slice
the live lanes and fragment mask it was checked against. -/
structure Gsync where
  mask : Word
  live : Word
  frag : Word
  active : Word
deriving DecidableEq, Repr, Inhabited

/-- A gang slot (R96). The defaults are the state of R97 but for the program counters. -/
structure Gang where
  inUse : Bool := false
  /-- The launch and the placement entry that the gang belongs to (R388), and its context. -/
  launch : Nat := 0
  crew : Nat := 0
  ctx : Nat := 0
  a : Table Nat (List Val) := []
  s : Table Nat Val := []
  ka : Table Nat Word := []
  v : Table Nat (List Val32) := []
  kc : Table Nat Word := []
  exmA : Word := 0xFFFFFFFF
  exmC : Word := 0xFFFFFFFF
  slip : Nat := 32
  apc : VAddr := 0
  cpc : VAddr := 0
  lq : Table Nat (List QEntry) := []
  sq : Table Nat (List QEntry) := []
  fq : List QEntry := []
  dq : List DRec := []
  /-- Records an event has still to push when there is room (R105, R113). -/
  dqNext : List DRec := []
  frags : Table Nat Frag := [(0, { state := .running, mask := 0xFFFFFFFF })]
  joins : Table Nat Join := []
  cfrags : Table Nat CFrag := [(0, { live := true, mask := 0xFFFFFFFF })]
  /-- Newest first. -/
  cjoins : List CJoin := []
  /-- Completed joins whose merged fragment still waits for an entry (R478). -/
  orphans : List Nat := []
  /-- The running fragment of each slice. -/
  cur : Option Nat := some 0
  ccur : Nat := 0
  /-- Lanes that have not ended (R115), and those that were killed (R116). -/
  live : Word := 0xFFFFFFFF
  dead : Word := 0
  /-- The order in which fragments became ready (R108). -/
  ages : Nat := 0
  /-- a-slice instructions issued since the fragment began running (R113). -/
  ran : Nat := 0
  /-- The end record has been pushed; the c-slice has popped it (R132). -/
  aEnd : Bool := false
  cEnd : Bool := false
  region : Option Region := none
  pending : DWord := 0
  record : TrapRec := {}
  dloss : Word := 0
  fqstall : Word := 0
  slipstall : Word := 0
  sqwait : Word := 0
  cstall : Word := 0
  /-- The a-slice instruction that waits has been counted in dloss (R107). -/
  lossSeen : Bool := false
  checked : Bool := false
  chkLock : Bool := false
  mode : Mode := .user
  sa : Table Nat (List Val) := []
  ss : Table Nat Val := []
  sk : Table Nat Word := []
  hold : List Access := []
  replay : Option Held := none
  /-- An access of the gang's own handler that misses, while `replay` keeps the access it was entered for (R205, R349). -/
  sreplay : Option Held := none
  ft : FirstTouch := {}
  regs : List PhReg := []
  heldSignals : List HeldSignal := []
  monitors : Table Nat Monitor := []
  waitA : Nat := 0
  waitC : Nat := 0
  entry : Entry := .none
  trapA : Option Raised := none
  trapC : Option Raised := none
  stopA : Bool := false
  stopC : Bool := false
  /-- The other slice stopped by the bound of R121, and what it has issued since the trap. -/
  bound : Bool := false
  since : Nat := 0
  /-- How many `gsync`s the a-slice has retired: each is a fence between the accesses before it and after it (R178). -/
  era : Nat := 0
  gsA : Option Gsync := none
  gsC : Option Gsync := none
  /-- The a-slice waits for its region record to be popped (R129). -/
  regionWait : Bool := false
  wait : Option Wait := none
  /-- Cycles for which each slice has been stalled on the other (R127). -/
  lockedA : Nat := 0
  lockedC : Nat := 0
  /-- The launch has not reached its start time: nothing issues (R390). -/
  holdStart : Bool := false
  /-- A pre-emption has stopped the gang's issue (R212). -/
  preempted : Bool := false
deriving DecidableEq, Repr, Inhabited

/-! ## The core (chapter 07) -/

/-- A 16-byte sector of an L1 data line (R198): its context, its virtual address and its physical key, both over 16, its
bytes and its poison mark. -/
structure L1Line where
  ctx : Nat
  vsec : Nat
  psec : Nat
  bytes : List Byte
  mark : Bool
  /-- The page that the line was filled through, as the base-two logarithm of its size (R299). -/
  lg : Nat := 13
deriving DecidableEq, Repr, Inhabited

/-- An L1 instruction line (R200). -/
structure L1ILine where
  ctx : Nat
  vline : Nat
  bytes : List Byte
  /-- The poison marks of its four sectors (R327). -/
  marks : List Bool := []
deriving DecidableEq, Repr, Inhabited

/-- A scratchpad or cluster memory allocation of a crew or group: who has it, its base and its size (R187, R273, R329). -/
structure Alloc where
  launch : Nat
  crew : Nat
  base : Nat
  size : Nat
deriving DecidableEq, Repr, Inhabited

/-- A core (R186): its vector table, status block, caches and scratchpad allocations. -/
structure Core where
  vectors : Table Nat DWord := []
  corr : Word := 0
  poison : Word := 0
  mism : Word := 0
  full : Bool := false
  flagged : Bool := false
  /-- The core has been retired (R413). -/
  retired : Bool := false
  /-- The core belongs to the collective partition (R190). -/
  collective : Bool := false
  l1d : List L1Line := []
  l1i : List L1ILine := []
  allocs : List Alloc := []
deriving DecidableEq, Repr, Inhabited

/-! ## The cluster (chapter 10) -/

/-- A tile descriptor with its effective base (R283). -/
structure Tile where
  base : Nat := 0
  stride : Nat := 0
  rows : Nat := 0
  cols : Nat := 0
  sp : Bool := false
deriving DecidableEq, Repr, Inhabited

/-- A format block (R284). -/
structure Block where
  rnd : Nat := 0
  bscale : Nat := 0
  ascale : Nat := 0
  bsp : Bool := false
  bblen : Nat := 0
  ablen : Nat := 0
  bfmt : Nat := 0
  afmt : Nat := 0
deriving DecidableEq, Repr, Inhabited

/-- What a queued anvil instruction does (R73). -/
inductive AnvilOp where
  | mma (zero : Bool)
  | azero
  | acvt
  | pmapply (j : Nat) (columns : Bool)
  | lup (j : Nat) (wide : Bool)
  | chol (j : Nat) (wide : Bool)
  | qrh (j : Nat) (wide : Bool)
  | trsm (j : Nat) (wide left upper unit : Bool)
deriving DecidableEq, Repr, Inhabited

/-- A queued anvil instruction with its captured operands (R282, R286). -/
structure AnvilEntry where
  op : AnvilOp
  pc : VAddr
  sup : Bool
  x : Tile := {}
  y : Tile := {}
  z : Tile := {}
  blk : Block := {}
  steps : Nat := 1
  /-- The captured permutation of `pmapply` and its width bit (R322). -/
  perm : List Nat := []
  wide : Bool := false
  /-- amax and gmax of a factorisation that has begun (R319). -/
  growth : Option (FV × FV) := none
deriving DecidableEq, Repr, Inhabited

/-- A write of a step of the anvil: bytes at a key, with which every granule from a lower key on to its end has been replaced (R197); or an
adder operation at a key on elements of an accumulator format, which adds exact sums to what they hold (R275). -/
inductive Put where
  | write (lo k : Nat) (bs : List Byte)
  | add (k acc : Nat) (sums : List FV)
deriving DecidableEq, Repr, Inhabited

/-- What a step of the head has still to write, oldest first, by keys of cluster memory (R305, R306); and for a column, what it leaves in
the registers: its index, that index's permutation and growth estimate, and amax and gmax (R315, R319). -/
structure Applying where
  writes : List Put := []
  column : Option (Nat × List Nat × Word × (FV × FV)) := none
deriving DecidableEq, Repr, Inhabited

/-- The controller of a cluster and its anvil queue (R280, R287, R293). -/
structure Ctl where
  inUse : Bool := false
  launch : Nat := 0
  ctx : Nat := 0
  m : Table Nat Val := []
  sm : Table Nat Val := []
  pc : VAddr := 0
  mode : Mode := .user
  pm : Table Nat (List Nat) := []
  pmw : Table Nat Bool := []
  ge : Table Nat Word := []
  done : Nat := 0
  state : Nat := 0
  col : Nat := 0
  kstep : Nat := 0
  queue : List AnvilEntry := []
  /-- The 16-byte sectors that the head's step has read so far, each as it stood then (R286, R305). -/
  seen : List (Nat × List Byte × Bool) := []
  /-- The head's step that is being written. -/
  applying : Option Applying := none
  /-- The rows that the head, an `acvt` or a `pmapply` of columns, has written (R311, R322). -/
  row : Nat := 0
  region : Option (VAddr × Nat) := none
  trap : Option Raised := none
  /-- The address of the faulting anvil instruction of the raised trap; none for the controller's own (R293). -/
  aaddr : Option VAddr := none
  /-- The address whose page the controller waits for, and what its access is (R292, R352). -/
  miss : Option (Nat × Nat) := none
  /-- The address whose page the tile fetch unit waits for, and what its access is (R290, R352). -/
  fetchMiss : Option (Nat × Nat) := none
  /-- Lines of `tpin` tiles still to be pinned, each with whether its `tpin` issued in supervisor mode and how many anvil instructions
  were issued before it (R312). -/
  tpins : List (Nat × Bool × Nat) := []
  /-- Anvil instructions issued since the stream's start (R312). -/
  issued : Nat := 0
  /-- An anvil fault found while another trap awaits delivery, with the instruction's address (R292). -/
  afault : Option (Raised × VAddr) := none
  wait : Option Wait := none
  regs : List PhReg := []
  heldSignals : List HeldSignal := []
  /-- Length in bytes of the instruction that trapped, for skip (R294). -/
  trapLen : Nat := 4
  holdStart : Bool := false
  preempted : Bool := false
  /-- Its stream has been stopped, and it is freed once its leaves need not wait (R392, R438, R463). -/
  ended : Bool := false
deriving DecidableEq, Repr, Inhabited

/-- A translation held in a cluster or die TLB (R299, R346): context, base of the page, log2 of its size, frame, and the
permissions of its leaf (R347). -/
structure TlbEntry where
  ctx : Nat
  page : Nat
  lg : Nat
  frame : Nat
  r : Bool
  w : Bool
  u : Bool
deriving DecidableEq, Repr, Inhabited

/-- A pinned line (R291): its virtual and physical line, and the k-step that holds it, or none for a `tpin` pin. -/
structure Pin where
  ctx : Nat
  vline : Nat
  pline : Nat
  /-- The k-step of the head that it is held for. -/
  step : Option Nat
  /-- For a `tpin` pin, how many anvil instructions were issued before the `tpin` (R312). -/
  after : Option Nat := none
  /-- Its page was checked for supervisor mode alone (R290). -/
  sup : Bool := false
  /-- The page that it was translated through, as the base-two logarithm of its size (R299). -/
  lg : Nat := 13
deriving DecidableEq, Repr, Inhabited

/-- A cluster: its controller, TLB, pins and cluster memory allocations. -/
structure Clu where
  ctl : Ctl := {}
  tlb : List TlbEntry := []
  pins : List Pin := []
  allocs : List Alloc := []
deriving DecidableEq, Repr, Inhabited

/-! ## The work die (chapter 12) -/

/-- A memory fault record of the die fault buffer (R352). -/
structure FbRec where
  va : Nat
  ctx : Nat
  tag : Nat
  lvl : Nat
  acc : Nat
  why : Nat
  req : Nat
  who : Nat
deriving DecidableEq, Repr, Inhabited

/-- The states of a live merge entry (R350); a free entry is not listed. -/
inductive MergeState where
  | walking
  | handler
  | buffered
  | dropped
deriving DecidableEq, Repr, Inhabited

/-- A live entry of the fault-merge table (R349): the page that it covers, log2 of its size, the miss that made it with its requester
as a record names it (R352), and its waiters in the order in which they joined. -/
structure Merge where
  ctx : Nat
  page : Nat
  lg : Nat
  va : Nat
  acc : Nat
  state : MergeState
  waiters : List Requester
  req : Nat := 0
  who : Nat := 0
deriving DecidableEq, Repr, Inhabited

/-- A work queue (R342, R343): its table entry, its items oldest first with their poison status, and the gangs whose
dequeues and enqueues wait on it, in the order in which they reached the controller. -/
structure WQueue where
  cap : Nat := 0
  ctx : Nat := 0
  failed : Bool := false
  en : Bool := false
  items : List (DWord × Bool) := []
  deqs : List GangId := []
  enqs : List GangId := []
deriving DecidableEq, Repr, Inhabited

/-- A dimension of a tensor copy: its count and the byte steps of the source and the destination (R335). -/
structure Dim where
  count : Nat
  sstep : Int
  dstep : Int
deriving DecidableEq, Repr, Inhabited

/-- A copy operation (R334 to R336). A copy of bytes is one of a single dimension with elements of one byte. -/
structure CopyOp where
  id : Nat
  agent : UnitId
  launch : Nat
  ctx : Nat
  /-- Issued in supervisor or firmware mode: what its pages must permit (R338). -/
  sup : Bool
  sspace : Space
  dspace : Space
  sbase : Nat
  dbase : Nat
  ssize : Nat
  dsize : Nat
  dims : List Dim
  /-- Source format, destination format and rounding code of a conversion (R335). -/
  cvt : Option (Nat × Nat × Nat)
  /-- Completion handle, or 0 (R333). -/
  handle : DWord
  /-- Trigger word and threshold of an armed `copyt` (R339). -/
  trig : Nat
  threshold : Nat
  /-- The virtual address of the trigger word, found anew after a restore (R341). -/
  tva : Nat := 0
  /-- Of one that has fired: what its agent had issued by then bears lower names, and its writes among that come first (R237). -/
  before : Nat := 0
  /-- Elements completed (R341). -/
  done : Nat
  fault : Bool
  /-- The virtual address whose page the engine waits for, and what the access is (R338, R333). -/
  miss : Option (Nat × Nat)
deriving DecidableEq, Repr, Inhabited

/-- The remap entry of a physical cluster (R357). -/
structure Remap where
  active : Bool
  spare : Bool
  flagged : Bool
  logical : Nat
deriving DecidableEq, Repr, Inhabited

/-- A work die. -/
structure Die where
  ie : Bool := false
  lg : Nat := 3
  drops : Nat := 0
  empty : Bool := false
  dropped : Bool := false
  fb : List FbRec := []
  qres : Nat := 0
  pools : Table Nat (List Nat) := []
  queues : Table Nat WQueue := []
  /-- Changed remap entries; entry p is otherwise logical cluster p, active below 32 and spare above (R325). -/
  remap : Table Nat Remap := []
  /-- Retired physical clusters whose logical number has still to pass on (R357, R414). -/
  retiring : List Nat := []
  tlb : List TlbEntry := []
  merge : Table Nat Merge := []
  /-- The operations of engines 0 to 3, in the order of assignment (R332); under 4 those that only have to be counted, and under 5
  those that have fired and wait to enter the queue (R237, R339). -/
  engines : Table Nat (List CopyOp) := []
  armed : List CopyOp := []
  allocs : List Alloc := []
deriving DecidableEq, Repr, Inhabited

/-! ## The package (chapter 14) -/

/-- A crew placed by a launch on this package (R389): its entry's number in the table, its core and its slots, and whether
it has ended. -/
structure Crew where
  entry : Nat
  core : CoreId
  slots : List Nat
  ended : Bool
  /-- A gang of it was killed (R124). -/
  killed : Bool := false
deriving DecidableEq, Repr, Inhabited

/-- Where a launch stands (R388, R390). -/
inductive LaunchState where
  | accepted
  | holding
  | running
deriving DecidableEq, Repr, Inhabited

/-- A kernel image's header, its patch table and the parameter copy (R89, R91, R93). -/
structure Image where
  base : Nat := 0
  anvil : Bool := false
  length : Nat := 0
  aent : Nat := 0
  cent : Nat := 0
  ment : Nat := 0
  crew : Nat := 1
  csz : Nat := 0
  clsz : Nat := 0
  dsz : Nat := 0
  /-- Offsets of patched instructions and of their parameter bytes. -/
  patches : List (Nat × Nat) := []
  params : List Byte := []
deriving DecidableEq, Repr, Inhabited

/-- A fired chunk of a collective (R444): its rank, its bytes as the crew left them, piece by piece with their marks, and whether
it is lost (R446). -/
structure Chunk where
  rank : Nat
  pieces : List (List Byte × Bool) := []
  lost : Bool := false
deriving DecidableEq, Repr, Inhabited

/-- The collective of a launch on this package (R442 to R446): its descriptor and where it lies, the package of each rank, the
partition, the chunks fired here, the chunks or the result written here, and the packages that have finished. -/
structure Coll where
  addr : Nat := 0
  desc : List Byte := []
  ranks : List Nat := []
  part : List CoreId := []
  chunks : List Chunk := []
  written : List Nat := []
  failed : Bool := false
  finished : Bool := false
  peers : List Nat := []
  /-- What its launches on the packages of its ranks have in common, and no other launch has (log entry 16). -/
  round : Nat := 0
deriving DecidableEq, Repr, Inhabited

/-- A launch accepted by a package (R385, R388, R391). -/
structure Launch where
  queue : Nat := 0
  ctx : Nat := 0
  image : Image := {}
  start : DWord := 0
  comp : DWord := 0
  status : DWord := 0
  checked : Bool := false
  chkLock : Bool := false
  durable : Bool := false
  persistent : Bool := false
  /-- Placed by the management controller: its gangs start in firmware mode (R201). -/
  firmware : Bool := false
  skewb : Nat := 0
  state : LaunchState := .accepted
  /-- Entries of the placement table that name this package: entry number, die, logical cluster and core. -/
  places : List (Nat × Nat × Nat × Nat) := []
  crews : List Crew := []
  /-- Clusters whose controller runs this launch's anvil stream. -/
  ctls : List CluId := []
  earliest : Nat := 0
  latest : Nat := 0
  ended : Nat := 0
  replan : Bool := false
  /-- The launch's units are in a context image and freed: it neither starts nor ends before a restore (R410). -/
  saved : Bool := false
  /-- The skew monitor has raised its own request (R391). -/
  skewed : Bool := false
  /-- Fabric writes acknowledged as lost (R388). -/
  lost : Nat := 0
  /-- The status code that an event has given the launch, and the trap record that goes with code 4 (R388). -/
  code : Nat := 0
  trap : List Byte := []
  coll : Option Coll := none
  /-- The package that accepted it and its number there, which stay its own in images and after restores (log entry 3). -/
  origin : Nat × Nat := (0, 0)
deriving DecidableEq, Repr, Inhabited

/-- A submission queue (R384): its registers, and whether the sequencer has stopped reading it (R387). -/
structure SubQ where
  base : Nat := 0
  lg : Nat := 4
  ctx : Nat := 0
  ovr : Bool := false
  en : Bool := false
  head : Word := 0
  tail : Word := 0
  stopped : Bool := false
deriving DecidableEq, Repr, Inhabited

/-- A context entry (R383). -/
structure CtxEntry where
  root : Nat := 0
  en : Bool := false
deriving DecidableEq, Repr, Inhabited

/-- A routing entry of an interrupt source (R396). -/
structure IntRoute where
  vector : Nat := 0
  port : Nat := 0
  enable : Bool := false
  pending : Bool := false
deriving DecidableEq, Repr, Inhabited

/-- A wear record (R402). -/
structure Wear where
  days : Nat
  rows : Nat
  lanes : Nat
  errors : Nat
deriving DecidableEq, Repr, Inhabited

/-- The states of a retirement migration (R380). -/
inductive MigState where
  | idle
  | copying
  | final
  | done
  | failedAborts
  | failedLeaf
deriving DecidableEq, Repr, Inhabited

/-- The migration registers, and the migration in progress as go found it (R380, R381): its page, base-two logarithm of its size
and context, the old frame, the new one, the dirty granules, and when the hold began. -/
structure Mig where
  va : DWord := 0
  size : Nat := 0
  ctx : Nat := 0
  frame : DWord := 0
  state : MigState := .idle
  aborts : Nat := 0
  page : Nat := 0
  lg : Nat := 13
  pctx : Nat := 0
  old : Nat := 0
  newFrame : Nat := 0
  dirty : List Nat := []
  heldSince : Nat := 0
deriving DecidableEq, Repr, Inhabited

/-! ## The fabric (chapter 16) -/

/-- A flit without the fields of its link (R419): its type, virtual channel, destination, source, tag and payload. -/
structure FlitBody where
  kind : Nat
  vc : Nat
  dst : Nat
  src : Nat
  tag : Nat
  payload : List Byte
deriving DecidableEq, Repr, Inhabited

/-- A data port (R418 to R424): its status, its lanes, and its link state. -/
structure Port where
  /-- Flits that wait to be sent, oldest first (R421), and every flit sent, in order. -/
  queue : List FlitBody := []
  wire : List (List Byte) := []
  /-- 0 down, 1 training, 2 full width, 3 full width on the spare, 4 half width. -/
  state : Nat := 0
  ppkg : Nat := 0
  pport : Nat := 0
  lanes : Nat := 0
  /-- Retired data lanes, and whether the spare is in use (R421). -/
  retired : List Nat := []
  spare : Bool := false
  /-- A swap or a change of width runs: no flits are carried. -/
  swapping : Bool := false
  /-- The link sequence of the next new flit and of the last flit received in order (R419). -/
  lseq : BitVec 16 := 0
  aseq : BitVec 16 := 0
  /-- Flits sent and not yet covered by an `aseq`, oldest first (R420). -/
  retry : List (List Byte) := []
  /-- Flits to be sent again after a gap or a timeout (R420). -/
  resend : Nat := 0
  missed : Nat := 0
deriving DecidableEq, Repr, Inhabited

/-- A route entry (R423). -/
structure Route where
  costa : Nat := 0
  costb : Nat := 0
  porta : Nat := 31
  portb : Nat := 31
  dead : Bool := false
  self : Bool := false
deriving DecidableEq, Repr, Inhabited

/-- A stamped multicast record (R427): the writer and what each member does with it. A membership change is one too (R430). -/
inductive McAct where
  | store (offset size data : Nat) (poison : Bool)
  | atomic (offset op : Nat) (ty : Ty) (data : Nat) (poison : Bool)
  | join (pkg : Nat)
  | leave (pkg : Nat)
deriving DecidableEq, Repr, Inhabited

/-- A stamped record with its sequence and the gang whose pending-byte counter it stays in. -/
structure McRec where
  seq : Nat
  act : McAct
  writer : Option GangId
  bytes : Nat
  /-- The name of the batch that brought it, given when its instruction issued. -/
  src : Nat := 0
deriving DecidableEq, Repr, Inhabited

/-- A group entry of a package, with the records it has applied above stable (R426, R429). -/
structure Group where
  wva : Nat := 0
  wlen : Nat := 0
  voidfrom : Nat := 0
  epoch : Nat := 0
  applied : Nat := 0
  ctx : Nat := 0
  hpkg : Nat := 0
  hdie : Nat := 0
  state : Nat := 0
  en : Bool := false
  kept : List McRec := []
deriving DecidableEq, Repr, Inhabited

/-- The headgate of a group (R427): the next sequence, stable, the group's epoch, the members, and the records that are not
stable. -/
structure Headgate where
  next : Nat := 1
  stable : Nat := 0
  epoch : Nat := 0
  members : List Nat := []
  records : List McRec := []
deriving DecidableEq, Repr, Inhabited

/-- A phaser entry of a package (R433). -/
structure Phaser where
  fval : DWord := 0
  fid : Word := 0
  done : Word := 0xFFFFFFFF
  ctx : Nat := 0
  rpkg : Nat := 0
  rdie : Nat := 0
  level : Nat := 0
  fnd : Bool := false
  /-- The phaser has failed and has not been enabled since (R441); and software has cleared the register's bit meanwhile (R433). -/
  failed : Bool := false
  cleared : Bool := false
  bnd : Bool := false
  anyof : Bool := false
  hold : Bool := false
  en : Bool := false
deriving DecidableEq, Repr, Inhabited

/-- A completed phase as its root broadcast it (R436, R439): its number, its bound flag and its finder, and whether engine operations
signalled it (R237). -/
structure PhaseEnd where
  phase : Word
  bound : Bool
  finder : Option (DWord × Word)
  engine : Bool
deriving DecidableEq, Repr, Inhabited

/-- What a weir holds of a phaser (R356, R436): the pending phase, signallers for it and for the next one, arrivals for it,
its bound flag and its finder. -/
structure Weir where
  sig : Nat := 0
  sigNext : Nat := 0
  arr : Nat := 0
  phase : Word := 0
  bound : Bool := false
  finder : Option (DWord × Word) := none
  /-- The arrival of the pending phase has gone to the parent. -/
  forwarded : Bool := false
  /-- An engine operation's signal is among its arrivals (R237). -/
  engine : Bool := false
  /-- At the root: phases are held from completing (R436, R476), and the phases completed so far, newest first. -/
  hold : Bool := false
  past : List PhaseEnd := []
deriving DecidableEq, Repr, Inhabited

/-- A binding of a region to a synchronisation object (R226). -/
structure Binding where
  base : Nat
  len : Nat
  handle : DWord
deriving DecidableEq, Repr, Inhabited

/-- A scratchpad or cluster memory allocation as a context image keeps it (R213, R289, R397): the launch, the crew's entry
or the group's logical unit, what kind of memory it is, and its bytes, full granules and poisoned granules by offset. -/
structure SavedAlloc where
  launch : Nat
  unit : Nat
  kind : Nat
  size : Nat
  bytes : List (Nat × Byte)
  full : List Nat
  marks : List Nat
deriving DecidableEq, Repr, Inhabited

/-- A gang in a context image, with its place in its launch and its save area (R213). -/
structure SavedGang where
  crew : Nat
  index : Nat
  gang : Gang
  area : List (Nat × Byte)
  /-- Its full-empty accesses that were withdrawn unserved (R212). -/
  waiting : List Access
deriving DecidableEq, Repr, Inhabited

/-- A controller in a context image, with its die and logical cluster (R289). -/
structure SavedCtl where
  die : Nat
  clu : Nat
  ctl : Ctl
deriving DecidableEq, Repr, Inhabited

/-- A work queue in a context image (R345). -/
structure SavedQueue where
  die : Nat
  number : Nat
  queue : WQueue
deriving DecidableEq, Repr, Inhabited

/-- A copy operation or an armed trigger in a context image (R341), with its die and its agent's logical cluster. -/
structure SavedCopy where
  die : Nat
  clu : Nat
  armed : Bool
  op : CopyOp
deriving DecidableEq, Repr, Inhabited

/-- A launch in a context image. One that has ended or been stopped since is not brought back (log entry 11). -/
structure SavedLaunch where
  number : Nat
  launch : Launch
  closed : Bool := false
deriving DecidableEq, Repr, Inhabited

/-- The plain state of a context's agents, as the sections of an image hold it (R397): the contents of a section are the
device's own (log entry 11). -/
structure Saved where
  /-- The name by which the sections of the image refer to this state; 0 while nothing is captured. -/
  id : Nat := 0
  ctx : Nat := 0
  addr : Nat := 0
  second : Nat := 0
  length : Nat := 128
  durable : Bool := false
  gangs : List SavedGang := []
  ctls : List SavedCtl := []
  copies : List SavedCopy := []
  queues : List SavedQueue := []
  launches : List SavedLaunch := []
  allocs : List SavedAlloc := []
  /-- The binding table of the context (R226). -/
  bindings : List Binding := []
  /-- The lines of the image that were written poisoned (R398). -/
  poisoned : List Nat := []
  /-- The accesses withdrawn at the capture, by name, in the order in which they were sent (R245), and the name that was next then. -/
  order : List Nat := []
  next : Nat := 0
deriving DecidableEq, Repr, Inhabited

/-- A restore in progress (R399): what the header names, the next line, whether it is read from the second copy, and the bytes of the
lines read so far. -/
structure Restore where
  image : Saved
  line : Nat := 0
  second : Bool := false
  bytes : List Byte := []
deriving DecidableEq, Repr, Inhabited

/-- The errors of a row of a stack (R378): when the corrected ones came, and whether the row is to be spared. -/
structure RowErrs where
  times : List Nat := []
  due : Bool := false
deriving DecidableEq, Repr, Inhabited

/-- A package. -/
structure Pkg where
  /-- The boot of the management controller has released the work dies (R403). -/
  booted : Bool := false
  /-- A check of the boot has failed, which stops it (R403). -/
  bootFailed : Bool := false
  time : Nat := 0
  offs : Word := 0
  hold : Bool := false
  lock : Bool := false
  launched : Bool := false
  imgaddr : DWord := 0
  /-- ctxstat: state and context (R399). -/
  cstate : Nat := 0
  cctx : Nat := 0
  /-- Preempt writes that are held, each with its image address (R397). -/
  heldPre : List (Nat × DWord) := []
  /-- The save or restore in progress (R398, R399). -/
  saving : Option Saved := none
  restoring : Option Restore := none
  images : List Saved := []
  powcap : Nat := 10000
  fclk : Nat := 850
  mig : Mig := {}
  rpaddr : DWord := 0
  rpcount : Word := 0
  wear : Table Nat Wear := []
  subqs : Table Nat SubQ := []
  routes : Table Nat IntRoute := []
  /-- Interrupt messages sent to the host: port and vector, in order (R396). -/
  sent : List (Nat × Nat) := []
  /-- Data returned to the host by reads, with its poison mark (R327), and attestation reports, in order (R395, R404). -/
  replies : List (List Byte × Bool) := []
  contexts : Table Nat CtxEntry := []
  launches : Table Nat Launch := []
  nextLaunch : Nat := 0
  /-- The package has stopped every context for its temperature (R401). -/
  stopped : Bool := false
  /-- Frames that the base dies are zeroing, with their sizes (R242, R379). -/
  zeroing : List (Nat × Nat) := []
  /-- Spare rows used in each bank of each stack (R378). -/
  spares : Table (Nat × Nat) Nat := []
  /-- The errors that rows of the stacks have given, by stack, bank and row (R378). -/
  rows : Table (Nat × Nat × Nat) RowErrs := []
  /-- The submission queues whose packets the management controller writes: their launches run in firmware mode (R201). -/
  mgmtQueues : List Nat := []
  measure : Table Nat (BitVec 256) := []
  version : Nat := 0
  minVersion : Nat := 0
  serial : BitVec 128 := 0
  idkey : BitVec 512 := 0
  /-- The public key that boot stages are checked against, and its digest, which is fused (R403). -/
  bootKey : BitVec 512 := 0
  keyDigest : BitVec 256 := 0
  ports : Table Nat Port := []
  paths : Table Nat Route := []
  lostWrites : Word := 0
  groups : Table Nat Group := []
  phasers : Table Nat Phaser := []
deriving DecidableEq, Repr, Inhabited

/-! ## Messages of the fabric -/

/-- A remote access of one lane (R451 to R454): what it does, and once served what it brings back. -/
structure Remote where
  gang : GangId
  ctx : Nat
  /-- Issued in supervisor or firmware mode: its destination is written in that bank (R202). -/
  sup : Bool
  dst : Nat
  kind : AccessKind
  size : Nat
  op : Nat
  ty : Ty
  addr : Nat
  data : Nat
  poison : Bool
  lane : Nat
  dreg : Nat
  /-- Whether it has been served at its destination, and whether it came back lost or unreadable (R452). -/
  served : Bool
  lost : Bool
  /-- How many `gsync`s of its gang came before it (R178). -/
  era : Nat := 0
  /-- The name of the first message of its instruction. -/
  first : Nat := 0
deriving DecidableEq, Repr, Inhabited

/-- The lanes of a multicast instruction that name one group, on their way to its headgate (R458, R459); or a membership change,
which no gang sends (R430). -/
structure McBatch where
  gang : Option GangId
  group : Nat
  items : List (Nat × McAct × Nat)
  /-- The register that receives the sequences, for `mcst`. -/
  dreg : Option Nat
  /-- Whether the headgate holds it because its window is full (R427). -/
  held : Bool
  /-- Issued in supervisor or firmware mode: the sequences are written in that bank (R202). -/
  sup : Bool := false
  /-- How many `gsync`s of its gang came before it (R178). -/
  era : Nat := 0
  /-- The lanes whose sequence its register takes (R56). -/
  share : Word := 0
deriving DecidableEq, Repr, Inhabited

/-- An arrival on its way to a weir (R436). -/
structure Arrival where
  phaser : Nat
  weir : WeirId
  phase : Word
  bound : Bool
  /-- The any-of value and identity (R439). -/
  finder : Option (DWord × Word)
  /-- A signal of an engine operation is among those that it stands for (R237). -/
  engine : Bool := false
  /-- The weir that sent it; none for a registrant's own signal. -/
  source : Option WeirId := none
  /-- The registrant of a signal of its own. -/
  agent : Option UnitId := none
deriving DecidableEq, Repr, Inhabited

/-- A join or leave on its way to the root (R438): the agent, its role, and for a proxy the object; whether the root has taken
it, as a leave that waits for signals still held has been (R463); and the weir that it is on its way to, with the weir that it comes
from, none where that is the agent. -/
structure Change where
  phaser : Nat
  agent : UnitId
  join : Bool
  role : Nat
  proxy : DWord
  taken : Bool := false
  weir : WeirId := .die ⟨0, 0⟩
  source : Option WeirId := none
deriving DecidableEq, Repr, Inhabited

/-- What the fabric and the sluice network carry. -/
inductive Msg where
  | remote (r : Remote)
  | batch (b : McBatch)
  | arrival (a : Arrival)
  | change (c : Change)
deriving DecidableEq, Repr, Inhabited

/-! ## The whole -/

/-- Why the machine stops without a next state. No instruction raises one. -/
inductive Fault where
  /-- Raised by `step` alone, where the program counter lies in a page that has no mapping: no rule says what such a fetch
  does (log entry 6). Safe. -/
  | fetchUnmapped
deriving DecidableEq, Repr, Inhabited

/-- Why an instruction has no meaning. -/
inductive Refusal where
  /-- An arm of `exec` whose meaning is not written; no arm is left so. Safe. -/
  | notModelled (mnemonic : String)
deriving DecidableEq, Repr

/-- The whole machine. -/
structure State where
  /-- The unit whose instruction runs (log entry 3). -/
  cur : UnitId := .a ⟨0, 0, 0, 0, 0⟩
  /-- The units that the last issue cycle selected (R191), still to issue. -/
  issue : List UnitId := []
  /-- Events that come before anything else (log entry 3). -/
  agenda : List Instr := []
  /-- Counts the free values drawn (log entry 4). -/
  clock : Nat := 0
  /-- The name of the next access or message (log entry 3). -/
  nextId : Nat := 0
  /-- How many of the next comparisons of two issues differ (R210; log entry 5). -/
  glitch : Nat := 0
  gangs : Table GangId Gang := []
  cores : Table CoreId Core := []
  clus : Table CluId Clu := []
  dies : Table DieId Die := []
  pkgs : Table Nat Pkg := []
  /-- Binding tables of the contexts (R226). -/
  bindings : Table Nat (List Binding) := []
  /-- What the fabric carries, by the name that its event gives. -/
  msgs : Table Nat Msg := []
  /-- Headgate state of each group (R427). -/
  headgates : Table Nat Headgate := []
  /-- What each weir holds of each phaser, and its standby copy at a package weir (R356, R433). -/
  weirs : Table (WeirId × Nat) Weir := []
  /-- Package weirs and phasers whose counts, or whose standby copy, have been lost (R441). -/
  weirLost : List (Nat × Nat × Bool) := []
  /-- All memory, in canonical form: addresses strictly rising, no zero byte listed (log entry 1). -/
  mem : List Host.Cell := []
  /-- The keys of full granules (R195, R329). -/
  full : List Nat := []
  /-- The keys of poisoned 16-byte granules (R197, R377). -/
  marks : List Nat := []
  /-- Accesses sent and not yet performed (R217). -/
  flight : List Access := []
deriving DecidableEq, Repr, Inhabited

/-- The machine right after reset (R10): no package has left cold reset. -/
def State.reset : State := {}

end Sys2Proof.Machine
end

