-- ==== Sys2Proof/Machine/Ops.lean ====
section
/-! DEFINITION. The named operations over registers, masks, queues, program counters and traps of a unit: every read and
write of a register goes through these. -/

namespace Sys2Proof.Machine

/-- What a meaning answers. -/
abbrev Out : Type := Host.Outcome State Fault Refusal

/-! ## Reaching a part of the state -/

/-- A gang slot. -/
def State.gang (s : State) (g : GangId) : Gang := tget g {} s.gangs
/-- A state with a gang slot replaced. -/
def State.setGang (s : State) (g : GangId) (x : Gang) : State := { s with gangs := tset g x s.gangs }
/-- A state with a gang slot changed. -/
def State.modGang (s : State) (g : GangId) (f : Gang → Gang) : State := s.setGang g (f (s.gang g))
/-- A core. -/
def State.core (s : State) (c : CoreId) : Core := tget c {} s.cores
/-- A state with a core changed. -/
def State.modCore (s : State) (c : CoreId) (f : Core → Core) : State := { s with cores := tset c (f (s.core c)) s.cores }
/-- A cluster. -/
def State.clu (s : State) (c : CluId) : Clu := tget c {} s.clus
/-- A state with a cluster changed. -/
def State.modClu (s : State) (c : CluId) (f : Clu → Clu) : State := { s with clus := tset c (f (s.clu c)) s.clus }
/-- A state with a cluster's controller changed. -/
def State.modCtl (s : State) (c : CluId) (f : Ctl → Ctl) : State := s.modClu c fun x => { x with ctl := f x.ctl }

/-- A work die. -/
def State.die (s : State) (d : DieId) : Die := tget d {} s.dies
/-- A state with a work die changed. -/
def State.modDie (s : State) (d : DieId) (f : Die → Die) : State := { s with dies := tset d (f (s.die d)) s.dies }
/-- A package. -/
def State.pkg (s : State) (p : Nat) : Pkg := tget p {} s.pkgs
/-- A state with a package changed. -/
def State.modPkg (s : State) (p : Nat) (f : Pkg → Pkg) : State := { s with pkgs := tset p (f (s.pkg p)) s.pkgs }

/-! ## Interrupts (R396) -/

/-- An interrupt source fires: a message to the host, or pending while its entry is disabled. -/
def Pkg.interrupt (x : Pkg) (src : Nat) : Pkg :=
  let r : IntRoute := tget src {} x.routes
  if r.enable then { x with sent := x.sent ++ [(r.port, r.vector)] }
  else { x with routes := tset src { r with pending := true } x.routes }

/-- An interrupt source of a package fires. -/
def State.interrupt (s : State) (p src : Nat) : State := s.modPkg p fun x => x.interrupt src

/-! ## Registers (R52 to R56, R202, R293) -/

/-- Whether a register code names the supervisor bank of a gang in its mode (R202). -/
def Gang.banked (x : Gang) (code : Nat) : Bool := x.mode != .user && (code ≥ 60 || (code ≥ 40 && code < 48))

/-- An a-slice register in a lane; an s register reads the same in every lane (R52, R133). -/
def Gang.readA (x : Gang) (code lane : Nat) : Val :=
  if code ≥ 48 then tget code {} (if x.banked code then x.ss else x.s)
  else (tget code [] (if x.banked code then x.sa else x.a)).getD lane {}

/-- An a-slice register written in the lanes of a mask; an s register takes the lowest lane's value (R56, R134). -/
def Gang.writeA (x : Gang) (code : Nat) (act : Word) (f : Nat → Val) : Gang :=
  if code ≥ 48 then
    match lowestLane act with
    | none => x
    | some n => if x.banked code then { x with ss := tset code (f n) x.ss } else { x with s := tset code (f n) x.s }
  else
    let row := laneIdx.map fun n => if act.getLsbD n then f n else x.readA code n
    if x.banked code then { x with sa := tset code row x.sa } else { x with a := tset code row x.a }

/-- A c-slice register in a lane (R53). -/
def Gang.readC (x : Gang) (code lane : Nat) : Val32 := (tget code [] x.v).getD lane {}

/-- A c-slice register written in the lanes of a mask. -/
def Gang.writeC (x : Gang) (code : Nat) (act : Word) (f : Nat → Val32) : Gang :=
  { x with v := tset code (laneIdx.map fun n => if act.getLsbD n then f n else x.readC code n) x.v }

/-- A controller register; in supervisor mode codes 24 to 31 name the supervisor bank (R293). -/
def Ctl.readM (x : Ctl) (code : Nat) : Val := tget code {} (if x.mode != .user && code ≥ 24 then x.sm else x.m)

/-- A controller register written. Of the supervisor bank only skip and `m28` to `m31` are writable (R293). -/
def Ctl.writeM (x : Ctl) (code : Nat) (v : Val) : Ctl :=
  if x.mode != .user && code ≥ 24 then
    if code ≥ 28 then { x with sm := tset code v x.sm }
    else if code = 24 then
      { x with sm := tset 24 { v with bits := ((x.readM 24).bits &&& 0xFFFF) ||| (v.bits &&& 0x10000) } x.sm }
    else x
  else { x with m := tset code v x.m }

/-- A mask register of the a-slice; the supervisor bank has its own `k6` and `k7` (R202). -/
def Gang.readKa (x : Gang) (k : Nat) : Word := tget k 0 (if x.mode != .user && k ≥ 6 then x.sk else x.ka)
/-- A mask register of the a-slice written. -/
def Gang.writeKa (x : Gang) (k : Nat) (v : Word) : Gang :=
  if x.mode != .user && k ≥ 6 then { x with sk := tset k v x.sk } else { x with ka := tset k v x.ka }

/-- A mask register of a unit (R96); the controller has none. -/
def State.readMask (s : State) (u : UnitId) (k : Nat) : Word :=
  match u with
  | .a g => (s.gang g).readKa k
  | .c g => tget k 0 (s.gang g).kc
  | .m _ => 0

/-- A mask register of a unit written. -/
def State.writeMask (s : State) (u : UnitId) (k : Nat) (v : Word) : State :=
  match u with
  | .a g => s.modGang g fun x => x.writeKa k v
  | .c g => s.modGang g fun x => { x with kc := tset k v x.kc }
  | .m _ => s

/-- A register of a unit in a lane, as the carrier of a type (R53, R55). -/
def State.readReg (s : State) (u : UnitId) (t : Ty) (code lane : Nat) : Val :=
  match u with
  | .a g => (s.gang g).readA code lane
  | .c g =>
    let lo := (s.gang g).readC code lane
    if t.wide then
      let hi := (s.gang g).readC (code + 1) lane
      ⟨hi.bits ++ lo.bits, hi.poison || lo.poison⟩
    else ⟨lo.bits.zeroExtend 64, lo.poison⟩
  | .m c => (s.clu c).ctl.readM code

/-- A register of a unit written in the lanes of a mask with values of a type, extended by R55. -/
def State.writeReg (s : State) (u : UnitId) (t : Ty) (code : Nat) (act : Word) (f : Nat → DWord) : State :=
  match u with
  | .a g => s.modGang g fun x => x.writeA code act fun n => ⟨extendResult .A t (f n), false⟩
  | .c g =>
    s.modGang g fun x =>
      let x := x.writeC code act fun n => ⟨(extendResult .C t (f n)).truncate 32, false⟩
      if t.wide then x.writeC (code + 1) act fun n => ⟨(f n).extractLsb' 32 32, false⟩ else x
  | .m c => if act = 0 then s else s.modCtl c fun x => x.writeM code ⟨extendResult .M t (f 0), false⟩

/-- A register of a unit written with values that keep their poison marks (R255). -/
def State.writeMarked (s : State) (u : UnitId) (t : Ty) (code : Nat) (act : Word) (f : Nat → Val) : State :=
  match u with
  | .a g => s.modGang g fun x => x.writeA code act fun n => ⟨extendResult .A t (f n).bits, (f n).poison⟩
  | .c g =>
    s.modGang g fun x => x.writeC code act fun n => ⟨(extendResult .C t (f n).bits).truncate 32, (f n).poison⟩
  | .m c => if act = 0 then s else s.modCtl c fun x => x.writeM code ⟨extendResult .M t (f 0).bits, (f 0).poison⟩

/-! ## Lanes (R98) -/

/-- The mask of the fragment that runs in the a-slice; with no fragment running, as R479 gives, every lane. -/
def Gang.fragMask (x : Gang) : Word :=
  match x.cur with
  | some e => (tget e {} x.frags).mask
  | none => BitVec.allOnes 32
/-- The mask of the fragment that runs in the c-slice; killed lanes have left it, whatever `dq` still says (R116, R117). -/
def Gang.cfragMask (x : Gang) : Word := (tget x.ccur {} x.cfrags).mask &&& ~~~x.dead
/-- The active lanes of a unit (R98); the controller's one scalar is always active (R135). -/
def State.active (s : State) (u : UnitId) : Word :=
  match u with
  | .a g => (s.gang g).exmA &&& (s.gang g).fragMask
  | .c g => (s.gang g).exmC &&& (s.gang g).cfragMask
  | .m _ => 1
/-- The lanes of a register that values for some of the active lanes reach: of an s register only the lowest active lane's
(R56). -/
def State.laneShare (s : State) (g : GangId) (code : Nat) (m : Word) : Word :=
  if code < 48 then m
  else
    match lowestLane (s.active (.a g)) with
    | some n => m &&& (1#32 <<< n)
    | none => 0
/-- The mask of the running fragment of a unit. -/
def State.fragment (s : State) (u : UnitId) : Word :=
  match u with
  | .a g => (s.gang g).fragMask
  | .c g => (s.gang g).cfragMask
  | .m _ => 1
/-- The leader lane (R168): lane 0 where the fragment has no lane left, which is the model's choice (log entry 32). -/
def State.leader (s : State) (u : UnitId) : Nat :=
  match lowestLane (s.active u) with
  | some n => n
  | none => (lowestLane (s.fragment u)).getD 0
/-- The privilege mode of a unit: the c-slice is always in user mode (R201). -/
def State.mode (s : State) (u : UnitId) : Mode :=
  match u with
  | .a g => (s.gang g).mode
  | .c _ => .user
  | .m c => (s.clu c).ctl.mode
/-- The context that a unit runs in. -/
def State.ctxOf (s : State) (u : UnitId) : Nat :=
  match u with
  | .a g => (s.gang g).ctx
  | .c g => (s.gang g).ctx
  | .m c => (s.clu c).ctl.ctx

/-! ## Program counters (R49) -/

/-- The program counter of a unit. -/
def State.pc (s : State) (u : UnitId) : VAddr :=
  match u with
  | .a g => (s.gang g).apc
  | .c g => (s.gang g).cpc
  | .m c => (s.clu c).ctl.pc
/-- A state with the program counter of a unit set. -/
def State.setPc (s : State) (u : UnitId) (v : VAddr) : State :=
  match u with
  | .a g => s.modGang g fun x => { x with apc := v }
  | .c g => s.modGang g fun x => { x with cpc := v }
  | .m c => s.modCtl c fun x => { x with pc := v }
/-- The program counter moved past an instruction (R49). -/
def State.advance (s : State) (i : Instr) : State := s.setPc s.cur (s.pc s.cur + BitVec.ofNat 57 i.size)

/-! ## Queues (R100 to R103, R61, R63) -/

/-- The queue that a slice reads under a code of R63; `dq` is not among these. -/
def Gang.readQueue (x : Gang) (u : UnitKind) (code : Nat) : List QEntry :=
  match u with
  | .A => if code = 0 then x.fq else tget (code - 1) [] x.sq
  | _ => tget code [] x.lq
/-- A gang with the queue that a slice reads under a code replaced. -/
def Gang.setQueue (x : Gang) (u : UnitKind) (code : Nat) (q : List QEntry) : Gang :=
  match u with
  | .A => if code = 0 then { x with fq := q } else { x with sq := tset (code - 1) q x.sq }
  | _ => { x with lq := tset code q x.lq }
/-- The room left in the queue that sink bit `b` of a slice names (R61, R100); `dq` is under R105. -/
def Gang.room (x : Gang) (u : UnitKind) (b : Nat) : Nat :=
  match u with
  | .A => if b = 3 then x.slip - (x.dq.length + x.dqNext.length) else 16 - (tget (b - 1) [] x.lq).length
  | _ => if b = 3 then 4 - x.fq.length else 8 - (tget (b - 1) [] x.sq).length
/-- Entries pushed into the queue that sink bit 1, 2 or for the c-slice 3 names. -/
def Gang.push (x : Gang) (u : UnitKind) (b : Nat) (es : List QEntry) : Gang :=
  match u with
  | .A => { x with lq := tset (b - 1) (tget (b - 1) [] x.lq ++ es) x.lq }
  | _ => if b = 3 then { x with fq := x.fq ++ es } else { x with sq := tset (b - 1) (tget (b - 1) [] x.sq ++ es) x.sq }
/-- A record pushed onto `dq`; one that finds no room waits its turn (R105). -/
def Gang.pushDq (x : Gang) (r : DRec) : Gang :=
  if x.dqNext.isEmpty && x.dq.length < x.slip then { x with dq := x.dq ++ [r] } else { x with dqNext := x.dqNext ++ [r] }
/-- Waiting records pushed while there is room (R105). -/
def flushDq (x : Gang) : List DRec → Gang
  | [] => { x with dqNext := [] }
  | r :: rs => if x.dq.length < x.slip then flushDq { x with dq := x.dq ++ [r] } rs else { x with dqNext := r :: rs }
/-- The waiting records of a gang pushed while there is room. -/
def Gang.flush (x : Gang) : Gang := flushDq x x.dqNext
/-- The head record of `dq` popped, and any waiting record pushed in its place. -/
def Gang.popDq (x : Gang) : Gang := { x with dq := x.dq.drop 1 }.flush

/-- An entry of a value of 32 bits per lane (R101, R134): inactive lanes hold zero and are not valid. -/
def entryOf (act : Word) (f : Nat → Word) : QEntry :=
  ⟨laneIdx.map fun n => if act.getLsbD n then ⟨f n, false⟩ else {}, act⟩
/-- A lane's word of an entry: zero where its valid bit is clear (R101). -/
def QEntry.word (e : QEntry) (n : Nat) : Val32 := if e.valid.getLsbD n then e.words.getD n {} else {}

/-! ## Traps (R120, R121, R124) -/

/-- The causes of R124 that name a fault, by number. -/
def causeIllegal : Nat := 1
/-- Reserved instruction. -/
def causeReserved : Nat := 2
/-- Queue misuse. -/
def causeQueue : Nat := 3
/-- Mask mismatch. -/
def causeMask : Nat := 4
/-- Translation fault. -/
def causeTranslation : Nat := 8
/-- Memory access fault. -/
def causeMemory : Nat := 9
/-- Poison outside a region. -/
def causePoison : Nat := 10
/-- Silent error. -/
def causeSilent : Nat := 11
/-- Region state. -/
def causeRegion : Nat := 12
/-- Divergence overflow. -/
def causeOverflow : Nat := 13
/-- Divergence deadlock. -/
def causeDeadlock : Nat := 14
/-- Queue deadlock. -/
def causeQueueDeadlock : Nat := 15
/-- Double fault. -/
def causeDouble : Nat := 16

/-- A c-slice trap as it is raised: one raised while a handler runs is a double fault (R124, R207). -/
def Gang.trapOfC (x : Gang) (r : Raised) : Raised := if x.mode = .user then r else { r with cause := causeDouble }

/-- Taking an exception, first part (R120, R121): the raising slice stops at its instruction with nothing changed, and the
trap waits until the other slice has stopped too. The controller's waits for its next boundary (R292). -/
def State.raise (s : State) (u : UnitId) (r : Raised) : State :=
  match u with
  | .a g => s.modGang g fun x => { x with trapA := some r, stopA := true, since := 0 }
  | .c g => s.modGang g fun x => { x with trapC := some (x.trapOfC r), stopC := true, since := 0 }
  | .m c => s.modCtl c fun x => { x with trap := some r, aaddr := none }

/-- A trap with its lanes the active ones and skip clear. -/
def State.raiseAt (s : State) (u : UnitId) (cause detail : Nat) (info : DWord) : State :=
  s.raise u ⟨cause, detail, info, s.active u, false, 4⟩

/-- The decode traps of R78 and R79: reserved slots raise cause 2, every other detail cause 1. -/
def State.raiseIllegal (s : State) (u : UnitId) (detail len : Nat) : State :=
  s.raise u ⟨if detail = 1 then causeReserved else causeIllegal, detail, 0, s.active u, false, len⟩

end Sys2Proof.Machine
end

