-- ==== Sys2Proof/Machine/Fragment.lean ====
section
/-! DEFINITION. Fragments and joins (R108 to R119, R478): the a-slice's fragment and join tables, and the c-slice's view of
them as `dq` tells it (R104, R167, R172). -/

namespace Sys2Proof.Machine

/-- A fragment entry. -/
def Gang.frag (x : Gang) (e : Nat) : Frag := tget e {} x.frags
/-- A gang with a fragment entry set. -/
def Gang.setFrag (x : Gang) (e : Nat) (f : Frag) : Gang := { x with frags := tset e f x.frags }
/-- A join record. -/
def Gang.join (x : Gang) (j : Nat) : Join := tget j {} x.joins

/-- The numbers of the fragment entries (R108). -/
def fragIdx : List Nat := List.range 8

/-- The lowest free fragment entry. -/
def Gang.freeFrag (x : Gang) : Option Nat := fragIdx.find? fun e => (x.frag e).state == .free
/-- The lowest free join record: one that awaits no lane (R109). -/
def Gang.freeJoin (x : Gang) : Option Nat :=
  (List.range 15).find? fun j => (x.join j).pending == 0 && !x.orphans.contains j

/-- An entry becomes ready, after every entry that is ready already (R108, R113). -/
def Gang.makeReady (x : Gang) (e : Nat) (f : Frag) : Gang :=
  { x.setFrag e { f with state := .ready, age := x.ages } with ages := x.ages + 1 }

/-- The entry that became ready earliest. -/
def Gang.earliest (x : Gang) : Option Nat :=
  (fragIdx.filter fun e => (x.frag e).state == .ready).foldl
    (fun best e => match best with
      | none => some e
      | some b => if (x.frag e).age < (x.frag b).age then some e else some b) none

/-- The release record of a join (R103). -/
def releaseRec (mask : Word) (j : Nat) : DRec := ⟨5, mask.zeroExtend 64 ||| (BitVec.ofNat 64 j <<< 32)⟩
/-- The switch record of a fragment change (R103). Where a merged fragment took a free entry, bit [8] and the fragment's lanes in bits
[63:32] tell the c-slice so (log entry 10). -/
def switchRec (e : Nat) (deferred : Bool) (j : Nat) (fresh : Option Word) : DRec :=
  ⟨4, BitVec.ofNat 64 (e + (if deferred then 8 else 0) + 16 * j
    + (match fresh with | some m => 256 + m.toNat * 2 ^ 32 | none => 0))⟩
/-- The decision record (R103). -/
def decisionRec (taken : Bool) : DRec := ⟨0, if taken then 1 else 0⟩

/-- With no fragment running, the earliest ready one begins to run, and the records that name it are pushed (R113). While a handler
runs in no fragment entry nothing is selected (R479). -/
def Gang.select (x : Gang) : Gang :=
  match x.cur with
  | some _ => x
  | none =>
    match if x.mode = .user then x.earliest else none with
    | none => x
    | some e =>
      let f := x.frag e
      let y := { x.setFrag e { f with state := .running, rel := none, fresh := false } with
        cur := some e, exmA := f.aexm, apc := f.apc, ran := 0 }
      match f.rel with
      | none => y.pushDq (switchRec e false 0 none)
      | some j => (y.pushDq (switchRec e false j (if f.fresh then some f.mask else none))).pushDq (releaseRec f.mask j)

/-- The running fragment stops in a state, with its pc and its `%exm` saved (R98, R113). -/
def Gang.leave (x : Gang) (st : FragState) (pc : VAddr) : Gang :=
  match x.cur with
  | none => x
  | some e =>
    let f := { x.frag e with aexm := x.exmA, apc := pc }
    let y := { x with cur := none }
    if st = .ready then y.makeReady e f else y.setFrag e { f with state := st }

/-- The entries that wait at a join. -/
def Gang.waitingAt (x : Gang) (j : Nat) : List Nat :=
  fragIdx.filter fun e => (x.frag e).state == .waiting && (x.frag e).join == j

/-- The union of the saved `%exm` values of some entries. -/
def Gang.exmOf (x : Gang) (es : List Nat) : Word := es.foldl (fun m e => m ||| (x.frag e).aexm) 0

/-- The merged fragment of a join that an exit or a kill completed, in an entry: ready, its release to come (R115, R478). -/
def Gang.merged (x : Gang) (e j : Nat) (exm : Word) (fresh : Bool) : Gang :=
  let r := x.join j
  { x.makeReady e { mask := r.arrived, aexm := exm, apc := r.rpc, join := r.outer, rel := some j, fresh := fresh } with
    monitors := tdel e x.monitors }

/-- An entry is freed, its monitor with it (R268); a merged fragment that waits for an entry takes it at once (R478). -/
def Gang.freeEntry (x : Gang) (e : Nat) : Gang :=
  let y := { x.setFrag e {} with monitors := tdel e x.monitors }
  match y.orphans with
  | [] => y
  | j :: rest =>
    let z := y.merged e j (y.join j).aArr true
    { z with orphans := rest, joins := tdel j z.joins }

/-- Several entries freed. -/
def freeEntries (x : Gang) : List Nat → Gang
  | [] => x
  | e :: es => freeEntries (x.freeEntry e) es

/-- A join that an exit or a kill completed (step 3 of R112 as R115 and R478 have it). -/
def Gang.complete (x : Gang) (j : Nat) : Gang :=
  let ws := x.waitingAt j
  let exm := x.exmOf ws ||| (x.join j).aArr
  let x := match x.cur with
    | some e => if (x.frag e).join = j then x.setFrag e { x.frag e with join := 15 } else x
    | none => x
  match ws with
  | e :: others =>
    let y := x.merged e j exm false
    freeEntries { y with joins := tdel j y.joins } others
  | [] =>
    match x.freeFrag with
    | some e => let y := x.merged e j exm true; { y with joins := tdel j y.joins }
    | none => { x with joins := tset j { x.join j with pending := 0, aArr := exm } x.joins, orphans := x.orphans ++ [j] }

/-- Joins after lanes have ended: an empty one is freed, a satisfied one completes (R115). -/
def settleJoins (x : Gang) : List Nat → Gang
  | [] => x
  | j :: js =>
    let r := x.join j
    if r.pending = 0 then settleJoins x js
    else if r.arrived = r.pending then settleJoins (x.complete j) js
    else settleJoins x js

/-- A join record without the lanes that have ended (R115). -/
def Join.keep (r : Join) (live : Word) : Join :=
  { r with pending := r.pending &&& live, arrived := r.arrived &&& live, dmask := r.dmask &&& live, aArr := r.aArr &&& live }

/-- Join records without the lanes that have ended: an empty one is freed, unless it holds a merged fragment (R115, R130, R478). -/
def dropEnded (live : Word) (held : List Nat) (js : Table Nat Join) : Table Nat Join :=
  (js.map fun p => (p.1, p.2.keep live)).filter fun p => p.2.pending != 0 || held.contains p.1

/-- Lanes end: they leave every join record, and joins settle; a merged fragment that waits for an entry and is left empty goes
(R115, R116, R478). -/
def Gang.endLanes (x : Gang) (m : Word) : Gang :=
  let held := x.orphans.filter fun j => (x.join j).arrived &&& ~~~m != 0
  let y := { x with live := x.live &&& ~~~m, joins := dropEnded (~~~m) held x.joins, orphans := held }
  settleJoins y (List.range 15)

/-- The end of the running fragment (R115): its lanes end, its entry is freed, and another fragment is selected, or the end
record is pushed when no lane is left. -/
def Gang.endFragment (x : Gang) : Gang :=
  match x.cur with
  | none => x
  | some e =>
    let y := x.endLanes (x.frag e).mask
    let y := { y with cur := none, region := none }
    let y : Gang := y.freeEntry e
    if y.live = 0 then { (y.pushDq ⟨6, 0⟩) with aEnd := true } else y.select

/-- Whether live lanes remain while nothing runs, is ready or is parked (R116). -/
def Gang.deadlocked (x : Gang) : Bool :=
  x.live != 0 && x.cur.isNone && !x.aEnd
    && fragIdx.all fun e => (x.frag e).state != .ready && (x.frag e).state != .parked

/-- Killed lanes leave their fragments in both slices (R116): an entry left empty that does not run is freed. -/
def Gang.kill (x : Gang) (m : Word) : Gang :=
  if m = 0 then x
  else
    let y := { x with frags := x.frags.map fun (p : Nat × Frag) => (p.1, { p.2 with mask := p.2.mask &&& ~~~m })
                      dead := x.dead ||| m }
    let y := y.endLanes m
    let empty := fragIdx.filter fun e =>
      (y.frag e).mask == 0 && (y.frag e).state != .free && (y.frag e).state != .running
    let y := freeEntries y empty
    if y.live = 0 && y.cur.isNone && !y.aEnd then { (y.pushDq ⟨6, 0⟩) with aEnd := true } else y.select

/-- The divergence-deadlock trap where it applies (R116). -/
def State.checkDeadlock (s : State) (g : GangId) : State :=
  if (s.gang g).deadlocked then s.raise (.a g) ⟨causeDeadlock, 0, 0, 0, false, 4⟩ else s

/-! ## Steps of the a-slice -/

/-- Whether an `mwait` of a fragment passes (R118, R269): a wake came, its monitor has been triggered, or it has none. -/
def Gang.woke (x : Gang) (e : Nat) : Bool :=
  (x.frag e).woken || (match tfind e x.monitors with | some m => m.hit | none => true)


/-- A quantum yield (R113): the fragment becomes ready at the branch, and another runs. A fragment with no lane ends (R116). -/
def Gang.quantum (x : Gang) : Gang :=
  if x.fragMask = 0 then x.endFragment else (x.leave .ready x.apc).select

/-- The running fragment completes its join (step 3 of R112). -/
def Gang.mergeRunning (x : Gang) (e j : Nat) (r : Join) (next : VAddr) : Gang :=
  let ws := x.waitingAt j
  let m := ws.foldl (fun a b => if b < a then b else a) e
  let exm := x.exmOf ws ||| x.exmA ||| r.aArr
  let others := (e :: ws).filter (fun n => n != m)
  let y := { x.setFrag m { state := .running, mask := r.arrived, aexm := exm, apc := next, join := r.outer } with
    cur := some m, exmA := exm, apc := next, joins := tdel j x.joins, monitors := tdel m x.monitors }
  (freeEntries y others).pushDq (releaseRec r.arrived j)

/-- The running fragment takes up its join's deferred path (step 4 of R112). -/
def Gang.takeDeferred (x : Gang) (e j : Nat) (r : Join) : Gang :=
  let f := x.frag e
  let y := { x with
    joins := tset j { r with aArr := r.aArr ||| x.exmA, defer := false, dmask := 0 } x.joins
    exmA := r.dmask, apc := r.dapc }
  (y.setFrag e { f with mask := r.dmask }).pushDq (switchRec e true j none)

/-- `rejoin` in the a-slice (R112); `next` is the address after it. A fragment with no lane yields at step 5, and so ends there, as
it does where its join record has been freed (R116). -/
def Gang.rejoin (x : Gang) (next : VAddr) : Gang :=
  match x.cur with
  | none => x
  | some e =>
    let f := x.frag e
    if f.join == 15 then { (x.pushDq (releaseRec f.mask 15)) with apc := next }
    else
      let r : Join := { x.join f.join with arrived := (x.join f.join).arrived ||| f.mask, rpc := next }
      let y := { x with joins := tset f.join r x.joins }
      if r.pending = 0 && f.mask = 0 then x.endFragment
      else if r.arrived = r.pending then y.mergeRunning e f.join r next
      else if r.defer then y.takeDeferred e f.join r
      else if f.mask = 0 then x.endFragment
      else (y.leave .waiting next).select

/-- The lanes that continue at a `brv` that splits (R110): the side with more lanes; on a tie, that of the lowest lane. -/
def continuesTaken (t n : Word) : Bool :=
  if laneCount t = laneCount n then
    match lowestLane (t ||| n) with
    | some l => t.getLsbD l
    | none => true
  else laneCount t > laneCount n

/-- The divergent record (R103). -/
def divergentRec (lanes : Word) (idx : Nat) (taken serial : Bool) : DRec :=
  ⟨1, lanes.zeroExtend 64 ||| (BitVec.ofNat 64 (idx + (if taken then 16 else 0) + (if serial then 32 else 0)) <<< 32)⟩

/-- `brv` in the a-slice (R110, R111, R166); none where no join record is free for a split. -/
def Gang.brv (x : Gang) (t n : Word) (target next : VAddr) : Option Gang :=
  if t = 0 || n = 0 then
    some { (x.pushDq (decisionRec (t != 0))) with apc := if t != 0 then target else next }
  else
    match x.cur, x.freeJoin with
    | some e, some j =>
      let f := x.frag e
      let r : Join := { pending := f.mask, outer := f.join }
      match x.freeFrag with
      | some d =>
        let taken := continuesTaken t n
        let side := if taken then n else t
        let keep := if taken then t else n
        let y := { x with joins := tset j r x.joins, exmA := x.exmA &&& keep, apc := if taken then target else next
                          monitors := tdel d x.monitors }
        let y := y.makeReady d { mask := side, aexm := side, apc := if taken then next else target, join := j }
        some ((y.setFrag e { f with mask := f.mask &&& ~~~side, join := j }).pushDq (divergentRec side d taken false))
      | none =>
        let y := { x with
          joins := tset j { r with defer := true, dmask := n, dapc := next } x.joins
          exmA := x.exmA &&& t, apc := target }
        some ((y.setFrag e { f with mask := f.mask &&& ~~~n, join := j }).pushDq (divergentRec n j true true))
    | _, _ => none

/-- Whether an effect on a gang pushes a `dq` record (R105). -/
def Gang.pushes (x y : Gang) : Bool := x.dq.length + x.dqNext.length < y.dq.length + y.dqNext.length

/-- `mwait` in the a-slice (R118): one whose wake has come pushes its decision, and any other is a yield point, where the fragment
parks, or ends where it has no lane (R113, R116). -/
def Gang.mwait (x : Gang) : Gang :=
  match x.cur with
  | none => x
  | some e =>
    if x.woke e then (x.setFrag e { x.frag e with woken := false }).pushDq (decisionRec false)
    else if x.fragMask = 0 then x.endFragment
    else (x.leave .parked x.apc).select

/-! ## Steps of the c-slice -/

/-- A field of a record's payload. -/
def DRec.field (r : DRec) (lo n : Nat) : Nat := (r.payload.extractLsb' lo n).toNat
/-- The lanes that a record names. -/
def DRec.lanes (r : DRec) : Word := r.payload.truncate 32

/-- The join record of a number that some lanes are released from (R109). -/
def CJoin.meets (c : CJoin) (j : Nat) (m : Word) : Bool := c.num == j && c.lanes &&& m != 0
/-- A list of the c-slice's join records with the first that a test accepts changed. -/
def changeFirst (p : CJoin → Bool) (f : CJoin → CJoin) : List CJoin → List CJoin
  | [] => []
  | c :: cs => if p c then f c :: cs else c :: changeFirst p f cs

/-- A switch record applied (R104): the popping instruction is not executed. -/
def Gang.cSwitch (x : Gang) (r : DRec) : Gang :=
  let e := r.field 0 3
  let j := r.field 4 4
  let saved : CFrag := { tget x.ccur {} x.cfrags with live := true, cexm := x.exmC, cpc := x.cpc }
  let x := { x.popDq with cfrags := tset x.ccur saved x.cfrags }
  let here (c : CJoin) : Bool := c.num == j
  if r.field 3 1 = 1 then
    let cj : CJoin := (x.cjoins.find? here).getD {}
    { x with
      cjoins := changeFirst here (fun c => { c with cArr := c.cArr ||| x.exmC, rpc := x.cpc }) x.cjoins
      cfrags := tset e { saved with mask := cj.dmask } x.cfrags
      cpc := cj.dcpc, exmC := cj.dmask, ccur := e }
  else if r.field 8 1 = 1 then
    let cj : CJoin := (x.cjoins.find? fun c => c.meets j (r.payload.extractLsb' 32 32)).getD {}
    { x with cfrags := tset e { live := true, cpc := cj.rpc } x.cfrags, cpc := cj.rpc, exmC := 0, ccur := e }
  else
    let f : CFrag := tget e {} x.cfrags
    { x with cpc := f.cpc, exmC := f.cexm, ccur := e }

/-- A divergent record followed by `brd` (R167). `%exm` loses the record's lanes, as R167 has it; R110 would have it lose every lane
outside the continuing side (log entry 36). -/
def Gang.cDiverge (x : Gang) (r : DRec) (target next : VAddr) : Gang :=
  let taken := r.field 36 1 == 1
  let idx := r.field 32 4
  let other := if taken then next else target
  let cur : CFrag := tget x.ccur {} x.cfrags
  let x := { x.popDq with
    cpc := if taken then target else next
    exmC := x.exmC &&& ~~~r.lanes
    cfrags := tset x.ccur { cur with mask := cur.mask &&& ~~~r.lanes } x.cfrags }
  if r.field 37 1 = 1 then
    { x with cjoins := { num := idx, lanes := cur.mask ||| r.lanes, dmask := r.lanes, dcpc := other } :: x.cjoins }
  else { x with cfrags := tset idx { live := true, mask := r.lanes, cexm := r.lanes, cpc := other } x.cfrags }

/-- A release record taken by the c-slice's `rejoin` (R172). -/
def Gang.cRelease (x : Gang) (r : DRec) (next : VAddr) : Gang :=
  let j := r.field 32 4
  let x := { x.popDq with cpc := next }
  if j = 15 then x
  else
    let m := r.lanes
    let es := fragIdx.filter fun e =>
      e ≠ x.ccur && (tget e {} x.cfrags).live && (tget e {} x.cfrags).mask &&& m != 0
    let saved := es.foldl (fun w e => w ||| (tget e {} x.cfrags).cexm) 0
    let n := es.foldl (fun a b => if b < a then b else a) x.ccur
    let kept := x.cfrags.filter fun p => !(es.contains p.1) && p.1 ≠ x.ccur
    { x with
      exmC := (x.exmC ||| saved ||| ((x.cjoins.find? fun c => c.meets j m).getD {}).cArr) &&& m
      cfrags := tset n { live := true, mask := m } kept
      cjoins := x.cjoins.filter fun c => !c.meets j m
      ccur := n }

end Sys2Proof.Machine
end

