-- ==== Sys2Proof/Machine/Memory.lean ====
section
/-! DEFINITION. Memory: one list of bytes in canonical form, the keys by which every memory of every package is named in it,
poison marks and full-empty bits by 16-byte granule, and the things that a write performed at a home sets off. -/

namespace Sys2Proof.Machine

/-! ## Keys: where each memory lies in the one list (log entry 1) -/

/-- The key of a physical address of a package (R375). -/
def hbmKey (p pa : Nat) : Nat := p * 2 ^ 64 + pa
/-- The key of a byte of a die's scratchpad (R329). -/
def dieKey (d : DieId) (off : Nat) : Nat := d.pkg * 2 ^ 64 + 2 ^ 56 + d.die * 2 ^ 25 + off
/-- The key of a byte of a cluster's memory (R272). -/
def cluKey (c : CluId) (off : Nat) : Nat := c.pkg * 2 ^ 64 + 2 * 2 ^ 56 + (c.die * 64 + c.clu) * 2 ^ 22 + off
/-- The number of a core within its package. -/
def coreNumber (c : CoreId) : Nat := (c.die * 64 + c.clu) * 8 + c.core
/-- The key of a byte of a core's scratchpad (R186). -/
def coreKey (c : CoreId) (off : Nat) : Nat := c.pkg * 2 ^ 64 + 3 * 2 ^ 56 + coreNumber c * 2 ^ 18 + off
/-- The key of a byte of a core's supervisor window, counted from its start (R194). -/
def winKey (c : CoreId) (off : Nat) : Nat := c.pkg * 2 ^ 64 + 4 * 2 ^ 56 + coreNumber c * 2 ^ 18 + off

/-- Which memory a key names: 0 physical, 1 die scratchpad, 2 cluster memory, 3 core scratchpad, 4 supervisor window. -/
def keyRegion (k : Nat) : Nat := k % 2 ^ 64 / 2 ^ 56
/-- The package of a key. -/
def keyPkg (k : Nat) : Nat := k / 2 ^ 64
/-- The physical address of a key. -/
def keyPa (k : Nat) : Nat := k % 2 ^ 64
/-- The core whose window a key lies in. -/
def keyCore (k : Nat) : CoreId :=
  let n := k % 2 ^ 56 / 2 ^ 18
  ⟨keyPkg k, n / 512, n / 8 % 64, n % 8⟩

/-- Bytes of HBM of a package: 1,152 GiB (R375). -/
def hbmSize : Nat := 0x12000000000
/-- Where the die control blocks begin (R375). -/
def dieBlocks : Nat := 0xFFFF000000000
/-- Where the package control block begins (R375). -/
def pkgBlock : Nat := 0xFFFF000100000

/-- What a physical address names (R375). -/
inductive PaKind where
  | hbm
  | die (n off : Nat)
  | pkg (off : Nat)
  | nothing
deriving DecidableEq, Repr

/-- The range of R375 that holds a physical address. -/
def paKind (pa : Nat) : PaKind :=
  if pa < hbmSize then .hbm
  else if dieBlocks ≤ pa && pa < dieBlocks + 12 * 0x10000 then .die ((pa - dieBlocks) / 0x10000) ((pa - dieBlocks) % 0x10000)
  else if pkgBlock ≤ pa && pa < pkgBlock + 0x100000 then .pkg (pa - pkgBlock)
  else .nothing

/-- Whether a key lies in a page of a control block that must be mapped without user access: every page of the die blocks, and of
the package block all but the pages of group entries, of phaser entries and of notify registers (R330, R384, R475). -/
def noUserPage (k : Nat) : Bool :=
  keyRegion k == 0 && match paKind (keyPa k) with
    | .hbm => false
    | .pkg off => !((0x20000 ≤ off && off < 0x60000) || 0x80000 ≤ off)
    | .die _ _ | .nothing => true

/-- Whether a key names HBM. -/
def isHbm (k : Nat) : Bool := keyRegion k == 0 && decide (keyPa k < hbmSize)

/-! ## Bytes -/

/-- The byte at a key; an unlisted one reads 0 (log entry 1). -/
def memGet (k : Nat) : List Host.Cell → Byte
  | [] => 0
  | (a, b) :: t => if a = k then b else if k < a then 0 else memGet k t

/-- Memory with one byte written, in canonical form. -/
def memPut (k : Nat) (b : Byte) : List Host.Cell → List Host.Cell
  | [] => if b = 0 then [] else [(k, b)]
  | (a, c) :: t =>
    if a < k then (a, c) :: memPut k b t
    else if a = k then (if b = 0 then t else (k, b) :: t)
    else if b = 0 then (a, c) :: t else (k, b) :: (a, c) :: t

/-- Whether every address listed lies above a bound, rising strictly, and no listed byte is zero. -/
def memWfFrom (lo : Nat) : List Host.Cell → Bool
  | [] => true
  | (a, b) :: t => decide (lo ≤ a) && b != 0 && memWfFrom (a + 1) t

/-- The canonical form of memory. -/
def Memory.wf (m : List Host.Cell) : Bool := memWfFrom 0 m

/-- Bytes written at rising keys. -/
def memPuts (k : Nat) : List Byte → List Host.Cell → List Host.Cell
  | [], m => m
  | b :: bs, m => memPuts (k + 1) bs (memPut k b m)

/-- Memory with a range of keys zero again. -/
def memZero (lo n : Nat) (m : List Host.Cell) : List Host.Cell := m.filter fun c => c.1 < lo || lo + n ≤ c.1

/-- A byte of the machine's memory. -/
def State.readByte (s : State) (k : Nat) : Byte := memGet k s.mem

/-- The bytes from a key on. -/
def State.readBytes (s : State) (k : Nat) : Nat → List Byte
  | 0 => []
  | n + 1 => s.readByte k :: s.readBytes (k + 1) n

/-- A number from bytes, little-endian (R3). -/
def numOf : List Byte → Nat
  | [] => 0
  | b :: bs => b.toNat + 256 * numOf bs

/-- The low bytes of a number, little-endian (R3). -/
def bytesOfNum (v : Nat) : Nat → List Byte
  | 0 => []
  | n + 1 => BitVec.ofNat 8 v :: bytesOfNum (v / 256) n

/-- A number of some bytes in memory. -/
def State.readNum (s : State) (k n : Nat) : Nat := numOf (s.readBytes k n)

/-- The granules of 16 bytes that a range touches (R195). -/
def granules (k n : Nat) : List Nat := (List.range ((k + n - 1) / 16 - k / 16 + 1)).map fun i => k / 16 + i

/-- Whether a range touches a marked granule (R197, R327). -/
def State.markedAt (s : State) (k n : Nat) : Bool := (granules k n).any s.marks.contains

/-- Marks after a write: a write that replaces a whole granule sets its mark to the data's; any other write marks a granule
only where its data is marked (R197, R327). -/
def marksAfter (k n : Nat) (poison : Bool) (ms : List Nat) : List Nat :=
  let gs := granules k n
  if poison then gs.filter (fun g => !ms.contains g) ++ ms
  else ms.filter fun g => !(gs.contains g && decide (k ≤ 16 * g) && decide (16 * g + 16 ≤ k + n))

/-- Bytes and marks written, with nothing set off. -/
def State.rawWrite (s : State) (k : Nat) (bs : List Byte) (poison : Bool) : State :=
  { s with mem := memPuts k bs s.mem, marks := marksAfter k bs.length poison s.marks }

/-- Whether a step of the head has begun: it completes, and keeps its lines (R288, R291). -/
def Ctl.begun (x : Ctl) : Bool := !x.seen.isEmpty || x.applying.isSome || x.row != 0

/-- A range made zero, empty and unmarked (R187, R273, R329). -/
def State.clearRange (s : State) (k n : Nat) : State :=
  { s with
    mem := memZero k n s.mem
    full := s.full.filter fun g => 16 * g < k || k + n ≤ 16 * g
    marks := s.marks.filter fun g => 16 * g < k || k + n ≤ 16 * g }

/-! ## What a write performed at a home sets off -/

/-- A fragment's monitor is triggered: a parked fragment wakes (R118, R269). -/
def Gang.hitMonitor (x : Gang) (e : Nat) (m : Monitor) : Gang :=
  let y := { x with monitors := tset e { m with hit := true } x.monitors }
  if (y.frag e).state = .parked then (y.makeReady e { y.frag e with woken := true }).select else y

/-- The monitors of a gang triggered by a write of some lines (R267). -/
def Gang.triggerMonitor (x : Gang) (lo hi : Nat) : List (Nat × Monitor) → Gang
  | [] => x
  | (e, m) :: rest =>
    (if m.lines.any (fun l => lo ≤ l && l ≤ hi) then x.hitMonitor e m else x).triggerMonitor lo hi rest

/-- Every monitor on a line that a write touches is triggered (R267). -/
def State.triggerMonitors (s : State) (k n : Nat) : State :=
  { s with gangs := s.gangs.map fun (p : GangId × Gang) =>
      (p.1, if p.2.monitors.isEmpty then p.2 else p.2.triggerMonitor (k / 64) ((k + n - 1) / 64) p.2.monitors) }

/-- Whether a completion count has met a target (R333). -/
def countMet (word target : Nat) : Bool := (word % 2 ^ 48 + 2 ^ 48 - target % 2 ^ 48) % 2 ^ 48 < 2 ^ 47

/-- The operations assigned to an engine. -/
def Die.engine (x : Die) (e : Nat) : List CopyOp := tget e [] x.engines

/-- The engine with the fewest operations, the lowest number breaking ties (R332). -/
def Die.leastEngine (x : Die) : Nat :=
  (List.range 4).foldl (fun b e => if (x.engine e).length < (x.engine b).length then e else b) 0

/-- An operation enters the operation queue and is assigned to an engine (R332). -/
def Die.enterOp (x : Die) (o : CopyOp) : Die :=
  let e := x.leastEngine
  { x with engines := tset e (x.engine e ++ [o]) x.engines }

/-- The number of elements of an operation (R336). -/
def CopyOp.total (o : CopyOp) : Nat := o.dims.foldl (fun n d => n * d.count) 1

/-- A trigger word evaluated (R339): a failed object fires the operation and completes it at once, writing nothing. -/
def CopyOp.fire (o : CopyOp) (word : Nat) : Option CopyOp :=
  if word / 2 ^ 63 % 2 = 1 then some { o with done := o.total, fault := true }
  else if countMet word o.threshold then some o
  else none

/-- Where a die keeps operations that have nothing left but to be counted: ended at once by their trigger (R339), or restored so. -/
def endedList : Nat := 4
/-- Where a die keeps operations that have fired and wait for the agent's writes or for a free entry of the queue (R237, R332). -/
def firedList : Nat := 5

/-- An operation added to one of a die's lists. -/
def Die.addOp (x : Die) (e : Nat) (o : CopyOp) : Die := { x with engines := tset e (x.engine e ++ [o]) x.engines }

/-- An operation that has fired: one whose trigger failed completes at once, and another is about to enter the queue (R339). -/
def Die.fired (x : Die) (o : CopyOp) : Die := x.addOp (if o.fault then endedList else firedList) o

/-- The word of a trigger as an evaluation reads it: one that reads marked counts as failed (R327, R339; log entry 18). -/
def State.triggerWord (s : State) (k : Nat) : Nat := if s.markedAt k 8 then 2 ^ 63 else s.readNum k 8

/-- The armed operations of a die whose trigger a write touched, evaluated in their order of arming (R339). -/
def State.fireArmed (s : State) (k n : Nat) (d : DieId) : List CopyOp → State
  | [] => s
  | o :: rest =>
    let s :=
      if o.trig < k + n && k < o.trig + 8 then
        match o.fire (s.triggerWord o.trig) with
        | some o' => s.modDie d fun x => { x with armed := x.armed.filter (fun y => y.id ≠ o.id) }.fired { o' with before := s.nextId }
        | none => s
      else s
    s.fireArmed k n d rest

/-- Armed operations of every die of the machine, after a write (R339). -/
def State.fireTriggers (s : State) (k n : Nat) : List (DieId × Die) → State
  | [] => s
  | (d, x) :: rest => (if x.armed.isEmpty then s else s.fireArmed k n d x.armed).fireTriggers k n rest

/-- A wait after a write of some bytes: a `cwait` on a word among them whose count has met its target, or that has failed, is over.
A word that the write leaves marked is evaluated by its home next, which writes it failed (R333, R364). -/
def State.metWait (s : State) (k n : Nat) (w : Option Wait) : Option Wait :=
  match w with
  | some (.cwait a h target) =>
    if a < k + n && k < a + 8 && !s.markedAt a 8 && (s.readNum a 8 / 2 ^ 63 % 2 = 1 || countMet (s.readNum a 8) target) then some .counted
    else some (.cwait a h target)
  | w => w

/-- Every waiting `cwait` evaluated after a write at its word's home (R364). -/
def State.meetCwaits (s : State) (k n : Nat) : State :=
  { s with
    gangs := s.gangs.map fun (p : GangId × Gang) => (p.1, { p.2 with wait := s.metWait k n p.2.wait })
    clus := s.clus.map fun (p : CluId × Clu) => (p.1, { p.2 with ctl := { p.2.ctl with wait := s.metWait k n p.2.ctl.wait } }) }

/-- The sizes of pages by their code (R347), as base-two logarithms. -/
def pageLg (code : Nat) : Nat := if code = 0 then 13 else if code = 1 then 16 else if code = 2 then 21 else 29

/-- A write to the old frame of a migration that copies marks its granules dirty (R382). -/
def Pkg.dirtied (x : Pkg) (pa n : Nat) : Pkg :=
  let m := x.mig
  let size := 2 ^ m.lg
  if m.state = .copying || m.state = .final then
    let gs := (granules pa n).filter fun g => m.old ≤ 16 * g && 16 * g < m.old + size
    let gs := (gs.map fun g => g - m.old / 16).filter fun g => !m.dirty.contains g
    { x with mig := { m with dirty := m.dirty ++ gs } }
  else x

/-- A write performed at its home: the bytes, and what the write sets off (R217, R267, R339, R364, R382). -/
def State.writeHome (s : State) (k : Nat) (bs : List Byte) (poison : Bool) : State :=
  let n := bs.length
  let s := s.rawWrite k bs poison
  if n = 0 || !isHbm k then s
  else
    let s := ((s.triggerMonitors k n).fireTriggers k n s.dies).meetCwaits k n
    if (tfind (keyPkg k) s.pkgs).any (fun x => x.mig.state = .copying || x.mig.state = .final) then
      s.modPkg (keyPkg k) fun x => x.dirtied (keyPa k) n
    else s

/-- Whether a place cannot be accessed just now: its frame is being zeroed (R379) or is in the final pass of a migration
(R381). -/
def State.placeWaits (s : State) (k n : Nat) : Bool :=
  if !isHbm k then false
  else
    match tfind (keyPkg k) s.pkgs with
    | none => false
    | some x =>
      let pa := keyPa k
      x.zeroing.any (fun z => z.1 < pa + n && pa < z.1 + z.2)
        || (x.mig.state = .final && x.mig.old < pa + n && pa < x.mig.old + 2 ^ x.mig.lg)

end Sys2Proof.Machine
end

