-- ==== Sys2Proof/Machine/Flags.lean ====
section
/-! DEFINITION. Masks and conditions: this hardware keeps no flags (R22); a comparison produces a mask (R138), and a branch
tests a mask or a scalar (R163). -/

namespace Sys2Proof.Machine

/-- The value P of a mask producer (R138): bit n is lane n's result where the lane is active, and 0 elsewhere. -/
def maskValue (act : Word) (f : Nat → Bool) : Word := act &&& maskOf f

/-- A mask register after a mask producer: bits of inactive lanes keep their value (R138). -/
def mergeMask (old act p : Word) : Word := (old &&& ~~~act) ||| p

/-- The condition of `brc` in the a-slice (R163). -/
def condMask (cc : Nat) (k act : Word) : Bool :=
  let v := k &&& act
  match cc with
  | 0 => v != 0
  | 1 => v == act
  | 2 => v == 0
  | _ => v != act

/-- The condition of `brc` in the controller (R163). -/
def condScalar (cc : Nat) (m : DWord) : Bool :=
  match cc with
  | 0 => m != 0
  | 1 => m == 0
  | 2 => m.msb
  | _ => !m.msb

/-- `vote.all` over the active lanes (R146). -/
def voteAllOf (act k : Word) : Bool := act &&& ~~~k == 0
/-- `vote.any` over the active lanes (R146). -/
def voteAnyOf (act k : Word) : Bool := act &&& k != 0

end Sys2Proof.Machine
end

