-- ==== Sys2Proof/Machine/Operands.lean ====
section
/-! DEFINITION. The operand forms of a lane operation (R60 to R63, R133 to R138): where its sources come from, when a queue
makes it wait, where its result goes, and what it pops. -/

namespace Sys2Proof.Machine

/-- What makes an instruction wait (R102, R105, R106, R127, R177). -/
inductive Stall where
  /-- The queue that it pops, by its code of R63, is empty. -/
  | pop (q : Nat)
  /-- The queue of a sink bit is full. -/
  | push (b : Nat)
  /-- The slip limit (R105). -/
  | slip
  /-- The store hold is full, its oldest access waiting on a queue (R106). -/
  | hold (q : Nat)
  /-- The other slice has not reached its `gsync` (R177). -/
  | gsync
  /-- The c-slice has not popped the region record (R129). -/
  | region
  /-- A source or destination is not available yet, or earlier accesses must be performed first (R188, R254). -/
  | other
deriving DecidableEq, Repr, Inhabited

/-- The sources of a lane operation, lane by lane, with the active lanes and the masks of the unit. -/
structure LaneEnv where
  act : Word
  a : Nat → DWord
  b : Nat → DWord
  d : Nat → DWord
  k : Nat → Word

end Sys2Proof.Machine

namespace Sys2Proof
open Machine

/-- Whether field a names a mask, or with a queue the mask record of `dq` (R63, R146). -/
def LaneForm.masky (f : LaneForm) : Bool :=
  match f.aOp with
  | .ty _ => false
  | _ => true

/-- The value type of field a. -/
def LaneForm.aTy (f : LaneForm) : Ty :=
  match f.aOp with
  | .ty t => t
  | .mskVal t => t
  | .msk => .b32

/-- The value type of field b. -/
def LaneForm.bTy (f : LaneForm) : Ty :=
  match f.bOp with
  | .reg t => t
  | _ => .b32

/-- How many entries a queue source pops: two for a 64-bit type (R63). -/
def LaneForm.pops (f : LaneForm) : Nat := if f.aTy.wide then 2 else 1

/-- How many entries a result pushes into each queue of its sink (R61). -/
def LaneForm.pushes (f : LaneForm) : Nat :=
  match f.dOp with
  | .mask => 1
  | _ => if f.res.wide then 2 else 1

end Sys2Proof

namespace Sys2Proof.Machine

/-- The gang of a slice; the controller has none. -/
def State.gangOf (s : State) (u : UnitId) : Gang :=
  match u with
  | .a g => s.gang g
  | .c g => s.gang g
  | .m _ => {}

end Sys2Proof.Machine

namespace Sys2Proof
open Machine

/-- The popped entries of a lane operation's queue source. -/
def LaneForm.entries (f : LaneForm) (s : State) (u : UnitId) : List QEntry :=
  ((s.gangOf u).readQueue u.kind f.a.toNat).take f.pops

/-- The a operand in a lane: a register, a queue entry low word first, a mask, or a mask record (R63, R101). -/
def LaneForm.readA (f : LaneForm) (s : State) (u : UnitId) (n : Nat) : Val :=
  if f.q = 1 then
    if f.masky then ⟨(((s.gangOf u).dq.headD ⟨3, 0⟩).payload.truncate 32).zeroExtend 64, false⟩
    else
      match f.entries s u with
      | [lo, hi] => ⟨(hi.word n).bits ++ (lo.word n).bits, (hi.word n).poison || (lo.word n).poison⟩
      | [lo] => ⟨(lo.word n).bits.zeroExtend 64, (lo.word n).poison⟩
      | _ => {}
  else
    match f.aOp with
    | .msk => ⟨(s.readMask u f.a.toNat).zeroExtend 64, false⟩
    | _ => s.readReg u f.aTy f.a.toNat n

/-- The b operand in a lane. -/
def LaneForm.readB (f : LaneForm) (s : State) (u : UnitId) (n : Nat) : Val :=
  match f.bOp with
  | .reg t => s.readReg u t f.b.toNat n
  | .msk => ⟨(s.readMask u f.b.toNat).zeroExtend 64, false⟩
  | .none => {}

/-- The third source in a lane, for a form that has one. -/
def LaneForm.readD (f : LaneForm) (s : State) (u : UnitId) (n : Nat) : Val :=
  match f.dOp with
  | .acc => s.readReg u f.res f.d.toNat n
  | _ => {}

/-- All sources read before any destination is written (R133). -/
def LaneForm.env (f : LaneForm) (s : State) (u : UnitId) : LaneEnv :=
  ⟨s.active u, fun n => (f.readA s u n).bits, fun n => (f.readB s u n).bits, fun n => (f.readD s u n).bits,
    fun k => s.readMask u k⟩

end Sys2Proof

namespace Sys2Proof.Machine

/-- The first of a list of tests that holds. -/
def firstStall : List (Bool × Stall) → Option Stall
  | [] => none
  | (c, st) :: rest => if c then some st else firstStall rest

/-- Whether an earlier load of a gang has still to push into a load queue: what a later instruction pushes there comes after it
(R102, R252). -/
def State.queuedLoad (s : State) (g : GangId) (n : Nat) : Bool := s.flight.any fun a => a.gang == g && a.dest == .queue n

/-- Whether the entries of the queue that the a-slice reads under a code are for a held store or atomic, which comes before (R102,
R106). -/
def Gang.spokenFor (x : Gang) (code : Nat) : Bool := code != 0 && x.hold.any fun h => h.waitsOn == some (code - 1)

/-- Whether an a-slice instruction comes later in the order of a queue that its sink bit names than a load in flight (R102). -/
def State.pushWaits (s : State) (u : UnitId) (b : Nat) : Bool :=
  match u with
  | .a g => s.queuedLoad g (b - 1)
  | _ => false

end Sys2Proof.Machine

namespace Sys2Proof
open Machine

/-- What makes a lane operation wait on its queues (R102, R105, R106). -/
def LaneForm.stall (f : LaneForm) (s : State) (u : UnitId) : Option Stall :=
  let x := s.gangOf u
  let sink (b : Nat) : Bool := f.sk.getLsbD b && decide (x.room u.kind b < f.pushes)
  match u with
  | .m _ => none
  | _ =>
    firstStall
      [(f.q = 1 && f.masky && x.dq.isEmpty, .pop 4),
       (f.q = 1 && !f.masky && decide ((f.entries s u).length < f.pops), .pop f.a.toNat),
       (f.q = 1 && !f.masky && u.kind = .A && x.spokenFor f.a.toNat, .pop f.a.toNat),
       (f.sk.getLsbD 1 && s.pushWaits u 1, .other), (f.sk.getLsbD 2 && s.pushWaits u 2, .other),
       (sink 1, .push 0), (sink 2, .push 1),
       (sink 3, if u.kind = .A then .slip else .push 2)]

/-- The `dq` head that `kop` meets is no mask record (R63, R104): its kind, the detail of the queue-misuse trap. -/
def LaneForm.misuse (f : LaneForm) (s : State) (u : UnitId) : Option Nat :=
  if f.q = 1 && f.masky then
    match (s.gangOf u).dq with
    | r :: _ => if r.kind = 3 then none else some r.kind
    | [] => none
  else none

/-- The queue source popped (R63). -/
def LaneForm.pop (f : LaneForm) (s : State) (u : UnitId) : State :=
  if f.q = 0 then s
  else
    match u with
    | .a g => s.modGang g fun x => x.setQueue .A f.a.toNat ((x.readQueue .A f.a.toNat).drop f.pops)
    | .c g =>
      s.modGang g fun x =>
        if f.masky then x.popDq else x.setQueue .C f.a.toNat ((x.readQueue .C f.a.toNat).drop f.pops)
    | .m _ => s

/-- The entries that a value result pushes: its low word, then for a 64-bit type its high word (R61). -/
def LaneForm.resultEntries (f : LaneForm) (act : Word) (r : Nat → DWord) : List QEntry :=
  let lo := entryOf act fun n => (extendResult .C f.res (r n)).truncate 32
  if f.res.wide then [lo, entryOf act fun n => (r n).extractLsb' 32 32] else [lo]

end Sys2Proof

namespace Sys2Proof.Machine

/-- Entries pushed into every queue that sink bits 1 to 3 name. -/
def pushSinks (sk : BitVec 4) (es : List QEntry) (s : State) (u : UnitId) : State :=
  match u with
  | .a g =>
    s.modGang g fun x =>
      let x := if sk.getLsbD 1 then x.push .A 1 es else x
      if sk.getLsbD 2 then x.push .A 2 es else x
  | .c g =>
    s.modGang g fun x =>
      let x := if sk.getLsbD 1 then x.push .C 1 es else x
      let x := if sk.getLsbD 2 then x.push .C 2 es else x
      if sk.getLsbD 3 then x.push .C 3 es else x
  | .m _ => s

end Sys2Proof.Machine

namespace Sys2Proof
open Machine

/-- A value result delivered to every consumer of its sink (R61, R133). -/
def LaneForm.deliver (f : LaneForm) (s : State) (u : UnitId) (act : Word) (r : Nat → DWord) : State :=
  let s := if f.sk.getLsbD 0 then s.writeReg u f.res f.d.toNat act r else s
  pushSinks f.sk (f.resultEntries act r) s u

/-- A mask result delivered (R138, R62): into kd, onto `dq` from the a-slice, or onto `fq` from the c-slice, where every
lane's word holds the mask and every valid bit is set. -/
def LaneForm.deliverMask (f : LaneForm) (s : State) (u : UnitId) (act p : Word) : State :=
  let k := f.d.toNat % 8
  let s := if f.sk.getLsbD 0 then s.writeMask u k (mergeMask (s.readMask u k) act p) else s
  if f.sk.getLsbD 3 then
    match u with
    | .a g => s.modGang g fun x => x.pushDq ⟨3, p.zeroExtend 64⟩
    | .c g => s.modGang g fun x => x.push .C 3 [entryOf (BitVec.allOnes 32) fun _ => p]
    | .m _ => s
  else s

end Sys2Proof

namespace Sys2Proof.Machine

/-- The source lane of a cross-lane instruction in lane n (R156); every other instruction reads its own lane. -/
def sourceLane (i : Instr) (b : Nat → DWord) (n : Nat) : Nat :=
  match i with
  | .shflIdx _ _ _ _ _ => (b n).toNat % 32
  | .shflUp _ _ _ _ _ => if (b n).toNat % 64 ≤ n then n - (b n).toNat % 64 else n
  | .shflDn _ _ _ _ _ => if n + (b n).toNat % 64 ≤ 31 then n + (b n).toNat % 64 else n
  | .shflXor _ _ _ _ _ => (BitVec.ofNat 5 n ^^^ BitVec.ofNat 5 (b n).toNat).toNat
  | .rotUp _ _ _ _ _ => (n + 32 - (b n).toNat % 32) % 32
  | .rotDn _ _ _ _ _ => (n + (b n).toNat % 32) % 32
  | .bcast _ l _ _ _ => l.toNat
  | _ => n

end Sys2Proof.Machine

namespace Sys2Proof
open Machine

/-- Whether an active lane of a lane operation uses a marked value (R130, R255). -/
def LaneForm.marked (f : LaneForm) (i : Instr) (s : State) (u : UnitId) : Bool :=
  (lanesOf (s.active u)).any fun n =>
    (f.readB s u n).poison || (f.readD s u n).poison
      || (f.readA s u (sourceLane i (fun m => (f.readB s u m).bits) n)).poison

end Sys2Proof
end

