-- ==== Sys2Proof/Machine/Ready.lean ====
section
/-! DEFINITION. When a unit can issue, and what holds its next instruction (R102, R105, R106, R177, R188). A waiting
instruction has changed nothing. -/

namespace Sys2Proof.Machine

/-! ## The register codes that an instruction names -/

/-- The codes of a pair. -/
def pairOf (d : BitVec 6) : List Nat := [d.toNat, d.toNat + 1]

/-- The data register of a load or a store, or its pair for sixteen bytes (R251); with q = 1 it names a queue. -/
def dataCodes (q : BitVec 1) (z : BitVec 3) (d : BitVec 6) : List Nat := if q = 1 then [] else if z = 6 then pairOf d else [d.toNat]
/-- The data register of a fabric instruction, or its pair for sixteen bytes (R448). -/
def fabricCodes (z : BitVec 2) (d : BitVec 6) : List Nat := if z = 2 then pairOf d else [d.toNat]

/-- The register codes that an a-slice instruction reads or writes: those that the scoreboard tracks (R188). -/
def regCodes (i : Instr) : List Nat :=
  match i.laneForm .A with
  | some f =>
    (match f.aOp with
      | .msk => []
      | _ => if f.q = 0 then [f.a.toNat] else [])
      ++ (match f.bOp with
          | .reg _ => [f.b.toNat]
          | _ => [])
      ++ (match f.dOp with
          | .mask => []
          | .acc => [f.d.toNat]
          | .dst => if f.sk.getLsbD 0 then [f.d.toNat] else [])
  | none =>
    match i with
    | .mov16 d b => [d.toNat, b.toNat]
    | .add16 d b => [d.toNat, b.toNat]
    | .sub16 d b => [d.toNat, b.toNat]
    | .mul16 d b => [d.toNat, b.toNat]
    | .and16 d b => [d.toNat, b.toNat]
    | .or16 d b => [d.toNat, b.toNat]
    | .xor16 d b => [d.toNat, b.toNat]
    | .shl16 d b => [d.toNat, b.toNat]
    | .shr16 d b => [d.toNat, b.toNat]
    | .sar16 d b => [d.toNat, b.toNat]
    | .min16 d b => [d.toNat, b.toNat]
    | .max16 d b => [d.toNat, b.toNat]
    | .fadd16 d b => [d.toNat, b.toNat]
    | .fsub16 d b => [d.toNat, b.toNat]
    | .fmul16 d b => [d.toNat, b.toNat]
    | .fmax16 d b => [d.toNat, b.toNat]
    | .movImm _ d => [d.toNat]
    | .addImm _ d => [d.toNat]
    | .mulImm _ d => [d.toNat]
    | .andImm _ d => [d.toNat]
    | .orImm _ d => [d.toNat]
    | .xorImm _ d => [d.toNat]
    | .shlImm _ d => [d.toNat]
    | .shrImm _ d => [d.toNat]
    | .sarImm _ d => [d.toNat]
    | .minImm _ d => [d.toNat]
    | .maxImm _ d => [d.toNat]
    | .movh _ _ d => [d.toNat]
    | .fmovImm _ d => [d.toNat]
    | .faddImm _ d => [d.toNat]
    | .fmulImm _ d => [d.toNat]
    | .fmaxImm _ d => [d.toNat]
    | .ld _ q _ z a d => a.toNat :: dataCodes q z d
    | .ldFe _ q _ z a d => a.toNat :: dataCodes q z d
    | .ldFec _ q _ z a d => a.toNat :: dataCodes q z d
    | .st _ q _ z a d => a.toNat :: dataCodes q z d
    | .stFe _ q _ z a d => a.toNat :: dataCodes q z d
    | .atomAdd _ _ b a d => [b.toNat, a.toNat, d.toNat]
    | .atomMin _ _ b a d => [b.toNat, a.toNat, d.toNat]
    | .atomMax _ _ b a d => [b.toNat, a.toNat, d.toNat]
    | .atomAnd _ _ b a d => [b.toNat, a.toNat, d.toNat]
    | .atomOr _ _ b a d => [b.toNat, a.toNat, d.toNat]
    | .atomXor _ _ b a d => [b.toNat, a.toNat, d.toNat]
    | .atomExch _ _ b a d => [b.toNat, a.toNat, d.toNat]
    | .atomCas _ _ b a d => [b.toNat, a.toNat, d.toNat]
    | .fatomAdd _ _ b a d => [b.toNat, a.toNat, d.toNat]
    | .fatomMin _ _ b a d => [b.toNat, a.toNat, d.toNat]
    | .fatomMax _ _ b a d => [b.toNat, a.toNat, d.toNat]
    | .redAdd _ _ b a => [b.toNat, a.toNat]
    | .redMin _ _ b a => [b.toNat, a.toNat]
    | .redMax _ _ b a => [b.toNat, a.toNat]
    | .redAnd _ _ b a => [b.toNat, a.toNat]
    | .redOr _ _ b a => [b.toNat, a.toNat]
    | .redXor _ _ b a => [b.toNat, a.toNat]
    | .fredAdd _ _ b a => [b.toNat, a.toNat]
    | .fredMin _ _ b a => [b.toNat, a.toNat]
    | .fredMax _ _ b a => [b.toNat, a.toNat]
    | .call _ _ => [63]
    | .ret => [63]
    | .jmpi b a p => a.toNat :: (if p = 1 then [b.toNat] else [])
    | .qpeek _ d => [d.toNat]
    | .qcount _ d => [d.toNat]
    | .gsyncMask a => [a.toNat]
    | .chkQ d => [d.toNat]
    | .rdsr _ d => [d.toNat]
    | .wrsr b _ => [b.toNat]
    | .acq a => [a.toNat]
    | .rel a => [a.toNat]
    | .bind b a d => [b.toNat, a.toNat, d.toNat]
    | .unbind a => [a.toNat]
    | .mon a => [a.toNat]
    | .pfL1 a => [a.toNat]
    | .pfL2 a => [a.toNat]
    | .copy b a d => [b.toNat, a.toNat, d.toNat]
    | .tcopy a d => [a.toNat, d.toNat]
    | .copyt b a d => [b.toNat, a.toNat] ++ pairOf d
    | .cwait b a => [b.toNat, a.toNat]
    | .enq b a => [b.toNat, a.toNat]
    | .deq a d => a.toNat :: pairOf d
    | .deqt b a d => [b.toNat, a.toNat] ++ pairOf d
    | .mappg _ b a d => [b.toNat, a.toNat, d.toNat]
    | .unmappg _ a => [a.toNat]
    | .tlbinv a _ => [a.toNat]
    | .fbread d => [d.toNat, d.toNat + 1, d.toNat + 2, d.toNat + 3]
    | .replay a => [a.toNat]
    | .tmwait a => [a.toNat]
    | .ctxsv a => [a.toNat]
    | .ctxld a => [a.toNat]
    | .rtcore a => [a.toNat]
    | .rtclu a => [a.toNat]
    | .skrd d => [d.toNat]
    | .replan a => [a.toNat]
    | .rld z a d => pairOf a ++ fabricCodes z d
    | .rst z b a => pairOf a ++ fabricCodes z b
    | .rredAdd _ b a => b.toNat :: pairOf a
    | .rredMin _ b a => b.toNat :: pairOf a
    | .rredMax _ b a => b.toNat :: pairOf a
    | .rredAnd _ b a => b.toNat :: pairOf a
    | .rredOr _ b a => b.toNat :: pairOf a
    | .rredXor _ b a => b.toNat :: pairOf a
    | .mcst z b a d => fabricCodes z b ++ [a.toNat, d.toNat]
    | .mcatomAdd _ b a => [b.toNat, a.toNat]
    | .mcatomMin _ b a => [b.toNat, a.toNat]
    | .mcatomMax _ b a => [b.toNat, a.toNat]
    | .mcatomAnd _ b a => [b.toNat, a.toNat]
    | .mcatomOr _ b a => [b.toNat, a.toNat]
    | .mcatomXor _ b a => [b.toNat, a.toNat]
    | .mcwait b a => [b.toNat, a.toNat]
    | .phjoin b a => [b.toNat, a.toNat]
    | .phleave a => [a.toNat]
    | .phsig a => [a.toNat]
    | .phsigBnd a => [a.toNat]
    | .phwait b a => [b.toNat, a.toNat]
    | .phsw b a => [b.toNat, a.toNat]
    | .phswBnd b a => [b.toNat, a.toNat]
    | .phany b a => [b.toNat, a.toNat]
    | .phfind a d => a.toNat :: pairOf d
    | _ => []

/-- The registers that an access in flight will write. -/
def Access.writes (a : Access) : List Nat :=
  match a.dest with
  | .reg d => if a.size = 16 then [d, d + 1] else [d]
  | _ => []

/-- Whether a code names another register in the supervisor bank than in user mode (R202). -/
def banked (d : Nat) : Bool := (40 ≤ d && d < 48) || 60 ≤ d

/-- Whether a register that an instruction names awaits an earlier access of its gang (R188); the two banks' registers are apart
(R202). -/
def State.hazard (s : State) (g : GangId) (i : Instr) : Bool :=
  let codes := regCodes i
  let sup := (s.gang g).mode != .user
  let names (bank : Bool) (d : Nat) : Bool := codes.contains d && (bank == sup || !banked d)
  (s.flight ++ (s.gang g).hold).any (fun a => a.gang == g && a.writes.any (names a.sup))
    || s.msgs.any fun m =>
      match m.2 with
      | .remote r => r.gang == g && r.kind == .load && (names r.sup r.dreg || (r.size = 16 && names r.sup (r.dreg + 1)))
      | .batch b => b.gang == some g && b.dreg.any (names b.sup)
      | _ => false

/-! ## Who can issue -/

/-- Whether a gang has sent accesses that are not performed, or remote loads (R217). -/
def State.outstanding (s : State) (g : GangId) : Bool :=
  s.flight.any (·.gang == g)
    || s.msgs.any fun m => match m.2 with
      | .remote r => r.gang == g && r.kind == .load
      | _ => false

/-- Whether a gang has a memory access outstanding (R127): one that is sent and not performed, or a fabric write that is not acknowledged
(R217, R456). -/
def State.accessOut (s : State) (g : GangId) : Bool := s.outstanding g || (s.gang g).pending != 0

/-- Whether a gang has accesses that are not performed, sent or in the store hold (R217, R106). An access in the replay buffer has
not issued, and what a handler issues meanwhile does not wait for it (log entry 36). -/
def State.busy (s : State) (g : GangId) : Bool := s.outstanding g || !(s.gang g).hold.isEmpty

/-- Whether a gang's remote writes have not all been applied (R217). -/
def State.remoteOut (s : State) (g : GangId) : Bool :=
  s.msgs.any fun m => match m.2 with
    | .remote r => r.gang == g && r.kind != .load && !r.served
    | _ => false

/-- Whether accesses of a gang before its `gsync` of some number are not performed yet: what comes after it waits for them (R178,
R233). -/
def State.fenceOpen (s : State) (g : GangId) (era : Nat) : Bool :=
  s.flight.any (fun a => a.gang == g && a.era < era) || (s.gang g).hold.any (fun a => a.era < era)
    || s.msgs.any fun m => match m.2 with
      | .remote r => r.gang == g && r.kind == .load && r.era < era
      | _ => false

/-- Whether an access gives its instruction a value: a load of any kind, or an atomic that returns one. -/
def Access.valued (a : Access) : Bool := a.dest != .none || !(a.kind == .store || a.kind == .storeFe || a.kind == .atomic)

/-- Whether a gang awaits the values of loads, full-empty loads, atomics or remote loads that it has sent before its `gsync` of some
number, or the sequences of such an `mcst` (R453, R458): until they come, those instructions have not retired. -/
def State.valuesBefore (s : State) (g : GangId) (era : Nat) : Bool :=
  s.flight.any (fun a => a.gang == g && a.valued && a.era < era)
    || s.msgs.any fun m => match m.2 with
      | .remote r => r.gang == g && r.kind == .load && r.era < era
      | .batch b => b.gang == some g && b.dreg.isSome && b.era < era
      | _ => false

/-- Whether a gang awaits any value that it has sent for: until then those instructions are not complete (R120). -/
def State.valuesOut (s : State) (g : GangId) : Bool := s.valuesBefore g ((s.gang g).era + 1)

/-- Whether an a-slice instruction before the last `gsync` has not retired, for which the c-slice's next one waits (R178). -/
def State.unretired (s : State) (g : GangId) : Bool :=
  s.valuesBefore g (s.gang g).era || (s.gang g).replay.any fun h => h.access.valued && h.access.era < (s.gang g).era

/-- A full-empty load. -/
def Access.feLoad (a : Access) : Bool := a.kind == .loadFe || a.kind == .loadFec
/-- A full-empty load that has not been served (R196). -/
def Access.unserved (a : Access) : Bool := a.feLoad && !a.lanes.isEmpty
/-- Whether an access is a write, or a full-empty load that has not been served (R235, R237). -/
def Access.writeOut (a : Access) : Bool := a.kind == .store || a.kind == .storeFe || a.kind == .atomic || a.unserved
/-- Whether a gang has a full-empty load that has not been served: what follows it in program order reads after it (R235). -/
def State.feWaits (s : State) (g : GangId) : Bool := s.flight.any fun a => a.gang == g && a.unserved

/-- Whether a unit's stream is live and nothing outside its next instruction stops it: it belongs to a started launch, no
trap, bound of R121 or pre-emption holds it, it waits for nothing, and in the a-slice some fragment runs (R113, R121, R131,
R390). -/
def State.runnable (s : State) (u : UnitId) : Bool :=
  match u with
  | .a g =>
    let x := s.gang g
    x.inUse && !x.holdStart && !x.preempted && !x.stopA && x.trapA.isNone && x.wait.isNone && x.gsA.isNone
      && !x.regionWait && x.sreplay.isNone && !(x.trapC.isSome && x.since ≥ 256)
      && (x.mode != .user || (x.dqNext.isEmpty && x.replay.isNone && !x.aEnd && x.cur.isSome))
  | .c g =>
    let x := s.gang g
    x.inUse && !x.holdStart && !x.preempted && !x.stopC && x.trapC.isNone && !x.cEnd && x.gsC.isNone
      && !(x.trapA.isSome && x.since ≥ 256)
  | .m c =>
    let x := (s.clu c).ctl
    x.inUse && !x.ended && !x.holdStart && !x.preempted && x.trap.isNone && x.wait.isNone && x.miss.isNone

/-- The instructions that are illegal in supervisor and firmware mode (R207). -/
def supervisorIllegal (u : UnitId) (m : Mode) (i : Instr) : Bool :=
  m != .user &&
    match u with
    | .a _ =>
      (match i.laneForm .A with
        | some f => f.q == 1 || f.sk.getLsbD 1 || f.sk.getLsbD 2 || f.sk.getLsbD 3
        | none => false)
      || (match i with
          | .brv _ _ | .rejoin | .exit | .region | .gsync | .gsyncMask _ | .mwait | .qpeek _ _ | .qcount _ _ | .qdrain _ => true
          | .bra _ p | .brc _ p _ _ | .call _ p | .jmpi _ _ p => p == 1
          | .ld _ q _ _ _ _ | .ldFe _ q _ _ _ _ | .ldFec _ q _ _ _ _ | .st _ q _ _ _ _ | .stFe _ q _ _ _ _ => q == 1
          | _ => false)
    | _ => false

/-- Whether a unit traps on an instruction before anything can hold it: it is ill-formed there (R79) or illegal in its mode (R207). -/
def State.illegal (s : State) (u : UnitId) (i : Instr) : Bool :=
  (WellFormed.lowest (WellFormed.faults u.kind (s.mode u) i)).isSome || supervisorIllegal u (s.mode u) i

/-- How many entries a memory access moves through a queue (R68). -/
def sizeEntries (z : BitVec 3) : Nat := if z = 6 then 4 else if z = 5 then 2 else 1

/-- Whether the a-slice has room to push a `dq` record (R105). -/
def Gang.slipStall (x : Gang) : Option Stall := if x.room .A 3 = 0 then some .slip else none

/-- Whether a quantum yield takes the place of a p = 1 branch (R113, R165). The branch has been counted by then, and is not one of
the 256 instructions before it (log entry 36). -/
def Gang.yields (x : Gang) : Bool := x.ran > 256 && x.frags.any fun p => p.2.state == .ready

/-- What the slip limit does to an a-slice instruction that pushes a record in some cases only (R105). -/
def Gang.slipFor (x : Gang) (y : Gang) : Option Stall := if x.pushes y then x.slipStall else none

/-- What holds an instruction that is no lane operation, by the queue or the accesses it needs. An `mcst` waits for what the gang has
stored before it, since an `mcwait` on it pairs in every O-before (R232, R235, R241; log entry 24). A `region`, a `brv` or a `jmpi` that
meets the slip limit stalls on it before it checks or traps, a `qdrain` that waits for the hold is stalled on the queue, and fabric writes
hold back no `bind` or `unbind` (log entries 36 and 24). -/
def stallOther (s : State) (u : UnitId) (i : Instr) : Option Stall :=
  let x := s.gangOf u
  let recordPop : Option Stall := if x.dq.isEmpty then some (.pop 4) else none
  let pushLq (d : BitVec 6) (z : BitVec 3) : Option Stall :=
    if x.room .A (d.toNat % 4 + 1) < sizeEntries z + (s.flight.foldl (fun n a =>
        n + (match a.dest with
             | .queue l => if l = d.toNat % 4 && a.gang == (match u with | .a g => g | .c g => g | .m _ => ⟨0, 0, 0, 0, 0⟩) then
                 (a.size + 3) / 4 else 0
             | _ => 0)) 0)
    then some (.push (d.toNat % 4)) else none
  let holdFull (d : BitVec 6) : Option Stall :=
    if x.hold.length ≥ 8 then some (.hold (match x.hold.head? with
      | some h => h.waitsOn.getD 0
      | none => d.toNat % 2)) else none
  let drained : Option Stall :=
    match u with
    | .a g => if s.busy g then some .other else none
    | .c _ => none
    | .m _ => none
  match u with
  | .c _ =>
    match i with
    | .brd _ | .jmpi _ _ _ | .rejoin | .exit | .region => recordPop
    | .qpeek q _ => if q = 4 then recordPop else if (x.readQueue .C q.toNat).isEmpty then some (.pop q.toNat) else none
    | _ => none
  | .a _ =>
    match i with
    | .bra _ p | .brc _ p _ _ | .call _ p | .jmpi _ _ p => if p = 1 then x.slipStall else none
    | .brv _ _ => x.slipStall
    | .rejoin => x.slipFor (x.rejoin 0)
    | .exit => x.slipFor x.endFragment
    | .mwait => x.slipFor x.mwait
    | .region => x.slipStall
    | .qpeek q _ => if (x.readQueue .A q.toNat).isEmpty || x.spokenFor q.toNat then some (.pop q.toNat) else none
    | .qdrain q =>
      if x.hold.any (fun h => h.waitsOn == some (q.toNat - 1)) && q ≠ 0 then some (.hold (q.toNat - 1)) else none
    | .ld _ q _ z _ d => if q = 1 then pushLq d z else none
    | .ldFe _ q _ z _ d => if q = 1 then pushLq d z else none
    | .ldFec _ q _ z _ d => if q = 1 then pushLq d z else none
    | .st _ q _ _ _ d => if q = 1 then holdFull d else none
    | .stFe _ q _ _ _ d => match (if q = 1 then holdFull d else none) with
      | some st => some st
      | none => drained
    | .mcst _ _ _ _ =>
      match u with
      | .a g => if s.busy g || s.remoteOut g then some .other else none
      | _ => none
    | .acq _ | .rel _ | .mcatomAdd _ _ _ | .mcatomMin _ _ _ | .mcatomMax _ _ _ | .mcatomAnd _ _ _ | .mcatomOr _ _ _
    | .mcatomXor _ _ _ =>
      match u with
      | .a g => if s.fenceOpen g x.era then some .other else none
      | _ => none
    | .bind _ _ _ | .unbind _ => drained
    | .fence c => if c = 5 && x.pending != 0 then some .other else drained
    | .enq _ _ => drained
    | _ => none
  | .m _ => none

/-- What holds a unit's instruction, if anything does. -/
def stallOf (s : State) (u : UnitId) (i : Instr) : Option Stall :=
  let scoreboard : Option Stall :=
    match u with
    | .a g => if s.hazard g i then some .other else none
    | .c g => if s.unretired g then some .other else none
    | .m _ => none
  match scoreboard with
  | some st => some st
  | none =>
    match i.laneForm u.kind with
    | some f => f.stall s u
    | none => stallOther s u i

end Sys2Proof.Machine
end

