-- ==== Sys2Proof/Machine/Issue.lean ====
section
/-! DEFINITION. What every instruction goes through before its own effect: decode faults (R78, R79), privilege and R207,
stalls (R102), queue misuse (R104), poison (R130, R255), and the comparison of its two computations (R209, R210). -/

namespace Sys2Proof.Machine

/-! ## Which registers an instruction's values come from -/

/-- The registers whose values an instruction other than a lane operation uses (R255), and whether the leader lane alone
reads them (R168). An item that `enq` moves keeps its mark (R365), and a prefetch neither uses a marked address nor drops its lane
(log entry 38). -/
def useCodes (u : UnitKind) (i : Instr) : List Nat × Bool :=
  match i with
  | .mov16 _ b => ([b.toNat], false)
  | .add16 d b => ([d.toNat, b.toNat], false)
  | .sub16 d b => ([d.toNat, b.toNat], false)
  | .mul16 d b => ([d.toNat, b.toNat], false)
  | .and16 d b => ([d.toNat, b.toNat], false)
  | .or16 d b => ([d.toNat, b.toNat], false)
  | .xor16 d b => ([d.toNat, b.toNat], false)
  | .shl16 d b => ([d.toNat, b.toNat], false)
  | .shr16 d b => ([d.toNat, b.toNat], false)
  | .sar16 d b => ([d.toNat, b.toNat], false)
  | .min16 d b => ([d.toNat, b.toNat], false)
  | .max16 d b => ([d.toNat, b.toNat], false)
  | .fadd16 d b => ([d.toNat, b.toNat], false)
  | .fsub16 d b => ([d.toNat, b.toNat], false)
  | .fmul16 d b => ([d.toNat, b.toNat], false)
  | .fmax16 d b => ([d.toNat, b.toNat], false)
  | .addImm _ d => ([d.toNat], false)
  | .mulImm _ d => ([d.toNat], false)
  | .andImm _ d => ([d.toNat], false)
  | .orImm _ d => ([d.toNat], false)
  | .xorImm _ d => ([d.toNat], false)
  | .shlImm _ d => ([d.toNat], false)
  | .shrImm _ d => ([d.toNat], false)
  | .sarImm _ d => ([d.toNat], false)
  | .minImm _ d => ([d.toNat], false)
  | .maxImm _ d => ([d.toNat], false)
  | .movh _ _ d => ([d.toNat], false)
  | .faddImm _ d => ([d.toNat], false)
  | .fmulImm _ d => ([d.toNat], false)
  | .fmaxImm _ d => ([d.toNat], false)
  | .ld _ _ _ _ a _ => ([a.toNat], false)
  | .ldFe _ _ _ _ a _ => ([a.toNat], false)
  | .ldFec _ _ _ _ a _ => ([a.toNat], false)
  | .st _ q _ z a d => (a.toNat :: (if q = 1 then [] else if z = 6 then pairOf d else [d.toNat]), false)
  | .stFe _ q _ z a d => (a.toNat :: (if q = 1 then [] else if z = 6 then pairOf d else [d.toNat]), false)
  | .atomAdd _ _ b a _ => ([b.toNat, a.toNat], false)
  | .atomMin _ _ b a _ => ([b.toNat, a.toNat], false)
  | .atomMax _ _ b a _ => ([b.toNat, a.toNat], false)
  | .atomAnd _ _ b a _ => ([b.toNat, a.toNat], false)
  | .atomOr _ _ b a _ => ([b.toNat, a.toNat], false)
  | .atomXor _ _ b a _ => ([b.toNat, a.toNat], false)
  | .atomExch _ _ b a _ => ([b.toNat, a.toNat], false)
  | .atomCas _ _ b a d => ([b.toNat, a.toNat, d.toNat], false)
  | .fatomAdd _ _ b a _ => ([b.toNat, a.toNat], false)
  | .fatomMin _ _ b a _ => ([b.toNat, a.toNat], false)
  | .fatomMax _ _ b a _ => ([b.toNat, a.toNat], false)
  | .redAdd _ _ b a => ([b.toNat, a.toNat], false)
  | .redMin _ _ b a => ([b.toNat, a.toNat], false)
  | .redMax _ _ b a => ([b.toNat, a.toNat], false)
  | .redAnd _ _ b a => ([b.toNat, a.toNat], false)
  | .redOr _ _ b a => ([b.toNat, a.toNat], false)
  | .redXor _ _ b a => ([b.toNat, a.toNat], false)
  | .fredAdd _ _ b a => ([b.toNat, a.toNat], false)
  | .fredMin _ _ b a => ([b.toNat, a.toNat], false)
  | .fredMax _ _ b a => ([b.toNat, a.toNat], false)
  | .brc _ _ k _ => (if u = .M then [k.toNat] else [], true)
  | .ret => (match u with | .A => [63] | .C => [62, 63] | .M => [31], true)
  | .jmpi b a p => (if u = .C then [] else a.toNat :: (if p = 1 then [b.toNat] else []), true)
  | .gsyncMask a => ([a.toNat], false)
  | .wrsr b _ => ([b.toNat], true)
  | .acq a => ([a.toNat], true)
  | .rel a => ([a.toNat], true)
  | .bind b a d => ([b.toNat, a.toNat, d.toNat], true)
  | .unbind a => ([a.toNat], true)
  | .mon a => ([a.toNat], false)
  | .copy b a d => ([b.toNat, a.toNat, d.toNat], true)
  | .tcopy a d => ([a.toNat, d.toNat], true)
  | .copyt b a d => ([b.toNat, a.toNat] ++ pairOf d, true)
  | .cwait b a => ([b.toNat, a.toNat], true)
  | .enq _ a => ([a.toNat], true)
  | .deq a _ => ([a.toNat], true)
  | .deqt b a _ => ([b.toNat, a.toNat], true)
  | .mappg _ b a d => ([b.toNat, a.toNat, d.toNat], true)
  | .unmappg _ a => ([a.toNat], true)
  | .tlbinv a _ => ([a.toNat], true)
  | .replay a => ([a.toNat], true)
  | .tmwait a => ([a.toNat], true)
  | .ctxsv a => ([a.toNat], true)
  | .ctxld a => ([a.toNat], true)
  | .rtcore a => ([a.toNat], true)
  | .rtclu a => ([a.toNat], true)
  | .replan a => ([a.toNat], true)
  | .rld _ a _ => (pairOf a, false)
  | .rst z b a => ((if z = 2 then pairOf b else [b.toNat]) ++ pairOf a, false)
  | .rredAdd _ b a => (b.toNat :: pairOf a, false)
  | .rredMin _ b a => (b.toNat :: pairOf a, false)
  | .rredMax _ b a => (b.toNat :: pairOf a, false)
  | .rredAnd _ b a => (b.toNat :: pairOf a, false)
  | .rredOr _ b a => (b.toNat :: pairOf a, false)
  | .rredXor _ b a => (b.toNat :: pairOf a, false)
  | .mcst z b a _ => (a.toNat :: (if z = 2 then pairOf b else [b.toNat]), false)
  | .mcatomAdd _ b a => ([b.toNat, a.toNat], false)
  | .mcatomMin _ b a => ([b.toNat, a.toNat], false)
  | .mcatomMax _ b a => ([b.toNat, a.toNat], false)
  | .mcatomAnd _ b a => ([b.toNat, a.toNat], false)
  | .mcatomOr _ b a => ([b.toNat, a.toNat], false)
  | .mcatomXor _ b a => ([b.toNat, a.toNat], false)
  | .mcwait b a => ([b.toNat, a.toNat], true)
  | .phjoin b a => ([b.toNat, a.toNat], true)
  | .phleave a => ([a.toNat], true)
  | .phsig a => ([a.toNat], true)
  | .phsigBnd a => ([a.toNat], true)
  | .phwait b a => ([b.toNat, a.toNat], true)
  | .phsw b a => ([b.toNat, a.toNat], true)
  | .phswBnd b a => ([b.toNat, a.toNat], true)
  | .phany b a => ([b.toNat, a.toNat], true)
  | .phfind a _ => ([a.toNat], true)
  | .mma _ _ _ _ m => ([m.toNat], true)
  | .mmaz _ _ _ _ m => ([m.toNat], true)
  | .awt m => ([m.toNat], true)
  | _ => ([], true)

/-- Whether an instruction uses a marked value (R130, R255). -/
def marked (s : State) (u : UnitId) (i : Instr) : Bool :=
  match i.laneForm u.kind with
  | some f => f.marked i s u
  | none =>
    let (codes, leaderOnly) := useCodes u.kind i
    let lanes := if leaderOnly then (if s.active u = 0 then [] else [s.leader u]) else lanesOf (s.active u)
    codes.any fun c => lanes.any fun n => (s.readReg u .b32 c n).poison

/-! ## Regions and poison (R130, R295) -/

/-- A gang restarted at its region's entry (R130). A join that the lanes which have ended leave with all others arrived completes (R115,
R478). -/
def Gang.restart (x : Gang) (r : Region) : Gang :=
  settleJoins { x with
    lq := [], sq := [], fq := [], dq := [], dqNext := [], hold := []
    frags := [(r.entry, { state := .running, mask := r.mask &&& x.live, aexm := r.aexm &&& x.live, join := r.join })]
    joins := dropEnded x.live [] r.joins
    cfrags := [(r.entry, { live := true, mask := r.mask &&& x.live })]
    cjoins := r.cjoins.map fun (c : CJoin) => { c with dmask := c.dmask &&& x.live, cArr := c.cArr &&& x.live }
    orphans := []
    cur := some r.entry, ccur := r.entry
    exmA := r.aexm &&& x.live, exmC := r.cexm &&& x.live
    apc := r.apc, cpc := r.cpc
    monitors := x.monitors.filter fun p => p.1 == r.entry
    replay := none, sreplay := none, wait := none, gsA := none, gsC := none, regionWait := false
    stopA := false, stopC := false, trapA := none, trapC := none
    region := some { r with restarts := r.restarts + 1 } } (List.range 15)

/-- Loads in flight whose queue entries a restart has discarded lose their destination (R130). -/
def dropQueueLoads (g : GangId) (fl : List Access) : List Access :=
  fl.map fun a =>
    if a.gang == g then
      match a.dest with
      | .queue _ => { a with dest := .none }
      | _ => a
    else a

/-- A gang waits at no work queue any more (R343). -/
def State.leaveQueues (s : State) (g : GangId) : State :=
  { s with dies := s.dies.map fun (p : DieId × Die) =>
      (p.1, { p.2 with queues := p.2.queues.map fun (q : Nat × WQueue) =>
        (q.1, { q.2 with deqs := q.2.deqs.filter fun h => h != g, enqs := q.2.enqs.filter fun h => h != g }) }) }

/-- A controller restarted at its region's entry (R295): the queue and the pins are given up, and what it waits for or was about to
trap on, a handler in progress included (the model's choice, log entry 36). -/
def State.restartCtl (s : State) (c : CluId) (pc : VAddr) (n : Nat) : State :=
  s.modClu c fun x =>
    { x with pins := [], ctl := { x.ctl with
        pc := pc, queue := [], seen := [], applying := none, row := 0, tpins := [], kstep := 0, col := 0, state := 0, fetchMiss := none, region := some (pc, n + 1)
        wait := none, trap := none, aaddr := none, afault := none, miss := none, mode := .user } }

/-- Poisoned data is consumed by a unit (R130, R295): a region restarts up to three times; otherwise cause 10. A handler's own code
lies in no region; the c-slice's consumption beside a first-touch handler waits for the handler's `rft` (log entry 36),
and a controller's restart for a step of its anvil that has begun, which completes (R288). -/
def State.consumePoison (s : State) (u : UnitId) : State :=
  let gangCase (g : GangId) : State :=
    match (s.gang g).region with
    | some r =>
      if (s.gang g).mode != .user then (if u = .c g then s else s.raiseAt u causePoison 0 0)
      else if r.restarts < 3 then
        { (s.leaveQueues g).modGang g fun x => x.restart r with flight := dropQueueLoads g s.flight }
      else s.raiseAt u causePoison 0 0
    | none => s.raiseAt u causePoison 0 0
  match u with
  | .a g => gangCase g
  | .c g => gangCase g
  | .m c =>
    match (s.clu c).ctl.region with
    | some (pc, n) =>
      if n < 3 && s.mode u = .user then (if (s.clu c).ctl.begun then s else s.restartCtl c pc n) else s.raiseAt u causePoison 0 0
    | none => s.raiseAt u causePoison 0 0

/-! ## The comparison of two computations (R208 to R210) -/

/-- The core of a unit: for a controller, the one whose vector table it uses, which also counts its mismatches (the model's choice, log
entry 5). -/
def UnitCore (u : UnitId) : CoreId :=
  match u with
  | .a g => g.coreId
  | .c g => g.coreId
  | .m c => c.core 0

/-- Whether a unit's instructions are computed twice: the a-slice's and the controller's always, the c-slice's in checked
mode (R128, R209, R281). -/
def State.compared (s : State) (u : UnitId) : Bool :=
  match u with
  | .a _ => true
  | .c g => (s.gang g).checked
  | .m _ => true

/-- A first mismatch: counted, and the repeat agrees (R210). -/
def State.mismatchOnce (s : State) (u : UnitId) : State :=
  { s.modCore (UnitCore u) fun x => { x with mism := x.mism + 1 } with glitch := 0 }

/-- A second mismatch: the silent-error fault, and the core is flagged and reported (R210, R396). The model's choices (log entry 5): for a
controller that core is core 0 of its cluster, and the mismatch count rises here too, where the repeat disagrees. -/
def State.mismatchTwice (s : State) (u : UnitId) : State :=
  { ((s.raiseAt u causeSilent 0 0).modCore (UnitCore u) fun x => { x with mism := x.mism + 1, flagged := true, full := true }).interrupt
      (UnitCore u).pkg 80
    with glitch := s.glitch - 2 }

/-! ## The guard -/

/-- What a unit counts when an instruction issues: the run of its fragment, which a handler's instructions are no part of (R113,
R107), and what it issues after a trap of the other slice (R121). -/
def State.countIssue (s : State) (u : UnitId) : State :=
  match u with
  | .a g => s.modGang g fun x =>
      { x with
        ran := if x.mode = .user then x.ran + 1 else x.ran, lossSeen := x.lossSeen && x.mode != .user
        since := if x.trapC.isSome then x.since + 1 else x.since }
  | .c g => s.modGang g fun x => { x with since := if x.trapA.isSome then x.since + 1 else x.since }
  | .m _ => s

/-- The detail of a decode fault of the issuing unit, if any (R79). -/
def State.decodeFault (s : State) (i : Instr) : Option Nat :=
  WellFormed.lowest (WellFormed.faults s.cur.kind (s.mode s.cur) i)

/-- Queue misuse by a `kop` that takes its mask from `dq` (R63, R104). -/
def kopMisuse (s : State) (u : UnitId) (i : Instr) : Option Nat :=
  match i.laneForm u.kind with
  | some f => f.misuse s u
  | none => none

/-- What happens at issue before the instruction's own effect. An instruction that cannot issue leaves the state as it is. No rule
names the decode detail of an instruction that R207 makes illegal: it is 4 here (log entry 37). -/
def issue (i : Instr) (s : State) (k : State → Out) : Out :=
  let u := s.cur
  if !s.runnable u then .next s
  else
    match s.decodeFault i with
    | some n => .next (s.raiseIllegal u n i.size)
    | none =>
      if supervisorIllegal u (s.mode u) i then .next (s.raiseIllegal u 4 i.size)
      else if (stallOf s u i).isSome then .next s
      else
        match kopMisuse s u i with
        | some n => .next (s.raiseAt u causeQueue n 4)
        | none =>
          if marked s u i then .next (s.consumePoison u)
          else if s.glitch ≥ 2 && s.compared u then .next (s.mismatchTwice u)
          else if s.glitch = 1 && s.compared u then k ((s.mismatchOnce u).countIssue u)
          else k (s.countIssue u)

/-- Whether an instruction issues: nothing of the above stands before its own effect. -/
def issues (i : Instr) (s : State) : Bool :=
  s.runnable s.cur && (s.decodeFault i).isNone && !supervisorIllegal s.cur (s.mode s.cur) i
    && (stallOf s s.cur i).isNone && (kopMisuse s s.cur i).isNone && !marked s s.cur i && s.glitch == 0

/-! ## Lane operations -/

/-- A lane operation with a value result: every lane's result is computed from the sources as they stand, delivered to the
sink, the queue source popped, and the program counter moved on (R133, R61). -/
def laneOp (i : Instr) (f : LaneEnv → Nat → DWord) (s : State) : Out :=
  issue i s fun s =>
    match i.laneForm s.cur.kind with
    | none => .next s
    | some lf =>
      let e := lf.env s s.cur
      .next ((lf.deliver (lf.pop s s.cur) s.cur e.act (f e)).advance i)

/-- A mask producer (R138). -/
def maskOp (i : Instr) (f : LaneEnv → Nat → Bool) (s : State) : Out :=
  issue i s fun s =>
    match i.laneForm s.cur.kind with
    | none => .next s
    | some lf =>
      let e := lf.env s s.cur
      .next ((lf.deliverMask (lf.pop s s.cur) s.cur e.act (maskValue e.act (f e))).advance i)

/-- An operation of the immediate or 16-bit form (R59, R65, R158): d in every active lane, from registers read at a type
that goes with the unit. -/
def directOp (i : Instr) (t : UnitKind → Ty) (d : BitVec 6) (f : UnitKind → (Nat → Nat → DWord) → Nat → DWord)
    (s : State) : Out :=
  issue i s fun s =>
    let u := s.cur
    let r (code n : Nat) : DWord := (s.readReg u (t u.kind) code n).bits
    .next ((s.writeReg u (t u.kind) d.toNat (s.active u) (f u.kind r)).advance i)

end Sys2Proof.Machine
end

