-- ==== Sys2Proof/Machine/Translate.lean ====
section
/-! DEFINITION. Translation (R299, R346 to R348): the walk of a context's page tables and the two levels of TLB. -/

namespace Sys2Proof.Machine

/-- How a walk ends (R348): a mapping, or a miss at a level, with why it missed (R352) and its first-touch size. -/
inductive WalkEnd where
  | mapped (e : TlbEntry)
  | miss (lvl : Nat) (bad : Bool) (ft : Option Nat)
deriving DecidableEq, Repr

/-- The levels of a walk (R348): number, first index bit, entries as a power of two. -/
def levels : List (Nat × Nat × Nat) := [(3, 43, 14), (2, 29, 14), (1, 21, 8), (0, 13, 8)]

/-- Whether a leaf or first-touch size fits a level (R348). -/
def sizeFits (lvl size : Nat) : Bool := (lvl = 2 && size = 3) || (lvl = 1 && size = 2) || (lvl = 0 && size ≤ 1)

/-- The address field of a page-table entry (R347). -/
def pteAddr (e : Nat) : Nat := e / 2 ^ 13 % 2 ^ 39 * 2 ^ 13
/-- A bit of a page-table entry. -/
def pteBit (e n : Nat) : Bool := e / 2 ^ n % 2 = 1
/-- The size field. -/
def pteSize (e : Nat) : Nat := e / 2 ^ 62
/-- Whether the reserved fields of an entry are zero (R347). -/
def pteReserved (e : Nat) : Bool := e / 2 ^ 52 % 2 ^ 9 != 0 || e / 2 ^ 5 % 2 ^ 8 != 0
/-- The fields in which the eight leaves of a 64 KiB page must agree (R348). -/
def pteAgrees (e f : Nat) : Bool :=
  e % 32 == f % 32 && pteSize e == pteSize f && pteAddr e == pteAddr f && !pteReserved f

/-- A page-table entry read, and whether it is marked; a table outside HBM reads marked (R348, R375). -/
def State.readPte (s : State) (p pa : Nat) : Nat × Bool :=
  if pa + 8 ≤ hbmSize then (s.readNum (hbmKey p pa) 8, s.markedAt (hbmKey p pa) 8) else (0, true)

/-- The walk from a table on (R348). A valid entry of level 0 that is no leaf is ill-formed (the model's choice, log entry 30). -/
def State.walkFrom (s : State) (p ctx va table : Nat) : List (Nat × Nat × Nat) → WalkEnd
  | [] => .miss 0 true none
  | (lvl, lo, n) :: rest =>
    let idx := va / 2 ^ lo % 2 ^ n
    let (e, marked) := s.readPte p (table + 8 * idx)
    if marked || pteReserved e then .miss lvl true none
    else if !pteBit e 0 then
      if pteBit e 61 then
        if sizeFits lvl (pteSize e) then .miss lvl false (some (pteSize e)) else .miss lvl true none
      else .miss lvl false none
    else if pteBit e 1 then
      let lg := pageLg (pteSize e)
      let partners := (List.range 8).all fun i =>
        let (f, m) := s.readPte p (table + 8 * (idx / 8 * 8 + i))
        !m && pteAgrees e f
      if !sizeFits lvl (pteSize e) || pteAddr e % 2 ^ lg != 0 || (pteSize e == 1 && !partners) then .miss lvl true none
      else .mapped ⟨ctx, va / 2 ^ lg * 2 ^ lg, lg, pteAddr e, pteBit e 2, pteBit e 3, pteBit e 4⟩
    else if lvl = 0 || (lvl = 3 && pteAddr e % 2 ^ 17 != 0) then .miss lvl true none
    else s.walkFrom p ctx va (pteAddr e) rest

/-- A walk of a context's page tables on a package (R348, R383); a context that does not exist there has none. -/
def State.walk (s : State) (p ctx va : Nat) : WalkEnd :=
  match tfind ctx (s.pkg p).contexts with
  | some c => if c.en then s.walkFrom p ctx va c.root levels else .miss 3 false none
  | none => .miss 3 false none

/-- Whether a walk from a table on reads a line of entries that cannot be accessed just now. -/
def State.walkWaitsFrom (s : State) (p va table : Nat) : List (Nat × Nat × Nat) → Bool
  | [] => false
  | (lvl, lo, n) :: rest =>
    let pa := table + 8 * (va / 2 ^ lo % 2 ^ n)
    let e := (s.readPte p pa).1
    (decide (pa + 8 ≤ hbmSize) && s.placeWaits (hbmKey p (pa / 64 * 64)) 64)
      || (pteBit e 0 && !pteBit e 1 && lvl != 0 && s.walkWaitsFrom p va (pteAddr e) rest)

/-- Whether a walk waits for a frame that is being zeroed or moved (R379, R381). -/
def State.walkWaits (s : State) (p ctx va : Nat) : Bool :=
  match tfind ctx (s.pkg p).contexts with
  | some c => c.en && s.walkWaitsFrom p va c.root levels
  | none => false

/-- Whether a translation covers an address of a context. -/
def TlbEntry.covers (e : TlbEntry) (ctx va : Nat) : Bool := e.ctx == ctx && va / 2 ^ e.lg == e.page / 2 ^ e.lg
/-- The physical address that a translation gives. -/
def TlbEntry.pa (e : TlbEntry) (va : Nat) : Nat := e.frame + va % 2 ^ e.lg

/-- The translation of an address that the cluster TLB or else the die TLB holds (R299, R346). -/
def State.tlbLookup (s : State) (c : CluId) (ctx va : Nat) : Option TlbEntry :=
  match (s.clu c).tlb.find? (fun e => e.covers ctx va) with
  | some e => some e
  | none => (s.die c.dieId).tlb.find? fun e => e.covers ctx va

/-- The set of a TLB that an entry falls in: its page number modulo the number of sets (log entry 8). -/
def TlbEntry.set (e : TlbEntry) (sets : Nat) : Nat := e.page / 2 ^ e.lg % sets
/-- A TLB with an entry taken in: where its set is full, the entry of the set that a free choice names leaves (log entry 8). -/
def tlbTake (sets ways pick : Nat) (e : TlbEntry) (es : List TlbEntry) : List TlbEntry :=
  let mine := es.filter fun x => x.set sets == e.set sets
  if mine.length < ways then e :: es else e :: es.erase (mine.getD (pick % mine.length) e)
/-- A translation taken into the cluster TLB: 1,024 entries, eight ways (R299). -/
def State.fillClu (s : State) (c : CluId) (e : TlbEntry) : State :=
  if (s.clu c).tlb.contains e then s
  else s.modClu c fun x => { x with tlb := tlbTake 128 8 (Config.choice s.clock 8) e x.tlb }
/-- A translation taken into the die TLB: 8,192 entries, sixteen ways (R346). -/
def State.fillDie (s : State) (d : DieId) (e : TlbEntry) : State :=
  if (s.die d).tlb.contains e then s
  else s.modDie d fun x => { x with tlb := tlbTake 512 16 (Config.choice s.clock 16) e x.tlb }

/-- A translation for a read of the package's own: from a TLB of no unit, by a walk (R385, R388). -/
def State.translatePkg (s : State) (p ctx va : Nat) : Option (Nat × TlbEntry) :=
  match s.walk p ctx va with
  | .mapped e => some (e.pa va, e)
  | .miss _ _ _ => none

/-! ## Bindings (R226) and object handles (R225) -/

/-- The kind of a handle. -/
def handleKind (h : DWord) : Nat := (h.extractLsb' 62 2).toNat
/-- The name of a handle. -/
def handleName (h : DWord) : Nat := (h.extractLsb' 0 57).toNat
/-- Whether a handle breaks R225 for the kinds that name an 8-byte word. -/
def wordHandleBad (h : DWord) : Bool := h.extractLsb' 57 5 != 0 || h.extractLsb' 0 3 != 0
/-- Whether a handle of any kind breaks R225 (detail 8 of R226). -/
def handleBad (h : DWord) : Bool :=
  handleKind h == 3 || h.extractLsb' 57 5 != 0
    || (if handleKind h = 2 then h.extractLsb' 12 45 != 0 else h.extractLsb' 0 3 != 0)

/-- The binding table of a context (R226). -/
def State.bindingsOf (s : State) (ctx : Nat) : List Binding := tget ctx [] s.bindings
/-- Whether a location is bound to an object (R228). -/
def State.boundTo (s : State) (ctx : Nat) (h : DWord) (va : Nat) : Bool :=
  (s.bindingsOf ctx).any fun b => b.handle == h && b.base ≤ va && va < b.base + b.len

end Sys2Proof.Machine
end

