-- ==== Sys2Proof/Machine/Registers.lean ====
section
/-! DEFINITION. What a load of a control register returns: the supervisor window of a core (R194), the die control block
(R330, R331) and the package control block (R375 and the rules it gathers). Reading changes nothing. -/

namespace Sys2Proof.Machine

/-- A one-bit field. -/
def bitNum (b : Bool) (n : Nat) : Nat := if b then 2 ^ n else 0

/-- The 64-bit word `i` of a wider register. -/
def wordOf (v i : Nat) : Nat := v / 2 ^ (64 * i) % 2 ^ 64

/-! ## The supervisor window (R194) -/

/-- A trap record (R123). -/
def TrapRec.toNat (r : TrapRec) : Nat :=
  r.cause + r.detail * 2 ^ 8 + bitNum r.slice 17 + bitNum r.bound 18 + bitNum r.chk 19 + bitNum r.region 20
    + r.frag * 2 ^ 21 + r.lanes.toNat * 2 ^ 32 + r.apc.toNat * 2 ^ 64 + r.cpc.toNat * 2 ^ 128 + r.info.toNat * 2 ^ 192
    + r.kill.toNat * 2 ^ 256 + bitNum r.skip 288

/-- A gang status block (R107). -/
def Gang.statusBlock (x : Gang) : Nat :=
  x.dloss.toNat + x.fqstall.toNat * 2 ^ 32 + x.slipstall.toNat * 2 ^ 64 + x.sqwait.toNat * 2 ^ 96 + x.cstall.toNat * 2 ^ 128

/-- A first-touch record (R205). -/
def FirstTouch.toNat (r : FirstTouch) : Nat := r.kind + r.lanes.toNat * 2 ^ 32 + r.addr.toNat * 2 ^ 64

/-- A core status block (R211). -/
def Core.statusBlock (x : Core) : Nat :=
  bitNum x.flagged 0 + bitNum x.full 1 + x.mism.toNat * 2 ^ 32 + x.poison.toNat * 2 ^ 64 + x.corr.toNat * 2 ^ 96

/-- The gang whose part of the window a slot has: zero where nothing has written it. -/
def State.windowWord (s : State) (c : CoreId) (off : Nat) : Nat :=
  if off < 0x400 then wordOf (s.gang (c.slot (off / 64))).record.toNat (off % 64 / 8)
  else if off < 0x600 then wordOf (s.gang (c.slot ((off - 0x400) / 32))).statusBlock (off % 32 / 8)
  else if off < 0x700 then (tget ((off - 0x600) / 8) 0 (s.core c).vectors).toNat
  else if off < 0x800 then wordOf (s.gang (c.slot ((off - 0x700) / 16))).ft.toNat (off % 16 / 8)
  else if off < 0x840 then wordOf (s.core c).statusBlock (off % 64 / 8)
  else 0

/-- A byte of the supervisor window, whose save areas are storage (R194). -/
def State.windowByte (s : State) (k : Nat) : Byte :=
  let off := k % 2 ^ 18
  if off ≥ 0x1000 then s.readByte k else BitVec.ofNat 8 (s.windowWord (keyCore k) off / 2 ^ (8 * (off % 8)))

/-! ## The die control block (R331) -/

/-- The remap entry of a physical cluster (R357); a spare has no logical number and reads 0 there (log entry 2). -/
def Die.remapOf (x : Die) (p : Nat) : Remap := tget p ⟨p < 32, decide (32 ≤ p), false, if p < 32 then p else 0⟩ x.remap
/-- Spare physical clusters left (R331). -/
def Die.spareCount (x : Die) : Nat := ((List.range 34).filter fun p => (x.remapOf p).spare).length
/-- The logical clusters of a die, n (R331): a retired cluster whose number will pass to a spare still counts (R414). -/
def Die.activeCount (x : Die) : Nat :=
  ((List.range 34).filter fun p => (x.remapOf p).active).length + min x.retiring.length x.spareCount
/-- The physical cluster of a logical number (R357); none while the number passes on. -/
def Die.physical (x : Die) (n : Nat) : Option Nat :=
  (List.range 34).find? fun p => (x.remapOf p).active && (x.remapOf p).logical == n

/-- A remap entry as it reads (R357). -/
def Remap.toNat (r : Remap) : Nat := r.logical % 32 + bitNum r.flagged 29 + bitNum r.spare 30 + bitNum r.active 31

/-- A work queue of a die. -/
def Die.queue (x : Die) (n : Nat) : WQueue := tget n {} x.queues
/-- A queue table entry (R342). -/
def WQueue.toNat (q : WQueue) : Nat :=
  bitNum q.en 0 + bitNum q.failed 1 + q.ctx * 2 ^ 16 + q.cap * 2 ^ 48 + q.items.length * 2 ^ 64

/-- How many live merge entries a test accepts (R331). -/
def Die.mergeCount (x : Die) (f : MergeState → Bool) : Nat := (x.merge.filter fun p => f p.2.state).length

/-- A word of the die control block (R331). -/
def Die.word (x : Die) (d off : Nat) : Nat :=
  if off = 0 then d + x.activeCount * 2 ^ 8 + x.spareCount * 2 ^ 16
  else if off = 8 then x.lg + bitNum x.ie 8
  else if off = 0x10 then x.fb.length + bitNum x.dropped 16 + bitNum x.empty 17 + x.drops % 2 ^ 16 * 2 ^ 32
  else if off = 0x18 then
    x.mergeCount (fun _ => true) + x.mergeCount (· == .handler) * 2 ^ 16
      + x.mergeCount (fun m => m == .buffered || m == .dropped) * 2 ^ 32
  else if off = 0x20 then x.qres
  else if 0x60 ≤ off && off ≤ 0x78 then (tget ((off - 0x60) / 8) [] x.pools).length
  else if 0x1000 ≤ off && off < 0x2000 then wordOf (x.queue ((off - 0x1000) / 16)).toNat (off % 16 / 8)
  else if 0x2000 ≤ off && off < 0x2088 then
    let j := (off - 0x2000) / 8
    (x.remapOf (2 * j)).toNat + (x.remapOf (2 * j + 1)).toNat * 2 ^ 32
  else 0

/-! ## The package control block -/

/-- The number of a migration state (R380). -/
def MigState.toNat : MigState → Nat
  | .idle => 0
  | .copying => 1
  | .final => 2
  | .done => 3
  | .failedAborts => 4
  | .failedLeaf => 5

/-- The reset value of a wear record (log entry 2). -/
def wearReset (u : Nat) : Wear := ⟨0xFFFF, if 14 ≤ u && u < 38 then 64 else 0, if 38 ≤ u then 1 else 0, 0⟩
/-- A wear record (R402). -/
def Wear.toNat (w : Wear) : Nat := w.days + w.rows * 2 ^ 16 + w.lanes * 2 ^ 24 + w.errors * 2 ^ 32
/-- The status of a port (R422). -/
def Port.toNat (x : Port) : Nat := x.state + x.lanes * 2 ^ 8 + x.ppkg * 2 ^ 32 + x.pport * 2 ^ 42
/-- A route entry (R423). -/
def Route.toNat (r : Route) : Nat :=
  bitNum r.self 0 + bitNum r.dead 1 + r.portb * 2 ^ 6 + r.porta * 2 ^ 11 + r.costb * 2 ^ 32 + r.costa * 2 ^ 48
/-- A group entry (R426). -/
def Group.toNat (x : Group) : Nat :=
  bitNum x.en 0 + x.state * 2 ^ 1 + x.hdie * 2 ^ 60 + x.hpkg * 2 ^ 61 + x.ctx * 2 ^ 71 + x.applied % 2 ^ 48 * 2 ^ 87
    + x.epoch % 2 ^ 16 * 2 ^ 135 + x.voidfrom % 2 ^ 48 * 2 ^ 151 + x.wlen * 2 ^ 199 + x.wva * 2 ^ 215
/-- A phaser entry (R433). -/
def Phaser.toNat (x : Phaser) : Nat :=
  bitNum x.en 0 + bitNum x.hold 4 + bitNum x.anyof 5 + bitNum x.bnd 6 + bitNum (x.failed && !x.cleared) 7 + bitNum x.fnd 8
    + x.level * 2 ^ 32 + x.rdie * 2 ^ 34 + x.rpkg * 2 ^ 38 + x.ctx * 2 ^ 48 + x.done.toNat * 2 ^ 128
    + x.fid.toNat * 2 ^ 160 + x.fval.toNat * 2 ^ 192
/-- A context entry (R383). -/
def CtxEntry.toNat (c : CtxEntry) : Nat := bitNum c.en 0 + c.root
/-- A word of a submission queue's registers (R384). Their offsets, 0, 8 and 16, are the model's choice (log entry 18). -/
def SubQ.word (q : SubQ) (off : Nat) : Nat :=
  if off = 0 then q.base
  else if off = 8 then bitNum q.en 0 + bitNum q.ovr 1 + q.ctx * 2 ^ 16 + q.lg * 2 ^ 32
  else if off = 16 then q.head.toNat
  else 0
/-- A routing entry (R396). -/
def IntRoute.toNat (r : IntRoute) : Nat := r.vector + r.port * 2 ^ 11 + bitNum r.enable 12

/-- A word of the package control block. Offsets that no rule lists read zero, and the sixteenth abort of a migration reads 0 in the four
bits of `aborts` (the model's choice, log entry 18). -/
def Pkg.word (x : Pkg) (off : Nat) : Nat :=
  if off = 0x10 then bitNum x.lock 0 + bitNum x.hold 1 + x.offs.toNat * 2 ^ 32
  else if off = 0x20 then x.imgaddr.toNat
  else if off = 0x28 then x.cstate + x.cctx * 2 ^ 16
  else if off = 0x30 then x.powcap
  else if off = 0x38 then x.fclk
  else if off = 0x40 then x.mig.va.toNat
  else if off = 0x48 then x.mig.ctx + x.mig.size * 2 ^ 16
  else if off = 0x50 then x.mig.frame.toNat
  else if off = 0x58 then x.mig.state.toNat + x.mig.aborts % 16 * 2 ^ 4 + x.mig.dirty.length * 2 ^ 32
  else if off = 0x60 then x.rpaddr.toNat
  else if off = 0x68 then x.rpcount.toNat
  else if 0x400 ≤ off && off < 0x400 + 8 * 62 then
    (tget ((off - 0x400) / 8) (wearReset ((off - 0x400) / 8)) x.wear).toNat
  else if 0x800 ≤ off && off < 0x800 + 8 * 24 then (tget ((off - 0x800) / 8) {} x.ports : Port).toNat
  else if off = 0x900 then x.lostWrites.toNat
  else if 0x1000 ≤ off && off < 0x1000 + 32 * 64 then (tget ((off - 0x1000) / 32) {} x.subqs : SubQ).word (off % 32)
  else if 0x3000 ≤ off && off < 0x3000 + 8 * 81 then (tget ((off - 0x3000) / 8) {} x.routes : IntRoute).toNat
  else if 0x20000 ≤ off && off < 0x40000 then wordOf (tget ((off - 0x20000) / 32) {} x.groups : Group).toNat (off % 32 / 8)
  else if 0x40000 ≤ off && off < 0x60000 then wordOf (tget ((off - 0x40000) / 32) {} x.phasers : Phaser).toNat (off % 32 / 8)
  else if 0x60000 ≤ off && off < 0x60000 + 8 * 1024 then (tget ((off - 0x60000) / 8) {} x.paths : Route).toNat
  else if 0x70000 ≤ off && off < 0x80000 then
    wordOf (tget ((off - 0x70000) / 16) {} x.contexts : CtxEntry).toNat (off % 16 / 8)
  else 0

/-! ## A load wherever it falls -/

/-- What an access of some bytes at a key reads, and whether it is marked: a control block acts on aligned loads of eight
bytes only and reads zero otherwise, and an address that names nothing reads zero with a mark (R330, R375). -/
def State.readAt (s : State) (k n : Nat) : Nat × Bool :=
  if keyRegion k = 4 then (numOf ((List.range n).map fun i => s.windowByte (k + i)), false)
  else if keyRegion k = 0 then
    match paKind (keyPa k) with
    | .hbm => (s.readNum k n, s.markedAt k n)
    | .die d off => (if n = 8 && off % 8 = 0 then (s.die ⟨keyPkg k, d⟩).word d off else 0, false)
    | .pkg off => (if n = 8 && off % 8 = 0 then (s.pkg (keyPkg k)).word off else 0, false)
    | .nothing => (0, true)
  else (s.readNum k n, s.markedAt k n)

/-- Values written into a register of the bank that the access was issued in. -/
def State.writeBank (s : State) (g : GangId) (sup : Bool) (code : Nat) (m : Word) (f : Nat → Val) : State :=
  s.modGang g fun x => { ({ x with mode := if sup then .supervisor else .user } : Gang).writeA code m f with mode := x.mode }

end Sys2Proof.Machine
end

