-- ==== Sys2Proof/Machine/Access.lean ====
section
/-! DEFINITION. What a memory instruction does when it issues (chapter 09): its addresses, the three stages of checks, the L1,
the store hold, the replay buffer, and sending. Performing an access is in `Perform`. -/

namespace Sys2Proof.Machine

/-! ## Places (R193, R248, R273, R329) -/

/-- The space that a field of R67 or R69 names. -/
def spaceOf (p : BitVec 2) : Space := if p = 0 then .g else if p = 1 then .c else if p = 2 then .cl else .d

/-- The allocation of a launch, and for core scratchpad of its crew. -/
def findAlloc (l c : Nat) (as : List Alloc) : Option Alloc := as.find? fun a => a.launch == l && a.crew == c

/-- The allocation that a gang's space names (R187, R273, R329). -/
def State.allocOf (s : State) (g : GangId) (sp : Space) : Option Alloc :=
  let x := s.gang g
  match sp with
  | .c => findAlloc x.launch x.crew (s.core g.coreId).allocs
  | .cl => findAlloc x.launch 0 (s.clu g.cluId).allocs
  | .d => findAlloc x.launch 0 (s.die g.dieId).allocs
  | .g => none

/-- Whether an access lies wholly in the supervisor window (R193). -/
def inWindow (ea n : Nat) : Bool := 0x40000 ≤ ea && ea + n ≤ 0x45000
/-- Whether an access lies wholly in an allocation. -/
def inAlloc (a : Option Alloc) (ea n : Nat) : Bool :=
  match a with
  | some a => ea + n ≤ a.size
  | none => false

/-- The detail of the first address check that an access fails, in the order 6, 1, 2, 3, 5 (R249, R250 stage 1). -/
def State.addressDetail (s : State) (g : GangId) (mode : Mode) (sp : Space) (size : Nat) (fe : Bool) (ea : Nat) : Option Nat :=
  let misaligned := ea % size != 0
  match sp with
  | .g => if ea ≥ 2 ^ 57 then some 6 else if misaligned then some 3 else if fe then some 5 else none
  | .c =>
    let win := inWindow ea size
    if !inAlloc (s.allocOf g .c) ea size && (!win || fe) then some 1
    else if !inAlloc (s.allocOf g .c) ea size && mode == .user then some 2
    else if misaligned then some 3 else none
  | .cl => if !inAlloc (s.allocOf g .cl) ea size then some 1 else if misaligned then some 3 else if fe then some 5 else none
  | .d => if !inAlloc (s.allocOf g .d) ea size then some 1 else if misaligned then some 3 else none

/-- The key of an address that passed its check in a space that is not translated. -/
def State.localKey (s : State) (g : GangId) (sp : Space) (ea : Nat) : Nat :=
  let base := match s.allocOf g sp with
    | some a => a.base
    | none => 0
  match sp with
  | .c => if ea ≥ 0x40000 then winKey g.coreId (ea - 0x40000) else coreKey g.coreId (base + ea)
  | .cl => cluKey g.cluId (base + ea)
  | .d => dieKey g.dieId (base + ea)
  | .g => 0

/-! ## Permission (R250 stage 2) -/

/-- What a kind of access needs of a page: to read it, to write it (detail 4 of R249). -/
def needs (k : AccessKind) (d : Dest) : Bool × Bool :=
  match k with
  | .load | .loadFe | .loadFec => (true, false)
  | .store | .storeFe => (false, true)
  | .atomic => (d != .none, true)

/-- Whether a translation permits an access in a mode. -/
def TlbEntry.permits (e : TlbEntry) (mode : Mode) (n : Bool × Bool) : Bool :=
  (e.r || !n.1) && (e.w || !n.2) && (e.u || mode != .user)

/-- Whether a lane's page is known, from a TLB or by a walk, not to permit the access. -/
def State.forbids (s : State) (g : GangId) (mode : Mode) (ctx : Nat) (n : Bool × Bool) (ea : Nat) : Bool :=
  match s.tlbLookup g.cluId ctx ea with
  | some e => !e.permits mode n
  | none =>
    match s.walk g.pkg ctx ea with
    | .mapped e => !e.permits mode n && !s.walkWaits g.pkg ctx ea
    | .miss _ _ _ => false

/-- The mask of some lanes. -/
def laneMask (ls : List Nat) : Word := maskOf fun n => ls.contains n

/-- The trap of the lowest of some failing lanes, with every one of them (R250). -/
def firstFault (fails : List (Nat × Nat × Nat)) : Option Raised :=
  match fails with
  | [] => none
  | (_, detail, ea) :: _ =>
    some ⟨causeMemory, detail, BitVec.ofNat 64 ea, laneMask (fails.map (·.1)), false, 4⟩

/-- Stages 1 and 2 of R250 over the lanes of an access. -/
def State.accessFault (s : State) (mode : Mode) (a : Access) : Option Raised :=
  let fe := a.kind == .loadFe || a.kind == .loadFec || a.kind == .storeFe
  let bad := a.lanes.filterMap fun l =>
    (s.addressDetail a.gang mode a.space a.size fe l.ea).map fun d => (l.lane, d, l.ea)
  match firstFault bad with
  | some r => some r
  | none =>
    if a.space = .g then
      firstFault ((a.lanes.filter fun l => s.forbids a.gang mode a.ctx (needs a.kind a.dest) l.ea).map
        fun l => (l.lane, 4, l.ea))
    else none

/-! ## Translation of the lanes (R250 stage 3, R299) -/

/-- A lane translated by a TLB, if one holds its page. -/
def State.translateLane (s : State) (g : GangId) (ctx : Nat) (sp : Space) (l : LaneAccess) : State × LaneAccess :=
  match sp with
  | .g =>
    match s.tlbLookup g.cluId ctx l.ea with
    | some e => (s.fillClu g.cluId e, { l with pa := some (hbmKey g.pkg (e.pa l.ea)) })
    | none => (s, { l with pa := none })
  | _ => (s, { l with pa := some (s.localKey g sp l.ea) })

/-- Every lane translated where a TLB holds its page. -/
def State.translateLanes (s : State) (g : GangId) (ctx : Nat) (sp : Space) : List LaneAccess → State × List LaneAccess
  | [] => (s, [])
  | l :: ls =>
    let (s, l) := s.translateLane g ctx sp l
    let (s, ls) := s.translateLanes g ctx sp ls
    (s, l :: ls)

/-! ## The L1 data cache (R198, R199, R300) -/

/-- The bytes of a 16-byte sector with the stores that a core has sent and that are not performed laid over them: a store
that a core has sent is seen by every later hit there (R199). -/
def overlayStores (s : State) (c : CoreId) (k : Nat) (bs : List Byte) : List Byte :=
  s.flight.foldl (fun bs a =>
    if a.gang.coreId == c && (a.kind == .store || a.kind == .storeFe) then
      a.lanes.foldl (fun bs l =>
        match l.pa with
        | some p =>
          if p / 16 = k / 16 then
            bs.mapIdx fun i b => if p % 16 ≤ i && i < p % 16 + a.size then BitVec.ofNat 8 (l.data / 2 ^ (8 * (i - p % 16))) else b
          else bs
        | none => bs) bs
    else bs) bs

/-- The page through which a core reads an address, as the base-two logarithm of its size: the largest where no translation is left. -/
def State.pageSizeAt (s : State) (c : CluId) (ctx va : Nat) : Nat :=
  match s.tlbLookup c ctx va with
  | some e => e.lg
  | none =>
    match s.walk c.pkg ctx va with
    | .mapped e => e.lg
    | .miss _ _ _ => 29

/-- A sector of a line as its home holds it, for a core's L1. -/
def State.fetchSector (s : State) (c : CoreId) (ctx vsec psec : Nat) : L1Line :=
  { ctx := ctx, vsec := vsec, psec := psec, bytes := overlayStores s c (psec * 16) (s.readBytes (psec * 16) 16)
    mark := s.markedAt (psec * 16) 16, lg := s.pageSizeAt c.cluId ctx (vsec * 16) }

/-- The lines that an L1 holds in the set of a line, other than that line, by context and virtual line: 256 sets, the virtual line's
number modulo 256 (R198; log entry 8). -/
def setMates (ctx vline : Nat) (xs : List L1Line) : List (Nat × Nat) :=
  xs.foldl (fun ls y =>
    let t := (y.ctx, y.vsec / 4)
    if t.2 % 256 = vline % 256 && t != (ctx, vline) && !ls.contains t then t :: ls else ls) []

/-- A full set of an L1 gives up the line that a free choice names, so that a line finds room among eight ways (R198). -/
def roomFor (ctx vline pick : Nat) (xs : List L1Line) : List L1Line :=
  let ls := setMates ctx vline xs
  if ls.length < 8 then xs
  else xs.filter fun y => (y.ctx, y.vsec / 4) != ls.getD (pick % ls.length) (ctx, vline)

/-- A line filled into a core's L1: sectors of the line that it holds stay, the others are read, a line of the same physical line
under another tag goes, and a full set gives up a line (R198, R199, R300). -/
def State.fillLine (s : State) (c : CoreId) (ctx ea k : Nat) : State :=
  let v := ea / 64 * 4
  let p := k / 64 * 4
  let fresh := ((List.range 4).filter fun i =>
      !(s.core c).l1d.any (fun x => x.ctx == ctx && x.vsec == v + i && x.psec == p + i)).map fun i =>
    s.fetchSector c ctx (v + i) (p + i)
  s.modCore c fun x =>
    { x with l1d := fresh ++ roomFor ctx (ea / 64) (Config.choice s.clock 8) (x.l1d.filter fun y => !(y.psec / 4 == k / 64 && (y.ctx != ctx || y.vsec / 4 != ea / 64))
                                              && !(y.ctx == ctx && y.vsec / 4 == ea / 64 && y.psec / 4 != k / 64)) }

/-- A load of `.g` through the L1 (R198, R252). -/
def State.l1Load (s : State) (c : CoreId) (ctx ea k n : Nat) : State × Nat × Bool :=
  let hit (s : State) := (s.core c).l1d.find? fun y => y.ctx == ctx && y.vsec == ea / 16
  let s := if (hit s).isSome then s else s.fillLine c ctx ea k
  match hit s with
  | some y => (s, numOf ((y.bytes.drop (ea % 16)).take n), y.mark)
  | none => (s, s.readNum k n, s.markedAt k n)

/-- A store that a core sends updates the sector that its L1 holds, whatever its tag (R198, R300). -/
def State.l1Store (s : State) (c : CoreId) (k : Nat) (bs : List Byte) : State :=
  s.modCore c fun x => { x with l1d := x.l1d.map fun y =>
    if y.psec = k / 16 then
      { y with
        bytes := y.bytes.mapIdx fun i b => if k % 16 ≤ i && i < k % 16 + bs.length then bs.getD (i - k % 16) b else b
        mark := y.mark && bs.length != 16 }
    else y }

/-- Lines of a core's L1 removed by a test on the context and the virtual line. -/
def State.l1Drop (s : State) (c : CoreId) (f : Nat → Nat → Bool) : State :=
  s.modCore c fun x => { x with l1d := x.l1d.filter fun y => !f y.ctx (y.vsec / 4) }

/-- Every line of a context that is bound to some object removed from a core's L1 (R232, R237). -/
def State.acquireBound (s : State) (g : GangId) : State :=
  let ctx := (s.gang g).ctx
  s.l1Drop g.coreId fun c v => c == ctx && (s.bindingsOf ctx).any fun b => b.base ≤ 64 * v && 64 * v < b.base + b.len

/-- Every L1 line of a context removed from a core (R233). -/
def State.ambientAcquire (s : State) (g : GangId) : State := s.l1Drop g.coreId fun c _ => c == (s.gang g).ctx

/-- The lines of every region bound to an object removed from a core's L1 (R229). -/
def State.acquireObject (s : State) (g : GangId) (h : DWord) : State :=
  let ctx := (s.gang g).ctx
  s.l1Drop g.coreId fun c v => c == ctx && s.boundTo ctx h (64 * v)

/-- What one lane of a load reads (R252). -/
def State.loadLane (s : State) (a : Access) (l : LaneAccess) : State × LaneVal :=
  match l.pa with
  | none => (s, ⟨l.lane, 0, false⟩)
  | some k =>
    if a.space = .g && isHbm k then
      let (s, v, m) := s.l1Load a.gang.coreId a.ctx l.ea k a.size
      (s, ⟨l.lane, v, m⟩)
    else
      let (v, m) := s.readAt k a.size
      (s, ⟨l.lane, v, m⟩)

/-- The value that a lane of a load takes from another of its lanes, which has read the same location (R223). -/
def Access.known (a : Access) (l : LaneAccess) : Option LaneVal :=
  (a.lanes.find? fun m => l.pa.isSome && m.pa == l.pa && m.lane != l.lane && a.got.any fun v => v.lane == m.lane).bind fun m =>
    (a.got.find? fun v => v.lane == m.lane).map fun v => { v with lane := l.lane }

/-- What several lanes of a load read: lanes that name one location read it once (R223). -/
def State.loadLanes (s : State) (a : Access) : List LaneAccess → State × List LaneVal
  | [] => (s, [])
  | l :: ls =>
    let (s, v) := match a.known l with
      | some v => (s, v)
      | none => s.loadLane a l
    let (s, vs) := s.loadLanes { a with got := v :: a.got } ls
    (s, v :: vs)

/-! ## Order within a gang (R254, R106) -/

/-- Whether two lanes' bytes overlap in one space, by place where both are translated and else by address. -/
def overlaps (a b : Access) (l m : LaneAccess) : Bool :=
  match l.pa, m.pa with
  | some p, some q => p < q + b.size && q < p + a.size
  | _, _ => a.space == b.space && l.ea < m.ea + b.size && m.ea < l.ea + a.size

/-- Whether two accesses overlap. -/
def Access.overlaps (a b : Access) : Bool := a.lanes.any fun l => b.lanes.any fun m => Machine.overlaps a b l m

/-- Whether an access is a store of a core's, which its L1 has seen when it was sent (R198). -/
def Access.storeOf (a : Access) (c : CoreId) : Bool := a.gang.coreId == c && (a.kind == .store || a.kind == .storeFe)
/-- Whether an access in flight touches some bytes. -/
def Access.touches (a : Access) (k n : Nat) : Bool := a.lanes.any fun l => match l.pa with
  | some q => decide (q < k + n) && decide (k < q + a.size)
  | none => false

/-- Whether an earlier access holds a later one back: one of its own gang that overlaps it or, for a read that is no full-empty load,
a full-empty load that has not been served (R235); or, for a store or an atomic, an overlapping store of its core, which the L1 has
already seen (R198, R223). R196 lets a full-empty load be served before an earlier one of its gang (log entry 23). -/
def holdsBack (a f : Access) : Bool :=
  (f.gang == a.gang && (f.overlaps a || (f.unserved && (a.kind == .load || (a.kind == .atomic && a.dest != .none)))))
    || (f.storeOf a.gang.coreId && (a.storeOf a.gang.coreId || a.kind == .atomic) && f.overlaps a)

/-- The lane of a remote access to its gang's own package, by its place where the package maps it (R451). -/
def State.ownLane (s : State) (p ctx addr : Nat) : LaneAccess :=
  ⟨0, addr, match s.walk p ctx addr with
    | .mapped e => some (hbmKey p (e.pa addr))
    | .miss _ _ _ => none, 0, 0⟩

/-- Whether an access overlaps a fabric access to its own package that has still to be served: one of its gang, or, for a store, of its
core, whose reads see the store when it is sent. A gang's reads of one location come in order, and after its writes (R223; log entry 24). -/
def State.meetsOwn (s : State) (a : Access) : Bool :=
  a.space == .g && s.msgs.any fun m => match m.2 with
    | .remote r =>
      let q := s.ownLane r.dst r.ctx r.addr
      (r.gang == a.gang || a.storeOf r.gang.coreId) && r.dst == a.gang.pkg && !r.served && a.overlaps { a with size := r.size, lanes := [q] }
    | _ => false

/-- Whether an access must wait at issue: for a held access that it overlaps (R106), and for a fabric access to the same bytes. -/
def State.mustWait (s : State) (a : Access) : Bool := ((s.gang a.gang).hold.any fun h => h.overlaps a) || s.meetsOwn a

/-- Whether a lane of a load can be read at once: it is translated, its place can be accessed, and no earlier access of the gang
has to be performed before it (R254, R256, R235, R379). -/
def State.readable (s : State) (a : Access) (l : LaneAccess) : Bool :=
  match l.pa with
  | none => false
  | some k =>
    let own : Access := { a with lanes := [l] }
    !s.placeWaits k a.size && !s.feWaits a.gang
      && !((s.flight ++ (s.gang a.gang).hold).any fun f => f.gang == a.gang && f.overlaps own) && !s.fenceOpen a.gang a.era

/-- The place of a lane of a restored gang's access, translated again; none while its page has no mapping (R245; log entry 11). -/
def State.relocate (s : State) (g : GangId) (a : Access) (l : LaneAccess) : LaneAccess :=
  if a.space = .g then
    match s.walk g.pkg a.ctx l.ea with
    | .mapped e => { l with pa := if s.walkWaits g.pkg a.ctx l.ea then none else some (hbmKey g.pkg (e.pa l.ea)) }
    | .miss _ _ _ => { l with pa := none }
  else { l with pa := some (s.localKey g a.space l.ea) }

/-- An access of a restored gang. -/
def State.retarget (s : State) (g : GangId) (a : Access) : Access := { a with gang := g, lanes := a.lanes.map (s.relocate g a) }

/-- Whether an access has lost the place of a lane: only that of a restored gang can, whose page was unmapped meanwhile. -/
def Access.placeless (a : Access) : Bool := a.lanes.any fun l => l.pa.isNone

/-! ## Sending -/

/-- An access sent: a `.g` store updates the L1 at that time (R198). -/
def State.sendAccess (s : State) (a : Access) : State :=
  let s := if (a.kind = .store || a.kind = .storeFe) && a.space = .g then
      a.lanes.foldl (fun s l => match l.pa with
        | some k => s.l1Store a.gang.coreId k (bytesOfNum l.data a.size)
        | none => s) s
    else s
  { s with flight := s.flight ++ [a] }

/-- An access whose lanes are all translated goes on: into the store hold while its data is awaited, or away (R106). -/
def State.launchAccess (s : State) (a : Access) : State :=
  if a.waitsOn.isSome then s.modGang a.gang fun x => { x with hold := x.hold ++ [a] } else s.sendAccess a

/-- The lanes of an access that remain to complete: of a load, those that have not been read (R256). -/
def Access.remaining (a : Access) : List LaneAccess := a.lanes.filter fun l => !a.got.any fun v => v.lane == l.lane

/-- The access that a gang's a-slice waits to translate: its handler's own while one runs, else the user's (R256, R205). -/
def Gang.held (x : Gang) (sup : Bool) : Option Held := if sup then x.sreplay else x.replay
/-- A gang with that access replaced. -/
def Gang.setHeld (x : Gang) (sup : Bool) (h : Option Held) : Gang := if sup then { x with sreplay := h } else { x with replay := h }

/-- An access with missing lanes is held in the replay buffer, with every lane's address; the lanes of a load that translated are
read at once and their values kept (R256). -/
def State.holdAccess (s : State) (h : Held) : State :=
  let a := h.access
  let (s, vs) := if !h.redo && a.kind == .load then s.loadLanes a (a.remaining.filter (s.readable a)) else (s, [])
  s.modGang a.gang fun x => x.setHeld a.sup (some { h with access := { a with got := a.got ++ vs } })

/-- What came of a translation: it faults, it must wait and nothing has changed, it is held, or it can go on. -/
inductive Reach where
  | fault (r : Raised)
  | wait
  | held (s : State)
  | go (s : State) (a : Access)

/-- Stages 1 to 3 of R250 for an access at issue. A miss waits in the replay buffer for the die TLB, a handler's own as well (R349). -/
def State.reach (s : State) (a : Access) (pc : VAddr) (len : Nat) (redo : Bool) : Reach :=
  match s.accessFault (s.gang a.gang).mode a with
  | some r => .fault r
  | none =>
    let (s, ls) := s.translateLanes a.gang a.ctx a.space a.lanes
    let a := { a with lanes := ls }
    if s.mustWait a then .wait
    else if ls.all (·.pa.isSome) then .go s a
    else .held (s.holdAccess ⟨a, pc, len, redo⟩)

/-- Whether an access pushes or pops queue entries, which it does even with no lane active (R101). -/
def Access.queued (a : Access) : Bool :=
  a.waitsOn.isSome || (match a.dest with
    | .queue _ => true
    | _ => false)

/-- A memory instruction of the a-slice issued with an access. -/
def memOp (i : Instr) (f : State → GangId → Access) (s : State) : Out :=
  issue i s fun t =>
    match t.cur with
    | .a g =>
      let a := f t g
      if a.lanes.isEmpty && !a.queued then .next (t.advance i)
      else
        match t.reach { a with id := t.nextId } (t.pc t.cur) i.size false with
        | .fault r => .next (t.raise t.cur { r with len := i.size })
        | .wait => .next s
        | .held t => .next { t with nextId := t.nextId + 1 }
        | .go t a => .next ({ t.launchAccess a with nextId := t.nextId + 1 }.advance i)
    | _ => .next s

/-- An access of a gang with no lane yet. It is a handler's by the gang's mode. -/
def blankAccess (s : State) (g : GangId) (k : AccessKind) (sp : Space) (size op : Nat) (ty : Ty) (d : Dest) : Access :=
  { id := 0, gang := g, ctx := (s.gang g).ctx, sup := (s.gang g).mode != .user, kind := k, space := sp, size := size, op := op
    ty := ty, dest := d, active := s.active (.a g), lanes := [], got := [], waitsOn := none, era := (s.gang g).era }

/-- Lanes with their effective addresses and data. -/
def lanesWith (act : Word) (ea data cmp : Nat → Nat) : List LaneAccess :=
  (lanesOf act).map fun n => ⟨n, ea n, none, data n, cmp n⟩

/-! ## Loads and stores (R251 to R253) -/

/-- The access size of a size code (R68). -/
def sizeBytes (z : Nat) : Nat :=
  if z ≤ 1 then 1 else if z ≤ 3 then 2 else if z = 4 then 4 else if z = 5 then 8 else 16

/-- The effective address of a load or a store (R247): the register plus the offset scaled by the access size. -/
def effAddr (s : State) (g : GangId) (o : BitVec 4) (z : BitVec 3) (a : BitVec 6) (n : Nat) : Nat :=
  (((s.gang g).readA a.toNat n).bits + o.signExtend 64 * BitVec.ofNat 64 (sizeBytes z.toNat)).toNat

/-- The destination of a load (R251). -/
def loadDest (q : BitVec 1) (d : BitVec 6) : Dest := if q = 1 then .queue (d.toNat % 4) else .reg d.toNat

/-- The access of a load. -/
def loadAccess (k : AccessKind) (o : BitVec 4) (q : BitVec 1) (p : BitVec 2) (z : BitVec 3) (a d : BitVec 6) (s : State)
    (g : GangId) : Access :=
  { blankAccess s g k (spaceOf p) (sizeBytes z.toNat) z.toNat .b64 (loadDest q d) with
    lanes := lanesWith (s.active (.a g)) (effAddr s g o z a) (fun _ => 0) (fun _ => 0) }

/-- The data of a store from a register, or from a pair for sixteen bytes (R253). -/
def storeData (s : State) (g : GangId) (z : BitVec 3) (d : BitVec 6) (n : Nat) : Nat :=
  let lo := ((s.gang g).readA d.toNat n).bits.toNat
  if z = 6 then lo + ((s.gang g).readA (d.toNat + 1) n).bits.toNat * 2 ^ 64 else lo % 2 ^ (8 * sizeBytes z.toNat)

/-- The access of a store: with q = 1 its data comes from `sq0` or `sq1`, later. -/
def storeAccess (k : AccessKind) (o : BitVec 4) (q : BitVec 1) (p : BitVec 2) (z : BitVec 3) (a d : BitVec 6) (s : State)
    (g : GangId) : Access :=
  { blankAccess s g k (spaceOf p) (sizeBytes z.toNat) z.toNat .b64 .none with
    lanes := lanesWith (s.active (.a g)) (effAddr s g o z a) (fun n => if q = 1 then 0 else storeData s g z d n) (fun _ => 0)
    waitsOn := if q = 1 then some (d.toNat % 2) else none }

/-- `LD` (R252): Load into a register or queue, after the address, permission and mapping checks. -/
def execLd (o : BitVec 4) (q : BitVec 1) (p : BitVec 2) (z : BitVec 3) (a : BitVec 6) (d : BitVec 6) : State → Out :=
  memOp (.ld o q p z a d) (loadAccess .load o q p z a d)
/-- `LD_FE` (R252): Load that waits for the granule to be full. -/
def execLdFe (o : BitVec 4) (q : BitVec 1) (p : BitVec 2) (z : BitVec 3) (a : BitVec 6) (d : BitVec 6) : State → Out :=
  memOp (.ldFe o q p z a d) (loadAccess .loadFe o q p z a d)
/-- `LD_FEC` (R252): Load that waits for full, then reads and clears. -/
def execLdFec (o : BitVec 4) (q : BitVec 1) (p : BitVec 2) (z : BitVec 3) (a : BitVec 6) (d : BitVec 6) : State → Out :=
  memOp (.ldFec o q p z a d) (loadAccess .loadFec o q p z a d)
/-- `ST` (R253): Store from a register or from sq0/sq1 through the store hold. -/
def execSt (o : BitVec 4) (q : BitVec 1) (p : BitVec 2) (z : BitVec 3) (a : BitVec 6) (d : BitVec 6) : State → Out :=
  memOp (.st o q p z a d) (storeAccess .store o q p z a d)
/-- `ST_FE` (R253): Store that sets the granule full after earlier accesses are performed. -/
def execStFe (o : BitVec 4) (q : BitVec 1) (p : BitVec 2) (z : BitVec 3) (a : BitVec 6) (d : BitVec 6) : State → Out :=
  memOp (.stFe o q p z a d) (storeAccess .storeFe o q p z a d)

/-! ## Atomics and no-return reductions (R259 to R262) -/

/-- The access of an atomic: `d` supplies the compare value of `cas`. -/
def atomicAccess (op : Nat) (t : Ty) (p : BitVec 2) (b : BitVec 5) (a : BitVec 6) (d : Option (BitVec 6)) (s : State)
    (g : GangId) : Access :=
  let low (c n : Nat) : Nat := ((s.gang g).readA c n).bits.toNat % 2 ^ t.bits
  { blankAccess s g .atomic (spaceOf p) (t.bits / 8) op t (match d with | some r => .reg r.toNat | none => .none) with
    lanes := lanesWith (s.active (.a g)) (fun n => ((s.gang g).readA a.toNat n).bits.toNat) (low b.toNat)
      (fun n => match d with | some r => low r.toNat n | none => 0) }

/-- The new value of an integer atomic (R260); `none` where nothing is written. -/
def atomicInt (t : Ty) (op old v cmp : Nat) : Option Nat :=
  let f (h : DWord → DWord → DWord) : Option Nat := some (h (BitVec.ofNat 64 old) (BitVec.ofNat 64 v)).toNat
  match op with
  | 0 => f (aluAdd t)
  | 1 => f (aluMin t)
  | 2 => f (aluMax t)
  | 3 => f (aluAnd t)
  | 4 => f (aluOr t)
  | 5 => f (aluXor t)
  | 6 => some v
  | _ => if old = cmp then some v else none

/-- The new value of a floating atomic (R261). -/
def atomicFloat (t : Ty) (op old v : Nat) : Nat :=
  let F := Fmt.ofTy t
  if op = 0 then F.add .rne old v
  else if old = v && !F.isNaN old then old
  else F.pickNumber (op = 2) old v

/-- The new value of an atomic or reduction. -/
def atomicNew (t : Ty) (op old v cmp : Nat) : Option Nat :=
  if t.floating then some (atomicFloat t op old v) else atomicInt t op old v cmp

/-- `ATOM_ADD` (R260): Atomic add returning the old value. -/
def execAtomAdd (t : BitVec 2) (p : BitVec 2) (b : BitVec 5) (a : BitVec 6) (d : BitVec 6) : State → Out :=
  memOp (.atomAdd t p b a d) (atomicAccess 0 (.I t) p b a (some d))
/-- `ATOM_MIN` (R260): Atomic minimum. -/
def execAtomMin (t : BitVec 2) (p : BitVec 2) (b : BitVec 5) (a : BitVec 6) (d : BitVec 6) : State → Out :=
  memOp (.atomMin t p b a d) (atomicAccess 1 (.I t) p b a (some d))
/-- `ATOM_MAX` (R260): Atomic maximum. -/
def execAtomMax (t : BitVec 2) (p : BitVec 2) (b : BitVec 5) (a : BitVec 6) (d : BitVec 6) : State → Out :=
  memOp (.atomMax t p b a d) (atomicAccess 2 (.I t) p b a (some d))
/-- `ATOM_AND` (R260): Atomic and. -/
def execAtomAnd (t : BitVec 2) (p : BitVec 2) (b : BitVec 5) (a : BitVec 6) (d : BitVec 6) : State → Out :=
  memOp (.atomAnd t p b a d) (atomicAccess 3 (.I t) p b a (some d))
/-- `ATOM_OR` (R260): Atomic or. -/
def execAtomOr (t : BitVec 2) (p : BitVec 2) (b : BitVec 5) (a : BitVec 6) (d : BitVec 6) : State → Out :=
  memOp (.atomOr t p b a d) (atomicAccess 4 (.I t) p b a (some d))
/-- `ATOM_XOR` (R260): Atomic xor. -/
def execAtomXor (t : BitVec 2) (p : BitVec 2) (b : BitVec 5) (a : BitVec 6) (d : BitVec 6) : State → Out :=
  memOp (.atomXor t p b a d) (atomicAccess 5 (.I t) p b a (some d))
/-- `ATOM_EXCH` (R260): Atomic exchange. -/
def execAtomExch (t : BitVec 2) (p : BitVec 2) (b : BitVec 5) (a : BitVec 6) (d : BitVec 6) : State → Out :=
  memOp (.atomExch t p b a d) (atomicAccess 6 (.I t) p b a (some d))
/-- `ATOM_CAS` (R260): Atomic compare-and-swap against d. -/
def execAtomCas (t : BitVec 2) (p : BitVec 2) (b : BitVec 5) (a : BitVec 6) (d : BitVec 6) : State → Out :=
  memOp (.atomCas t p b a d) (atomicAccess 7 (.I t) p b a (some d))
/-- `RED_ADD` (R262): No-return atomic add. -/
def execRedAdd (t : BitVec 2) (p : BitVec 2) (b : BitVec 5) (a : BitVec 6) : State → Out :=
  memOp (.redAdd t p b a) (atomicAccess 0 (.I t) p b a none)
/-- `RED_MIN` (R262): No-return atomic minimum. -/
def execRedMin (t : BitVec 2) (p : BitVec 2) (b : BitVec 5) (a : BitVec 6) : State → Out :=
  memOp (.redMin t p b a) (atomicAccess 1 (.I t) p b a none)
/-- `RED_MAX` (R262): No-return atomic maximum. -/
def execRedMax (t : BitVec 2) (p : BitVec 2) (b : BitVec 5) (a : BitVec 6) : State → Out :=
  memOp (.redMax t p b a) (atomicAccess 2 (.I t) p b a none)
/-- `RED_AND` (R262): No-return atomic and. -/
def execRedAnd (t : BitVec 2) (p : BitVec 2) (b : BitVec 5) (a : BitVec 6) : State → Out :=
  memOp (.redAnd t p b a) (atomicAccess 3 (.I t) p b a none)
/-- `RED_OR` (R262): No-return atomic or. -/
def execRedOr (t : BitVec 2) (p : BitVec 2) (b : BitVec 5) (a : BitVec 6) : State → Out :=
  memOp (.redOr t p b a) (atomicAccess 4 (.I t) p b a none)
/-- `RED_XOR` (R262): No-return atomic xor. -/
def execRedXor (t : BitVec 2) (p : BitVec 2) (b : BitVec 5) (a : BitVec 6) : State → Out :=
  memOp (.redXor t p b a) (atomicAccess 5 (.I t) p b a none)
/-- `FATOM_ADD` (R261): Floating atomic add returning the old value. -/
def execFatomAdd (t : BitVec 2) (p : BitVec 2) (b : BitVec 5) (a : BitVec 6) (d : BitVec 6) : State → Out :=
  memOp (.fatomAdd t p b a d) (atomicAccess 0 (.F t) p b a (some d))
/-- `FATOM_MIN` (R261): Floating atomic minimumNumber. -/
def execFatomMin (t : BitVec 2) (p : BitVec 2) (b : BitVec 5) (a : BitVec 6) (d : BitVec 6) : State → Out :=
  memOp (.fatomMin t p b a d) (atomicAccess 1 (.F t) p b a (some d))
/-- `FATOM_MAX` (R261): Floating atomic maximumNumber. -/
def execFatomMax (t : BitVec 2) (p : BitVec 2) (b : BitVec 5) (a : BitVec 6) (d : BitVec 6) : State → Out :=
  memOp (.fatomMax t p b a d) (atomicAccess 2 (.F t) p b a (some d))
/-- `FRED_ADD` (R262): No-return floating add. -/
def execFredAdd (t : BitVec 2) (p : BitVec 2) (b : BitVec 5) (a : BitVec 6) : State → Out :=
  memOp (.fredAdd t p b a) (atomicAccess 0 (.F t) p b a none)
/-- `FRED_MIN` (R262): No-return floating minimumNumber. -/
def execFredMin (t : BitVec 2) (p : BitVec 2) (b : BitVec 5) (a : BitVec 6) : State → Out :=
  memOp (.fredMin t p b a) (atomicAccess 1 (.F t) p b a none)
/-- `FRED_MAX` (R262): No-return floating maximumNumber. -/
def execFredMax (t : BitVec 2) (p : BitVec 2) (b : BitVec 5) (a : BitVec 6) : State → Out :=
  memOp (.fredMax t p b a) (atomicAccess 2 (.F t) p b a none)

end Sys2Proof.Machine
end

