-- ==== Sys2Proof/Machine/Flit.lean ====
section
/-! DEFINITION. Flits (R419 to R421, R423): their layout and CRC, what a port sends, keeps and sends again, and the port that a
request goes out on. -/

namespace Sys2Proof.Machine

/-! ## Ports -/

/-- A port of a package. -/
def Pkg.port (x : Pkg) (n : Nat) : Port := tget n {} x.ports
/-- A port of a package changed. -/
def Pkg.modPort (x : Pkg) (n : Nat) (f : Port → Port) : Pkg := { x with ports := tset n (f (x.port n)) x.ports }
/-- Whether a port carries flits. -/
def Port.carries (x : Port) : Bool := decide (2 ≤ x.state) && !x.swapping
/-- The send window of a port (R420, R421). -/
def Port.window (x : Port) : Nat := if x.state = 4 then 256 else 512

/-! ## The layout of a flit (R419) -/

/-- One step of the CRC over a bit, least significant first. -/
def crcStep (c : Word) : Word := if c.getLsbD 0 then (c >>> 1) ^^^ 0xEDB88320 else c >>> 1
/-- The CRC over a byte. -/
def crcByte (c : Word) (b : Byte) : Word :=
  crcStep (crcStep (crcStep (crcStep (crcStep (crcStep (crcStep (crcStep (c ^^^ b.zeroExtend 32))))))))
/-- The CRC-32 of IEEE 802.3 over some bytes. -/
def crc32 (bs : List Byte) : Word := ~~~(bs.foldl crcByte 0xFFFFFFFF)

/-- Whether a flit has its length and its CRC (R419). -/
def flitOk (f : List Byte) : Bool :=
  decide (f.length = 80) && decide (BitVec.ofNat 32 (numOf ((f.drop 12).take 4)) = crc32 (f.take 12 ++ f.drop 16))

/-- The type of a flit. -/
def flitType (f : List Byte) : Nat := numOf (f.take 1)
/-- The link sequence of a flit. -/
def flitLseq (f : List Byte) : BitVec 16 := BitVec.ofNat 16 (numOf ((f.drop 2).take 2))
/-- The sequence that a flit acknowledges. -/
def flitAseq (f : List Byte) : BitVec 16 := BitVec.ofNat 16 (numOf ((f.drop 4).take 2))
/-- The destination package of a flit. -/
def flitDst (f : List Byte) : Nat := numOf ((f.drop 6).take 2) % 2 ^ 10

/-- What a flit carries from hop to hop: all of it but the link's own fields. -/
def flitBody (f : List Byte) : FlitBody :=
  { kind := flitType f, vc := numOf ((f.drop 1).take 1), dst := flitDst f, src := numOf ((f.drop 8).take 2) % 2 ^ 10
    tag := numOf ((f.drop 10).take 2), payload := f.drop 16 }

/-- The flit that carries a body over a link (R419): its link sequence, what it acknowledges and its CRC are the port's. -/
def Port.frame (x : Port) (b : FlitBody) : List Byte :=
  let head := bytesOfNum b.kind 1 ++ bytesOfNum b.vc 1 ++ bytesOfNum x.lseq.toNat 2 ++ bytesOfNum x.aseq.toNat 2
    ++ bytesOfNum (b.dst % 2 ^ 10) 2 ++ bytesOfNum (b.src % 2 ^ 10) 2 ++ bytesOfNum b.tag 2
  head ++ bytesOfNum (crc32 (head ++ b.payload)).toNat 4 ++ b.payload

/-! ## Sending (R420) -/

/-- A new flit sent: it is kept until an acknowledged sequence covers it. -/
def Port.put (x : Port) (b : FlitBody) : Port :=
  let f := x.frame b
  { x with retry := x.retry ++ [f], lseq := x.lseq + 1, wire := x.wire ++ [f] }

/-- The flits that wait, sent while the window has room. -/
def Port.drain (x : Port) : List FlitBody → Port
  | [] => { x with queue := [] }
  | b :: bs => if x.retry.length < x.window then (x.put b).drain bs else { x with queue := b :: bs }

/-- What a port sends where it carries flits: first those that are to be sent again, then those that wait (R420, R421). -/
def Port.pump (x : Port) : Port :=
  if x.carries then ({ x with wire := x.wire ++ x.retry.take x.resend, resend := 0 } : Port).drain x.queue else x

/-- A flit handed to a port. -/
def Port.enqueue (x : Port) (b : FlitBody) : Port := ({ x with queue := x.queue ++ [b] } : Port).pump

/-! ## Routing (R423) -/

/-- The port that a request to a package goes out on: the one of the lower cost, and porta when the costs are equal. -/
def Route.out (r : Route) : Option Nat :=
  if r.dead then none
  else if r.porta < 24 && !(r.portb < 24 && r.costb < r.costa) then some r.porta
  else if r.portb < 24 then some r.portb
  else none

/-- A flit handed to the port that leads to its destination; where none does, nothing is sent. -/
def Pkg.fly (x : Pkg) (b : FlitBody) : Pkg :=
  match (tget b.dst {} x.paths : Route).out with
  | some n => x.modPort n fun p => p.enqueue b
  | none => x

/-- Flits handed one after another to the ports that lead to their destinations. -/
def Pkg.flyAll (x : Pkg) : List FlitBody → Pkg
  | [] => x
  | b :: bs => (x.fly b).flyAll bs

/-- The body of a flit from a package to another; the spec lays out no payload, so its bytes are free (log entry 22). -/
def bodyOf (kind vc src dst tag : Nat) : FlitBody :=
  { kind := kind, vc := vc, dst := dst, src := src, tag := tag % 2 ^ 16, payload := (List.range 64).map fun i => Config.flitByte kind tag i }

/-- A flit from a package to another one, if they differ. -/
def State.fly (s : State) (kind vc src dst tag : Nat) : State :=
  if src = dst then s else s.modPkg src fun x => x.fly (bodyOf kind vc src dst tag)

/-- A flit from a package to each of several. -/
def State.flyEach (s : State) (kind vc src tag : Nat) : List Nat → State
  | [] => s
  | q :: qs => (s.fly kind vc src q tag).flyEach kind vc src tag qs

/-- Whether an acknowledged sequence covers a flit. -/
def covered (a : BitVec 16) (f : List Byte) : Bool := (a - flitLseq f).toNat < 2 ^ 15

/-- The port at the other end of a port's link. -/
def State.peerPort (s : State) (x : Port) : Port := (s.pkg x.ppkg).port x.pport
/-- Whether the other end of a port's link is up and takes what the port sends (R418, R422). -/
def State.linked (s : State) (p n : Nat) : Bool :=
  let y := s.peerPort ((s.pkg p).port n)
  decide (2 ≤ y.state) && y.ppkg == p && y.pport == n

/-- Whether a flit still waits at a sender, on some package of its way, or has been sent and not been received there in order, so
that it has not arrived (R420). -/
def State.inQueue (s : State) (kind src dst tag : Nat) : Bool :=
  let is (b : FlitBody) : Bool := b.kind == kind && b.src == src && b.dst == dst && b.tag == tag % 2 ^ 16
  s.pkgs.any fun p => p.2.ports.any fun q =>
    q.2.queue.any is || q.2.retry.any fun f => is (flitBody f) && !(s.linked p.1 q.1 && covered (s.peerPort q.2).aseq f)

end Sys2Proof.Machine
end

