-- ==== Sys2Proof/Decode.lean ====
section
/-! DEFINITION. The encodings of chapter 02: `encode` writes the word of an instruction from the layouts of R58 to R75,
`parse` reads the fields of any word, and `decode` accepts a word for a unit in a mode or names the detail of R79. -/

namespace Sys2Proof

/-- The halfword of a 16-bit instruction (R58, R59); zero, which is illegal (R51), for every other row. -/
def encodeHalf : Instr → Half
  | .mov16 d b => d ++ b ++ 0#5
  | .add16 d b => d ++ b ++ 2#5
  | .sub16 d b => d ++ b ++ 4#5
  | .mul16 d b => d ++ b ++ 6#5
  | .and16 d b => d ++ b ++ 8#5
  | .or16 d b => d ++ b ++ 10#5
  | .xor16 d b => d ++ b ++ 12#5
  | .shl16 d b => d ++ b ++ 14#5
  | .shr16 d b => d ++ b ++ 16#5
  | .sar16 d b => d ++ b ++ 18#5
  | .min16 d b => d ++ b ++ 20#5
  | .max16 d b => d ++ b ++ 22#5
  | .fadd16 d b => d ++ b ++ 24#5
  | .fsub16 d b => d ++ b ++ 26#5
  | .fmul16 d b => d ++ b ++ 28#5
  | .fmax16 d b => d ++ b ++ 30#5
  | _ => 0

/-- The word of an instruction, its first halfword in bits [15:0] (R49, R60 to R75). An event has none and gives the
illegal word of R51. -/
def encode : Instr → Word
  | .add w sk b a d q => 0#1 ++ w ++ sk ++ b ++ a ++ d ++ q ++ 1#7
  | .sub w sk b a d q => 0#1 ++ w ++ sk ++ b ++ a ++ d ++ q ++ 3#7
  | .mul w sk b a d q => 0#1 ++ w ++ sk ++ b ++ a ++ d ++ q ++ 5#7
  | .mulh i sk b a d q => i ++ sk ++ b ++ a ++ d ++ q ++ 7#7
  | .mad w sk b a d q => 0#1 ++ w ++ sk ++ b ++ a ++ d ++ q ++ 9#7
  | .div i sk b a d q => i ++ sk ++ b ++ a ++ d ++ q ++ 11#7
  | .rem i sk b a d q => i ++ sk ++ b ++ a ++ d ++ q ++ 13#7
  | .min i sk b a d q => i ++ sk ++ b ++ a ++ d ++ q ++ 15#7
  | .max i sk b a d q => i ++ sk ++ b ++ a ++ d ++ q ++ 17#7
  | .and w sk b a d q => 0#1 ++ w ++ sk ++ b ++ a ++ d ++ q ++ 19#7
  | .or w sk b a d q => 0#1 ++ w ++ sk ++ b ++ a ++ d ++ q ++ 21#7
  | .xor w sk b a d q => 0#1 ++ w ++ sk ++ b ++ a ++ d ++ q ++ 23#7
  | .shl w sk b a d q => 0#1 ++ w ++ sk ++ b ++ a ++ d ++ q ++ 25#7
  | .shr w sk b a d q => 0#1 ++ w ++ sk ++ b ++ a ++ d ++ q ++ 27#7
  | .sar w sk b a d q => 0#1 ++ w ++ sk ++ b ++ a ++ d ++ q ++ 29#7
  | .rol w sk b a d q => 0#1 ++ w ++ sk ++ b ++ a ++ d ++ q ++ 31#7
  | .ror w sk b a d q => 1#1 ++ w ++ sk ++ b ++ a ++ d ++ q ++ 31#7
  | .abs w sk a d q => 0#1 ++ w ++ sk ++ 0#6 ++ a ++ d ++ q ++ 33#7
  | .neg w sk a d q => 0#1 ++ w ++ sk ++ 1#6 ++ a ++ d ++ q ++ 33#7
  | .not w sk a d q => 0#1 ++ w ++ sk ++ 2#6 ++ a ++ d ++ q ++ 33#7
  | .clz w sk a d q => 0#1 ++ w ++ sk ++ 3#6 ++ a ++ d ++ q ++ 33#7
  | .popc w sk a d q => 0#1 ++ w ++ sk ++ 4#6 ++ a ++ d ++ q ++ 33#7
  | .brev w sk a d q => 0#1 ++ w ++ sk ++ 5#6 ++ a ++ d ++ q ++ 33#7
  | .bfx i sk b a d q => i ++ sk ++ b ++ a ++ d ++ q ++ 35#7
  | .bfi w sk b a d q => 0#1 ++ w ++ sk ++ b ++ a ++ d ++ q ++ 37#7
  | .icmp i sk b a c m q => i ++ sk ++ b ++ a ++ c ++ m ++ q ++ 39#7
  | .sel n sk b a d q => n ++ sk ++ b ++ a ++ d ++ q ++ 41#7
  | .lea n sk b a d q => n ++ sk ++ b ++ a ++ d ++ q ++ 43#7
  | .fadd f sk b a d q => f ++ sk ++ b ++ a ++ d ++ q ++ 45#7
  | .fsub f sk b a d q => f ++ sk ++ b ++ a ++ d ++ q ++ 47#7
  | .fmul f sk b a d q => f ++ sk ++ b ++ a ++ d ++ q ++ 49#7
  | .fma f sk b a d q => f ++ sk ++ b ++ a ++ d ++ q ++ 51#7
  | .fdiv f sk b a d q => f ++ sk ++ b ++ a ++ d ++ q ++ 53#7
  | .fsqrt f sk r a d q => f ++ sk ++ r ++ 0#3 ++ a ++ d ++ q ++ 55#7
  | .frcp f sk a d q => f ++ sk ++ 1#6 ++ a ++ d ++ q ++ 55#7
  | .frsq f sk a d q => f ++ sk ++ 2#6 ++ a ++ d ++ q ++ 55#7
  | .fexp2 f sk a d q => f ++ sk ++ 3#6 ++ a ++ d ++ q ++ 55#7
  | .flog2 f sk a d q => f ++ sk ++ 4#6 ++ a ++ d ++ q ++ 55#7
  | .fabs f sk a d q => f ++ sk ++ 5#6 ++ a ++ d ++ q ++ 55#7
  | .fneg f sk a d q => f ++ sk ++ 6#6 ++ a ++ d ++ q ++ 55#7
  | .fmin f sk b a d q => f ++ sk ++ b ++ a ++ d ++ q ++ 57#7
  | .fmax f sk b a d q => f ++ sk ++ b ++ a ++ d ++ q ++ 59#7
  | .fminn f sk b a d q => f ++ sk ++ b ++ a ++ d ++ q ++ 61#7
  | .fmaxn f sk b a d q => f ++ sk ++ b ++ a ++ d ++ q ++ 63#7
  | .fcmp f sk b a c m q => f ++ sk ++ b ++ a ++ c ++ m ++ q ++ 65#7
  | .tspk t sk r i a d q => t ++ sk ++ r ++ i ++ a ++ d ++ q ++ 67#7
  | .tsupk t sk b a d q => t ++ sk ++ b ++ a ++ d ++ q ++ 69#7
  | .tssc sk b a d q => 3#2 ++ sk ++ b ++ a ++ d ++ q ++ 69#7
  | .shflIdx sk b a d q => 0#2 ++ sk ++ b ++ a ++ d ++ q ++ 71#7
  | .shflUp sk b a d q => 1#2 ++ sk ++ b ++ a ++ d ++ q ++ 71#7
  | .shflDn sk b a d q => 2#2 ++ sk ++ b ++ a ++ d ++ q ++ 71#7
  | .shflXor sk b a d q => 3#2 ++ sk ++ b ++ a ++ d ++ q ++ 71#7
  | .rotUp sk b a d q => 0#2 ++ sk ++ b ++ a ++ d ++ q ++ 73#7
  | .rotDn sk b a d q => 1#2 ++ sk ++ b ++ a ++ d ++ q ++ 73#7
  | .bcast sk n a d q => 2#2 ++ sk ++ 0#1 ++ n ++ a ++ d ++ q ++ 73#7
  | .gred t sk c o a d q => t ++ sk ++ c ++ 0#2 ++ o ++ a ++ d ++ q ++ 75#7
  | .scanInc t sk c o a d q => t ++ sk ++ c ++ 1#2 ++ o ++ a ++ d ++ q ++ 75#7
  | .scanExc t sk c o a d q => t ++ sk ++ c ++ 2#2 ++ o ++ a ++ d ++ q ++ 75#7
  | .kand sk b a d q => 0#2 ++ sk ++ 0#3 ++ b ++ 0#3 ++ a ++ 0#3 ++ d ++ q ++ 77#7
  | .kandn sk b a d q => 0#2 ++ sk ++ 1#3 ++ b ++ 0#3 ++ a ++ 0#3 ++ d ++ q ++ 77#7
  | .kor sk b a d q => 1#2 ++ sk ++ 0#3 ++ b ++ 0#3 ++ a ++ 0#3 ++ d ++ q ++ 77#7
  | .kxor sk b a d q => 2#2 ++ sk ++ 0#3 ++ b ++ 0#3 ++ a ++ 0#3 ++ d ++ q ++ 77#7
  | .knot sk a d q => 3#2 ++ sk ++ 0#9 ++ a ++ 0#3 ++ d ++ q ++ 77#7
  | .voteAll sk a d q => 3#2 ++ sk ++ 8#9 ++ a ++ 0#3 ++ d ++ q ++ 77#7
  | .voteAny sk a d q => 3#2 ++ sk ++ 16#9 ++ a ++ 0#3 ++ d ++ q ++ 77#7
  | .ballot sk a d q => 3#2 ++ sk ++ 24#9 ++ a ++ d ++ q ++ 77#7
  | .kset sk a d q => 3#2 ++ sk ++ 4#6 ++ a ++ 0#3 ++ d ++ q ++ 77#7
  | .kmov sk a d q => 3#2 ++ sk ++ 40#9 ++ a ++ 0#3 ++ d ++ q ++ 77#7
  | .faddD r sk b a d q => r ++ sk ++ b ++ a ++ d ++ q ++ 79#7
  | .fsubD r sk b a d q => r ++ sk ++ b ++ a ++ d ++ q ++ 81#7
  | .fmulD r sk b a d q => r ++ sk ++ b ++ a ++ d ++ q ++ 83#7
  | .fmaD r sk b a d q => r ++ sk ++ b ++ a ++ d ++ q ++ 85#7
  | .cvtRne u sk y v a d q => u ++ sk ++ y ++ v ++ a ++ d ++ q ++ 87#7
  | .cvtRna u sk y v a d q => u ++ sk ++ y ++ v ++ a ++ d ++ q ++ 89#7
  | .cvtRz u sk y v a d q => u ++ sk ++ y ++ v ++ a ++ d ++ q ++ 91#7
  | .cvtRup u sk y v a d q => u ++ sk ++ y ++ v ++ a ++ d ++ q ++ 93#7
  | .cvtRdn u sk y v a d q => u ++ sk ++ y ++ v ++ a ++ d ++ q ++ 95#7
  | .movImm i d => i ++ 0#2 ++ d ++ 97#8
  | .addImm i d => i ++ 1#2 ++ d ++ 97#8
  | .mulImm i d => i ++ 2#2 ++ d ++ 97#8
  | .andImm i d => i ++ 3#2 ++ d ++ 97#8
  | .orImm i d => i ++ 0#2 ++ d ++ 99#8
  | .xorImm i d => i ++ 1#2 ++ d ++ 99#8
  | .shlImm i d => i ++ 2#2 ++ d ++ 99#8
  | .shrImm i d => i ++ 3#2 ++ d ++ 99#8
  | .sarImm i d => i ++ 0#2 ++ d ++ 101#8
  | .minImm i d => i ++ 1#2 ++ d ++ 101#8
  | .maxImm i d => i ++ 2#2 ++ d ++ 101#8
  | .movh i h d => i ++ h ++ d ++ 103#8
  | .fmovImm i d => i ++ 0#2 ++ d ++ 105#8
  | .faddImm i d => i ++ 1#2 ++ d ++ 105#8
  | .fmulImm i d => i ++ 2#2 ++ d ++ 105#8
  | .fmaxImm i d => i ++ 3#2 ++ d ++ 105#8
  | .ld o q p z a d => o ++ q ++ 0#2 ++ p ++ z ++ a ++ d ++ 117#8
  | .ldFe o q p z a d => o ++ q ++ 1#2 ++ p ++ z ++ a ++ d ++ 117#8
  | .ldFec o q p z a d => o ++ q ++ 2#2 ++ p ++ z ++ a ++ d ++ 117#8
  | .st o q p z a d => o ++ q ++ 0#2 ++ p ++ z ++ a ++ d ++ 119#8
  | .stFe o q p z a d => o ++ q ++ 1#2 ++ p ++ z ++ a ++ d ++ 119#8
  | .atomAdd t p b a d => 0#3 ++ t ++ p ++ b ++ a ++ d ++ 121#8
  | .atomMin t p b a d => 1#3 ++ t ++ p ++ b ++ a ++ d ++ 121#8
  | .atomMax t p b a d => 2#3 ++ t ++ p ++ b ++ a ++ d ++ 121#8
  | .atomAnd t p b a d => 3#3 ++ t ++ p ++ b ++ a ++ d ++ 121#8
  | .atomOr t p b a d => 4#3 ++ t ++ p ++ b ++ a ++ d ++ 121#8
  | .atomXor t p b a d => 5#3 ++ t ++ p ++ b ++ a ++ d ++ 121#8
  | .atomExch t p b a d => 6#3 ++ t ++ p ++ b ++ a ++ d ++ 121#8
  | .atomCas t p b a d => 7#3 ++ t ++ p ++ b ++ a ++ d ++ 121#8
  | .redAdd t p b a => 0#3 ++ t ++ p ++ b ++ a ++ 123#14
  | .redMin t p b a => 1#3 ++ t ++ p ++ b ++ a ++ 123#14
  | .redMax t p b a => 2#3 ++ t ++ p ++ b ++ a ++ 123#14
  | .redAnd t p b a => 3#3 ++ t ++ p ++ b ++ a ++ 123#14
  | .redOr t p b a => 4#3 ++ t ++ p ++ b ++ a ++ 123#14
  | .redXor t p b a => 5#3 ++ t ++ p ++ b ++ a ++ 123#14
  | .fatomAdd t p b a d => 0#3 ++ t ++ p ++ b ++ a ++ d ++ 125#8
  | .fatomMin t p b a d => 1#3 ++ t ++ p ++ b ++ a ++ d ++ 125#8
  | .fatomMax t p b a d => 2#3 ++ t ++ p ++ b ++ a ++ d ++ 125#8
  | .fredAdd t p b a => 0#3 ++ t ++ p ++ b ++ a ++ 127#14
  | .fredMin t p b a => 1#3 ++ t ++ p ++ b ++ a ++ 127#14
  | .fredMax t p b a => 2#3 ++ t ++ p ++ b ++ a ++ 127#14
  | .bra o p => o ++ p ++ 107#13
  | .brc o p k c => o ++ p ++ k ++ c ++ 109#8
  | .brv o k => o ++ 1#1 ++ k ++ 111#10
  | .brd o => o ++ 113#14
  | .call o p => o ++ p ++ 115#13
  | .nop => 225#32
  | .rejoin => 67109089#32
  | .ret => 134217953#32
  | .jmpi b a p => 3#6 ++ b ++ a ++ 0#5 ++ p ++ 225#8
  | .exit => 268435681#32
  | .qpeek q d => 2560#15 ++ q ++ d ++ 225#8
  | .qcount q d => 10752#15 ++ q ++ d ++ 225#8
  | .qdrain q => 18944#15 ++ q ++ 225#14
  | .gsync => 402653409#32
  | .gsyncMask a => 1408#12 ++ a ++ 225#14
  | .trap n => 7#6 ++ n ++ 225#14
  | .brk n => 8#6 ++ n ++ 225#14
  | .svc n => 9#6 ++ n ++ 225#14
  | .rft => 671088865#32
  | .region => 738197729#32
  | .chkOff => 805306593#32
  | .chkOn => 1879048417#32
  | .chkQ d => 180224#18 ++ d ++ 225#8
  | .rdsr a d => 832#12 ++ a ++ d ++ 225#8
  | .wrsr b a => 14#6 ++ b ++ a ++ 225#14
  | .fence c => 0#21 ++ c ++ 227#8
  | .acq a => 64#12 ++ a ++ 227#14
  | .rel a => 128#12 ++ a ++ 227#14
  | .bind b a d => 3#6 ++ b ++ a ++ d ++ 227#8
  | .unbind a => 256#12 ++ a ++ 227#14
  | .mon a => 320#12 ++ a ++ 227#14
  | .mwait => 402653411#32
  | .pfL1 a => 448#12 ++ a ++ 227#14
  | .pfL2 a => 1472#12 ++ a ++ 227#14
  | .copy b a d => 0#6 ++ b ++ a ++ d ++ 229#8
  | .tcopy a d => 64#12 ++ a ++ d ++ 229#8
  | .copyt b a d => 2#6 ++ b ++ a ++ d ++ 229#8
  | .cwait b a => 3#6 ++ b ++ a ++ 229#14
  | .enq b a => 4#6 ++ b ++ a ++ 229#14
  | .deq a d => 320#12 ++ a ++ d ++ 229#8
  | .deqt b a d => 6#6 ++ b ++ a ++ d ++ 229#8
  | .mappg z b a d => z ++ 0#4 ++ b ++ a ++ d ++ 231#8
  | .unmappg z a => z ++ 64#10 ++ a ++ 231#14
  | .tlbinv a c => 128#12 ++ a ++ 0#3 ++ c ++ 231#8
  | .fbread d => 12288#18 ++ d ++ 231#8
  | .replay a => 256#12 ++ a ++ 231#14
  | .replayall => 335544551#32
  | .tmwait a => 0#12 ++ a ++ 233#14
  | .ctxsv a => 64#12 ++ a ++ 233#14
  | .ctxld a => 128#12 ++ a ++ 233#14
  | .rtcore a => 192#12 ++ a ++ 233#14
  | .rtclu a => 256#12 ++ a ++ 233#14
  | .skrd d => 20480#18 ++ d ++ 233#8
  | .replan a => 384#12 ++ a ++ 233#14
  | .rld z a d => z ++ 0#10 ++ a ++ d ++ 235#8
  | .rst z b a => z ++ 1#4 ++ b ++ a ++ 235#14
  | .rredAdd t b a => t ++ 2#4 ++ b ++ a ++ 235#14
  | .rredMin t b a => t ++ 2#4 ++ b ++ a ++ 491#14
  | .rredMax t b a => t ++ 2#4 ++ b ++ a ++ 747#14
  | .rredAnd t b a => t ++ 2#4 ++ b ++ a ++ 1003#14
  | .rredOr t b a => t ++ 2#4 ++ b ++ a ++ 1259#14
  | .rredXor t b a => t ++ 2#4 ++ b ++ a ++ 1515#14
  | .mcst z b a d => z ++ 3#4 ++ b ++ a ++ d ++ 235#8
  | .mcatomAdd t b a => t ++ 4#4 ++ b ++ a ++ 235#14
  | .mcatomMin t b a => t ++ 4#4 ++ b ++ a ++ 491#14
  | .mcatomMax t b a => t ++ 4#4 ++ b ++ a ++ 747#14
  | .mcatomAnd t b a => t ++ 4#4 ++ b ++ a ++ 1003#14
  | .mcatomOr t b a => t ++ 4#4 ++ b ++ a ++ 1259#14
  | .mcatomXor t b a => t ++ 4#4 ++ b ++ a ++ 1515#14
  | .mcwait b a => 5#6 ++ b ++ a ++ 235#14
  | .phjoin b a => 0#6 ++ b ++ a ++ 237#14
  | .phleave a => 64#12 ++ a ++ 237#14
  | .phsig a => 128#12 ++ a ++ 237#14
  | .phsigBnd a => 1152#12 ++ a ++ 237#14
  | .phwait b a => 3#6 ++ b ++ a ++ 237#14
  | .phsw b a => 4#6 ++ b ++ a ++ 237#14
  | .phswBnd b a => 20#6 ++ b ++ a ++ 237#14
  | .phany b a => 5#6 ++ b ++ a ++ 237#14
  | .phfind a d => 384#12 ++ a ++ d ++ 237#8
  | .mma t y z x m => t ++ y ++ z ++ x ++ 0#3 ++ m ++ 239#8
  | .mmaz t y z x m => t ++ y ++ z ++ x ++ 1#3 ++ m ++ 239#8
  | .azero t => t ++ 33007#28
  | .acvt t y x => t ++ y ++ 0#4 ++ x ++ 49391#17
  | .tpin t x => t ++ 0#8 ++ x ++ 65775#17
  | .awt m => 5#18 ++ m ++ 239#8
  | .pmapply t x => t ++ 0#8 ++ x ++ 98543#17
  | .gerd j m => 0#13 ++ j ++ 7#3 ++ m ++ 239#8
  | .lup t x => t ++ 0#8 ++ x ++ 241#17
  | .chol t x => t ++ 0#8 ++ x ++ 16625#17
  | .qrh t y x => t ++ y ++ 0#4 ++ x ++ 33009#17
  | .trsm t y f x => t ++ y ++ 0#1 ++ f ++ x ++ 49393#17
  | x => (encodeHalf x).zeroExtend 32

/-- What a 32-bit word reads as before it is checked: the row it names, or for an illegal selector the row whose fields it
shares; the details its selectors break; and the selector bits that those details already speak for. -/
structure Parsed where
  near : Instr
  extra : List Nat := []
  spoken : Word := 0
deriving DecidableEq, Repr

/-- The row of a 16-bit instruction (R58, R59). -/
def parseHalf (h : Half) : Instr :=
  let d := h.extractLsb' 10 6
  let b := h.extractLsb' 5 5
  match (h.extractLsb' 1 4).toNat with
  | 0 => .mov16 d b
  | 1 => .add16 d b
  | 2 => .sub16 d b
  | 3 => .mul16 d b
  | 4 => .and16 d b
  | 5 => .or16 d b
  | 6 => .xor16 d b
  | 7 => .shl16 d b
  | 8 => .shr16 d b
  | 9 => .sar16 d b
  | 10 => .min16 d b
  | 11 => .max16 d b
  | 12 => .fadd16 d b
  | 13 => .fsub16 d b
  | 14 => .fmul16 d b
  | _ => .fmax16 d b

/-- A selector value that chapter 02 marks illegal: detail 6, with the bits it stands in. -/
def illegal (near : Instr) (spoken : Word) : Parsed := ⟨near, [6], spoken⟩

/-- Class B: fn values 10 and 11 are illegal (R64). -/
def classB (w : Word) (x : Instr) : Parsed := if w.getLsbD 31 then illegal x 0x80000000 else ⟨x, [], 0⟩

/-- The lane operations, opcodes `0x00` to `0x2F` and `0x40` to `0x6F` (R60, R77); the argument is opcode[5:0]. -/
def parseLane (w : Word) : Nat → Parsed
  | 0 => classB w (.add (w.extractLsb' 30 1) (w.extractLsb' 26 4) (w.extractLsb' 20 6) (w.extractLsb' 14 6) (w.extractLsb' 8 6) (w.extractLsb' 7 1))
  | 1 => classB w (.sub (w.extractLsb' 30 1) (w.extractLsb' 26 4) (w.extractLsb' 20 6) (w.extractLsb' 14 6) (w.extractLsb' 8 6) (w.extractLsb' 7 1))
  | 2 => classB w (.mul (w.extractLsb' 30 1) (w.extractLsb' 26 4) (w.extractLsb' 20 6) (w.extractLsb' 14 6) (w.extractLsb' 8 6) (w.extractLsb' 7 1))
  | 3 => ⟨.mulh (w.extractLsb' 30 2) (w.extractLsb' 26 4) (w.extractLsb' 20 6) (w.extractLsb' 14 6) (w.extractLsb' 8 6) (w.extractLsb' 7 1), [], 0⟩
  | 4 => classB w (.mad (w.extractLsb' 30 1) (w.extractLsb' 26 4) (w.extractLsb' 20 6) (w.extractLsb' 14 6) (w.extractLsb' 8 6) (w.extractLsb' 7 1))
  | 5 => ⟨.div (w.extractLsb' 30 2) (w.extractLsb' 26 4) (w.extractLsb' 20 6) (w.extractLsb' 14 6) (w.extractLsb' 8 6) (w.extractLsb' 7 1), [], 0⟩
  | 6 => ⟨.rem (w.extractLsb' 30 2) (w.extractLsb' 26 4) (w.extractLsb' 20 6) (w.extractLsb' 14 6) (w.extractLsb' 8 6) (w.extractLsb' 7 1), [], 0⟩
  | 7 => ⟨.min (w.extractLsb' 30 2) (w.extractLsb' 26 4) (w.extractLsb' 20 6) (w.extractLsb' 14 6) (w.extractLsb' 8 6) (w.extractLsb' 7 1), [], 0⟩
  | 8 => ⟨.max (w.extractLsb' 30 2) (w.extractLsb' 26 4) (w.extractLsb' 20 6) (w.extractLsb' 14 6) (w.extractLsb' 8 6) (w.extractLsb' 7 1), [], 0⟩
  | 9 => classB w (.and (w.extractLsb' 30 1) (w.extractLsb' 26 4) (w.extractLsb' 20 6) (w.extractLsb' 14 6) (w.extractLsb' 8 6) (w.extractLsb' 7 1))
  | 10 => classB w (.or (w.extractLsb' 30 1) (w.extractLsb' 26 4) (w.extractLsb' 20 6) (w.extractLsb' 14 6) (w.extractLsb' 8 6) (w.extractLsb' 7 1))
  | 11 => classB w (.xor (w.extractLsb' 30 1) (w.extractLsb' 26 4) (w.extractLsb' 20 6) (w.extractLsb' 14 6) (w.extractLsb' 8 6) (w.extractLsb' 7 1))
  | 12 => classB w (.shl (w.extractLsb' 30 1) (w.extractLsb' 26 4) (w.extractLsb' 20 6) (w.extractLsb' 14 6) (w.extractLsb' 8 6) (w.extractLsb' 7 1))
  | 13 => classB w (.shr (w.extractLsb' 30 1) (w.extractLsb' 26 4) (w.extractLsb' 20 6) (w.extractLsb' 14 6) (w.extractLsb' 8 6) (w.extractLsb' 7 1))
  | 14 => classB w (.sar (w.extractLsb' 30 1) (w.extractLsb' 26 4) (w.extractLsb' 20 6) (w.extractLsb' 14 6) (w.extractLsb' 8 6) (w.extractLsb' 7 1))
  | 15 => if w.getLsbD 31 then ⟨.ror (w.extractLsb' 30 1) (w.extractLsb' 26 4) (w.extractLsb' 20 6) (w.extractLsb' 14 6) (w.extractLsb' 8 6) (w.extractLsb' 7 1), [], 0⟩ else ⟨.rol (w.extractLsb' 30 1) (w.extractLsb' 26 4) (w.extractLsb' 20 6) (w.extractLsb' 14 6) (w.extractLsb' 8 6) (w.extractLsb' 7 1), [], 0⟩
  | 16 =>
    match (w.extractLsb' 20 6).toNat with
    | 0 => classB w (.abs (w.extractLsb' 30 1) (w.extractLsb' 26 4) (w.extractLsb' 14 6) (w.extractLsb' 8 6) (w.extractLsb' 7 1))
    | 1 => classB w (.neg (w.extractLsb' 30 1) (w.extractLsb' 26 4) (w.extractLsb' 14 6) (w.extractLsb' 8 6) (w.extractLsb' 7 1))
    | 2 => classB w (.not (w.extractLsb' 30 1) (w.extractLsb' 26 4) (w.extractLsb' 14 6) (w.extractLsb' 8 6) (w.extractLsb' 7 1))
    | 3 => classB w (.clz (w.extractLsb' 30 1) (w.extractLsb' 26 4) (w.extractLsb' 14 6) (w.extractLsb' 8 6) (w.extractLsb' 7 1))
    | 4 => classB w (.popc (w.extractLsb' 30 1) (w.extractLsb' 26 4) (w.extractLsb' 14 6) (w.extractLsb' 8 6) (w.extractLsb' 7 1))
    | 5 => classB w (.brev (w.extractLsb' 30 1) (w.extractLsb' 26 4) (w.extractLsb' 14 6) (w.extractLsb' 8 6) (w.extractLsb' 7 1))
    | _ => ⟨.abs (w.extractLsb' 30 1) (w.extractLsb' 26 4) (w.extractLsb' 14 6) (w.extractLsb' 8 6) (w.extractLsb' 7 1), [6], 0x83F00000⟩
  | 17 => ⟨.bfx (w.extractLsb' 30 2) (w.extractLsb' 26 4) (w.extractLsb' 20 6) (w.extractLsb' 14 6) (w.extractLsb' 8 6) (w.extractLsb' 7 1), [], 0⟩
  | 18 => classB w (.bfi (w.extractLsb' 30 1) (w.extractLsb' 26 4) (w.extractLsb' 20 6) (w.extractLsb' 14 6) (w.extractLsb' 8 6) (w.extractLsb' 7 1))
  | 19 => ⟨.icmp (w.extractLsb' 30 2) (w.extractLsb' 26 4) (w.extractLsb' 20 6) (w.extractLsb' 14 6) (w.extractLsb' 11 3) (w.extractLsb' 8 3) (w.extractLsb' 7 1), [], 0⟩
  | 20 => ⟨.sel (w.extractLsb' 30 2) (w.extractLsb' 26 4) (w.extractLsb' 20 6) (w.extractLsb' 14 6) (w.extractLsb' 8 6) (w.extractLsb' 7 1), [], 0⟩
  | 21 => ⟨.lea (w.extractLsb' 30 2) (w.extractLsb' 26 4) (w.extractLsb' 20 6) (w.extractLsb' 14 6) (w.extractLsb' 8 6) (w.extractLsb' 7 1), [], 0⟩
  | 22 => ⟨.fadd (w.extractLsb' 30 2) (w.extractLsb' 26 4) (w.extractLsb' 20 6) (w.extractLsb' 14 6) (w.extractLsb' 8 6) (w.extractLsb' 7 1), [], 0⟩
  | 23 => ⟨.fsub (w.extractLsb' 30 2) (w.extractLsb' 26 4) (w.extractLsb' 20 6) (w.extractLsb' 14 6) (w.extractLsb' 8 6) (w.extractLsb' 7 1), [], 0⟩
  | 24 => ⟨.fmul (w.extractLsb' 30 2) (w.extractLsb' 26 4) (w.extractLsb' 20 6) (w.extractLsb' 14 6) (w.extractLsb' 8 6) (w.extractLsb' 7 1), [], 0⟩
  | 25 => ⟨.fma (w.extractLsb' 30 2) (w.extractLsb' 26 4) (w.extractLsb' 20 6) (w.extractLsb' 14 6) (w.extractLsb' 8 6) (w.extractLsb' 7 1), [], 0⟩
  | 26 => ⟨.fdiv (w.extractLsb' 30 2) (w.extractLsb' 26 4) (w.extractLsb' 20 6) (w.extractLsb' 14 6) (w.extractLsb' 8 6) (w.extractLsb' 7 1), [], 0⟩
  | 27 =>
    match (w.extractLsb' 20 3).toNat with
    | 0 => ⟨.fsqrt (w.extractLsb' 30 2) (w.extractLsb' 26 4) (w.extractLsb' 23 3) (w.extractLsb' 14 6) (w.extractLsb' 8 6) (w.extractLsb' 7 1), [], 0⟩
    | 1 => ⟨.frcp (w.extractLsb' 30 2) (w.extractLsb' 26 4) (w.extractLsb' 14 6) (w.extractLsb' 8 6) (w.extractLsb' 7 1), [], 0⟩
    | 2 => ⟨.frsq (w.extractLsb' 30 2) (w.extractLsb' 26 4) (w.extractLsb' 14 6) (w.extractLsb' 8 6) (w.extractLsb' 7 1), [], 0⟩
    | 3 => ⟨.fexp2 (w.extractLsb' 30 2) (w.extractLsb' 26 4) (w.extractLsb' 14 6) (w.extractLsb' 8 6) (w.extractLsb' 7 1), [], 0⟩
    | 4 => ⟨.flog2 (w.extractLsb' 30 2) (w.extractLsb' 26 4) (w.extractLsb' 14 6) (w.extractLsb' 8 6) (w.extractLsb' 7 1), [], 0⟩
    | 5 => ⟨.fabs (w.extractLsb' 30 2) (w.extractLsb' 26 4) (w.extractLsb' 14 6) (w.extractLsb' 8 6) (w.extractLsb' 7 1), [], 0⟩
    | 6 => ⟨.fneg (w.extractLsb' 30 2) (w.extractLsb' 26 4) (w.extractLsb' 14 6) (w.extractLsb' 8 6) (w.extractLsb' 7 1), [], 0⟩
    | _ => illegal (.fabs (w.extractLsb' 30 2) (w.extractLsb' 26 4) (w.extractLsb' 14 6) (w.extractLsb' 8 6) (w.extractLsb' 7 1)) 0x00700000
  | 28 => ⟨.fmin (w.extractLsb' 30 2) (w.extractLsb' 26 4) (w.extractLsb' 20 6) (w.extractLsb' 14 6) (w.extractLsb' 8 6) (w.extractLsb' 7 1), [], 0⟩
  | 29 => ⟨.fmax (w.extractLsb' 30 2) (w.extractLsb' 26 4) (w.extractLsb' 20 6) (w.extractLsb' 14 6) (w.extractLsb' 8 6) (w.extractLsb' 7 1), [], 0⟩
  | 30 => ⟨.fminn (w.extractLsb' 30 2) (w.extractLsb' 26 4) (w.extractLsb' 20 6) (w.extractLsb' 14 6) (w.extractLsb' 8 6) (w.extractLsb' 7 1), [], 0⟩
  | 31 => ⟨.fmaxn (w.extractLsb' 30 2) (w.extractLsb' 26 4) (w.extractLsb' 20 6) (w.extractLsb' 14 6) (w.extractLsb' 8 6) (w.extractLsb' 7 1), [], 0⟩
  | 32 => ⟨.fcmp (w.extractLsb' 30 2) (w.extractLsb' 26 4) (w.extractLsb' 20 6) (w.extractLsb' 14 6) (w.extractLsb' 11 3) (w.extractLsb' 8 3) (w.extractLsb' 7 1), [], 0⟩
  | 33 => ⟨.tspk (w.extractLsb' 30 2) (w.extractLsb' 26 4) (w.extractLsb' 23 3) (w.extractLsb' 20 3) (w.extractLsb' 14 6) (w.extractLsb' 8 6) (w.extractLsb' 7 1), [], 0⟩
  | 34 => if (w.extractLsb' 30 2) = 3 then ⟨.tssc (w.extractLsb' 26 4) (w.extractLsb' 20 6) (w.extractLsb' 14 6) (w.extractLsb' 8 6) (w.extractLsb' 7 1), [], 0⟩ else ⟨.tsupk (w.extractLsb' 30 2) (w.extractLsb' 26 4) (w.extractLsb' 20 6) (w.extractLsb' 14 6) (w.extractLsb' 8 6) (w.extractLsb' 7 1), [], 0⟩
  | 35 =>
    match (w.extractLsb' 30 2).toNat with
    | 0 => ⟨.shflIdx (w.extractLsb' 26 4) (w.extractLsb' 20 6) (w.extractLsb' 14 6) (w.extractLsb' 8 6) (w.extractLsb' 7 1), [], 0⟩
    | 1 => ⟨.shflUp (w.extractLsb' 26 4) (w.extractLsb' 20 6) (w.extractLsb' 14 6) (w.extractLsb' 8 6) (w.extractLsb' 7 1), [], 0⟩
    | 2 => ⟨.shflDn (w.extractLsb' 26 4) (w.extractLsb' 20 6) (w.extractLsb' 14 6) (w.extractLsb' 8 6) (w.extractLsb' 7 1), [], 0⟩
    | _ => ⟨.shflXor (w.extractLsb' 26 4) (w.extractLsb' 20 6) (w.extractLsb' 14 6) (w.extractLsb' 8 6) (w.extractLsb' 7 1), [], 0⟩
  | 36 =>
    match (w.extractLsb' 30 2).toNat with
    | 0 => ⟨.rotUp (w.extractLsb' 26 4) (w.extractLsb' 20 6) (w.extractLsb' 14 6) (w.extractLsb' 8 6) (w.extractLsb' 7 1), [], 0⟩
    | 1 => ⟨.rotDn (w.extractLsb' 26 4) (w.extractLsb' 20 6) (w.extractLsb' 14 6) (w.extractLsb' 8 6) (w.extractLsb' 7 1), [], 0⟩
    | 2 => ⟨.bcast (w.extractLsb' 26 4) (w.extractLsb' 20 5) (w.extractLsb' 14 6) (w.extractLsb' 8 6) (w.extractLsb' 7 1), [], 0⟩
    | _ => illegal (.rotDn (w.extractLsb' 26 4) (w.extractLsb' 20 6) (w.extractLsb' 14 6) (w.extractLsb' 8 6) (w.extractLsb' 7 1)) 0xC0000000
  | 37 =>
    match (w.extractLsb' 23 2).toNat with
    | 0 => ⟨.gred (w.extractLsb' 30 2) (w.extractLsb' 26 4) (w.extractLsb' 25 1) (w.extractLsb' 20 3) (w.extractLsb' 14 6) (w.extractLsb' 8 6) (w.extractLsb' 7 1), [], 0⟩
    | 1 => ⟨.scanInc (w.extractLsb' 30 2) (w.extractLsb' 26 4) (w.extractLsb' 25 1) (w.extractLsb' 20 3) (w.extractLsb' 14 6) (w.extractLsb' 8 6) (w.extractLsb' 7 1), [], 0⟩
    | 2 => ⟨.scanExc (w.extractLsb' 30 2) (w.extractLsb' 26 4) (w.extractLsb' 25 1) (w.extractLsb' 20 3) (w.extractLsb' 14 6) (w.extractLsb' 8 6) (w.extractLsb' 7 1), [], 0⟩
    | _ => illegal (.gred (w.extractLsb' 30 2) (w.extractLsb' 26 4) (w.extractLsb' 25 1) (w.extractLsb' 20 3) (w.extractLsb' 14 6) (w.extractLsb' 8 6) (w.extractLsb' 7 1)) 0x01800000
  | 38 =>
    match (w.extractLsb' 30 2).toNat with
    | 0 => if w.getLsbD 23 then ⟨.kandn (w.extractLsb' 26 4) (w.extractLsb' 20 3) (w.extractLsb' 14 3) (w.extractLsb' 8 3) (w.extractLsb' 7 1), [], 0⟩ else ⟨.kand (w.extractLsb' 26 4) (w.extractLsb' 20 3) (w.extractLsb' 14 3) (w.extractLsb' 8 3) (w.extractLsb' 7 1), [], 0⟩
    | 1 => ⟨.kor (w.extractLsb' 26 4) (w.extractLsb' 20 3) (w.extractLsb' 14 3) (w.extractLsb' 8 3) (w.extractLsb' 7 1), [], 0⟩
    | 2 => ⟨.kxor (w.extractLsb' 26 4) (w.extractLsb' 20 3) (w.extractLsb' 14 3) (w.extractLsb' 8 3) (w.extractLsb' 7 1), [], 0⟩
    | _ =>
      match (w.extractLsb' 20 6).toNat with
      | 0 => ⟨.knot (w.extractLsb' 26 4) (w.extractLsb' 14 3) (w.extractLsb' 8 3) (w.extractLsb' 7 1), [], 0⟩
      | 1 => ⟨.voteAll (w.extractLsb' 26 4) (w.extractLsb' 14 3) (w.extractLsb' 8 3) (w.extractLsb' 7 1), [], 0⟩
      | 2 => ⟨.voteAny (w.extractLsb' 26 4) (w.extractLsb' 14 3) (w.extractLsb' 8 3) (w.extractLsb' 7 1), [], 0⟩
      | 3 => ⟨.ballot (w.extractLsb' 26 4) (w.extractLsb' 14 3) (w.extractLsb' 8 6) (w.extractLsb' 7 1), [], 0⟩
      | 4 => ⟨.kset (w.extractLsb' 26 4) (w.extractLsb' 14 6) (w.extractLsb' 8 3) (w.extractLsb' 7 1), [], 0⟩
      | 5 => ⟨.kmov (w.extractLsb' 26 4) (w.extractLsb' 14 3) (w.extractLsb' 8 3) (w.extractLsb' 7 1), [], 0⟩
      | _ => illegal (.knot (w.extractLsb' 26 4) (w.extractLsb' 14 3) (w.extractLsb' 8 3) (w.extractLsb' 7 1)) 0x03F00000
  | 39 => ⟨.faddD (w.extractLsb' 30 2) (w.extractLsb' 26 4) (w.extractLsb' 20 6) (w.extractLsb' 14 6) (w.extractLsb' 8 6) (w.extractLsb' 7 1), [], 0⟩
  | 40 => ⟨.fsubD (w.extractLsb' 30 2) (w.extractLsb' 26 4) (w.extractLsb' 20 6) (w.extractLsb' 14 6) (w.extractLsb' 8 6) (w.extractLsb' 7 1), [], 0⟩
  | 41 => ⟨.fmulD (w.extractLsb' 30 2) (w.extractLsb' 26 4) (w.extractLsb' 20 6) (w.extractLsb' 14 6) (w.extractLsb' 8 6) (w.extractLsb' 7 1), [], 0⟩
  | 42 => ⟨.fmaD (w.extractLsb' 30 2) (w.extractLsb' 26 4) (w.extractLsb' 20 6) (w.extractLsb' 14 6) (w.extractLsb' 8 6) (w.extractLsb' 7 1), [], 0⟩
  | 43 => ⟨.cvtRne (w.extractLsb' 30 2) (w.extractLsb' 26 4) (w.extractLsb' 22 4) (w.extractLsb' 20 2) (w.extractLsb' 14 6) (w.extractLsb' 8 6) (w.extractLsb' 7 1), [], 0⟩
  | 44 => ⟨.cvtRna (w.extractLsb' 30 2) (w.extractLsb' 26 4) (w.extractLsb' 22 4) (w.extractLsb' 20 2) (w.extractLsb' 14 6) (w.extractLsb' 8 6) (w.extractLsb' 7 1), [], 0⟩
  | 45 => ⟨.cvtRz (w.extractLsb' 30 2) (w.extractLsb' 26 4) (w.extractLsb' 22 4) (w.extractLsb' 20 2) (w.extractLsb' 14 6) (w.extractLsb' 8 6) (w.extractLsb' 7 1), [], 0⟩
  | 46 => ⟨.cvtRup (w.extractLsb' 30 2) (w.extractLsb' 26 4) (w.extractLsb' 22 4) (w.extractLsb' 20 2) (w.extractLsb' 14 6) (w.extractLsb' 8 6) (w.extractLsb' 7 1), [], 0⟩
  | _ => ⟨.cvtRdn (w.extractLsb' 30 2) (w.extractLsb' 26 4) (w.extractLsb' 22 4) (w.extractLsb' 20 2) (w.extractLsb' 14 6) (w.extractLsb' 8 6) (w.extractLsb' 7 1), [], 0⟩

/-- Opcode `0x30` (R65). -/
def parseImmA (w : Word) : Parsed :=
  match (w.extractLsb' 14 2).toNat with
  | 0 => ⟨.movImm (w.extractLsb' 16 16) (w.extractLsb' 8 6), [], 0⟩
  | 1 => ⟨.addImm (w.extractLsb' 16 16) (w.extractLsb' 8 6), [], 0⟩
  | 2 => ⟨.mulImm (w.extractLsb' 16 16) (w.extractLsb' 8 6), [], 0⟩
  | _ => ⟨.andImm (w.extractLsb' 16 16) (w.extractLsb' 8 6), [], 0⟩

/-- Opcode `0x31` (R65). -/
def parseImmB (w : Word) : Parsed :=
  match (w.extractLsb' 14 2).toNat with
  | 0 => ⟨.orImm (w.extractLsb' 16 16) (w.extractLsb' 8 6), [], 0⟩
  | 1 => ⟨.xorImm (w.extractLsb' 16 16) (w.extractLsb' 8 6), [], 0⟩
  | 2 => ⟨.shlImm (w.extractLsb' 16 16) (w.extractLsb' 8 6), [], 0⟩
  | _ => ⟨.shrImm (w.extractLsb' 16 16) (w.extractLsb' 8 6), [], 0⟩

/-- Opcode `0x32` (R65): fn 11 is illegal. -/
def parseImmC (w : Word) : Parsed :=
  match (w.extractLsb' 14 2).toNat with
  | 0 => ⟨.sarImm (w.extractLsb' 16 16) (w.extractLsb' 8 6), [], 0⟩
  | 1 => ⟨.minImm (w.extractLsb' 16 16) (w.extractLsb' 8 6), [], 0⟩
  | 2 => ⟨.maxImm (w.extractLsb' 16 16) (w.extractLsb' 8 6), [], 0⟩
  | _ => illegal (.maxImm (w.extractLsb' 16 16) (w.extractLsb' 8 6)) 0x0000C000

/-- Opcode `0x34` (R65). -/
def parseImmF (w : Word) : Parsed :=
  match (w.extractLsb' 14 2).toNat with
  | 0 => ⟨.fmovImm (w.extractLsb' 16 16) (w.extractLsb' 8 6), [], 0⟩
  | 1 => ⟨.faddImm (w.extractLsb' 16 16) (w.extractLsb' 8 6), [], 0⟩
  | 2 => ⟨.fmulImm (w.extractLsb' 16 16) (w.extractLsb' 8 6), [], 0⟩
  | _ => ⟨.fmaxImm (w.extractLsb' 16 16) (w.extractLsb' 8 6), [], 0⟩

/-- Opcode `0x3A` (R67): fe 3 is illegal. -/
def parseLd (w : Word) : Parsed :=
  match (w.extractLsb' 25 2).toNat with
  | 0 => ⟨.ld (w.extractLsb' 28 4) (w.extractLsb' 27 1) (w.extractLsb' 23 2) (w.extractLsb' 20 3) (w.extractLsb' 14 6) (w.extractLsb' 8 6), [], 0⟩
  | 1 => ⟨.ldFe (w.extractLsb' 28 4) (w.extractLsb' 27 1) (w.extractLsb' 23 2) (w.extractLsb' 20 3) (w.extractLsb' 14 6) (w.extractLsb' 8 6), [], 0⟩
  | 2 => ⟨.ldFec (w.extractLsb' 28 4) (w.extractLsb' 27 1) (w.extractLsb' 23 2) (w.extractLsb' 20 3) (w.extractLsb' 14 6) (w.extractLsb' 8 6), [], 0⟩
  | _ => illegal (.ld (w.extractLsb' 28 4) (w.extractLsb' 27 1) (w.extractLsb' 23 2) (w.extractLsb' 20 3) (w.extractLsb' 14 6) (w.extractLsb' 8 6)) 0x06000000

/-- Opcode `0x3B` (R67): fe 2 and 3 are illegal. -/
def parseSt (w : Word) : Parsed :=
  match (w.extractLsb' 25 2).toNat with
  | 0 => ⟨.st (w.extractLsb' 28 4) (w.extractLsb' 27 1) (w.extractLsb' 23 2) (w.extractLsb' 20 3) (w.extractLsb' 14 6) (w.extractLsb' 8 6), [], 0⟩
  | 1 => ⟨.stFe (w.extractLsb' 28 4) (w.extractLsb' 27 1) (w.extractLsb' 23 2) (w.extractLsb' 20 3) (w.extractLsb' 14 6) (w.extractLsb' 8 6), [], 0⟩
  | _ => illegal (.st (w.extractLsb' 28 4) (w.extractLsb' 27 1) (w.extractLsb' 23 2) (w.extractLsb' 20 3) (w.extractLsb' 14 6) (w.extractLsb' 8 6)) 0x06000000

/-- Opcode `0x3C` (R69). -/
def parseAtom (w : Word) : Parsed :=
  match (w.extractLsb' 29 3).toNat with
  | 0 => ⟨.atomAdd (w.extractLsb' 27 2) (w.extractLsb' 25 2) (w.extractLsb' 20 5) (w.extractLsb' 14 6) (w.extractLsb' 8 6), [], 0⟩
  | 1 => ⟨.atomMin (w.extractLsb' 27 2) (w.extractLsb' 25 2) (w.extractLsb' 20 5) (w.extractLsb' 14 6) (w.extractLsb' 8 6), [], 0⟩
  | 2 => ⟨.atomMax (w.extractLsb' 27 2) (w.extractLsb' 25 2) (w.extractLsb' 20 5) (w.extractLsb' 14 6) (w.extractLsb' 8 6), [], 0⟩
  | 3 => ⟨.atomAnd (w.extractLsb' 27 2) (w.extractLsb' 25 2) (w.extractLsb' 20 5) (w.extractLsb' 14 6) (w.extractLsb' 8 6), [], 0⟩
  | 4 => ⟨.atomOr (w.extractLsb' 27 2) (w.extractLsb' 25 2) (w.extractLsb' 20 5) (w.extractLsb' 14 6) (w.extractLsb' 8 6), [], 0⟩
  | 5 => ⟨.atomXor (w.extractLsb' 27 2) (w.extractLsb' 25 2) (w.extractLsb' 20 5) (w.extractLsb' 14 6) (w.extractLsb' 8 6), [], 0⟩
  | 6 => ⟨.atomExch (w.extractLsb' 27 2) (w.extractLsb' 25 2) (w.extractLsb' 20 5) (w.extractLsb' 14 6) (w.extractLsb' 8 6), [], 0⟩
  | _ => ⟨.atomCas (w.extractLsb' 27 2) (w.extractLsb' 25 2) (w.extractLsb' 20 5) (w.extractLsb' 14 6) (w.extractLsb' 8 6), [], 0⟩

/-- Opcode `0x3D` (R69): ops 6 and 7 are illegal. -/
def parseRed (w : Word) : Parsed :=
  match (w.extractLsb' 29 3).toNat with
  | 0 => ⟨.redAdd (w.extractLsb' 27 2) (w.extractLsb' 25 2) (w.extractLsb' 20 5) (w.extractLsb' 14 6), [], 0⟩
  | 1 => ⟨.redMin (w.extractLsb' 27 2) (w.extractLsb' 25 2) (w.extractLsb' 20 5) (w.extractLsb' 14 6), [], 0⟩
  | 2 => ⟨.redMax (w.extractLsb' 27 2) (w.extractLsb' 25 2) (w.extractLsb' 20 5) (w.extractLsb' 14 6), [], 0⟩
  | 3 => ⟨.redAnd (w.extractLsb' 27 2) (w.extractLsb' 25 2) (w.extractLsb' 20 5) (w.extractLsb' 14 6), [], 0⟩
  | 4 => ⟨.redOr (w.extractLsb' 27 2) (w.extractLsb' 25 2) (w.extractLsb' 20 5) (w.extractLsb' 14 6), [], 0⟩
  | 5 => ⟨.redXor (w.extractLsb' 27 2) (w.extractLsb' 25 2) (w.extractLsb' 20 5) (w.extractLsb' 14 6), [], 0⟩
  | _ => illegal (.redAdd (w.extractLsb' 27 2) (w.extractLsb' 25 2) (w.extractLsb' 20 5) (w.extractLsb' 14 6)) 0xE0000000

/-- Opcode `0x3E` (R69): ops 3 to 7 are illegal. -/
def parseFatom (w : Word) : Parsed :=
  match (w.extractLsb' 29 3).toNat with
  | 0 => ⟨.fatomAdd (w.extractLsb' 27 2) (w.extractLsb' 25 2) (w.extractLsb' 20 5) (w.extractLsb' 14 6) (w.extractLsb' 8 6), [], 0⟩
  | 1 => ⟨.fatomMin (w.extractLsb' 27 2) (w.extractLsb' 25 2) (w.extractLsb' 20 5) (w.extractLsb' 14 6) (w.extractLsb' 8 6), [], 0⟩
  | 2 => ⟨.fatomMax (w.extractLsb' 27 2) (w.extractLsb' 25 2) (w.extractLsb' 20 5) (w.extractLsb' 14 6) (w.extractLsb' 8 6), [], 0⟩
  | _ => illegal (.fatomAdd (w.extractLsb' 27 2) (w.extractLsb' 25 2) (w.extractLsb' 20 5) (w.extractLsb' 14 6) (w.extractLsb' 8 6)) 0xE0000000

/-- Opcode `0x3F` (R69): ops 3 to 7 are illegal. -/
def parseFred (w : Word) : Parsed :=
  match (w.extractLsb' 29 3).toNat with
  | 0 => ⟨.fredAdd (w.extractLsb' 27 2) (w.extractLsb' 25 2) (w.extractLsb' 20 5) (w.extractLsb' 14 6), [], 0⟩
  | 1 => ⟨.fredMin (w.extractLsb' 27 2) (w.extractLsb' 25 2) (w.extractLsb' 20 5) (w.extractLsb' 14 6), [], 0⟩
  | 2 => ⟨.fredMax (w.extractLsb' 27 2) (w.extractLsb' 25 2) (w.extractLsb' 20 5) (w.extractLsb' 14 6), [], 0⟩
  | _ => illegal (.fredAdd (w.extractLsb' 27 2) (w.extractLsb' 25 2) (w.extractLsb' 20 5) (w.extractLsb' 14 6)) 0xE0000000

/-- The variants of group `0x70` (R75); none is a reserved slot (R78). -/
def parseGang (w : Word) : Option Parsed :=
  match (w.extractLsb' 26 4).toNat with
  | 0 => some ⟨.nop, [], 0⟩
  | 1 => some ⟨.rejoin, [], 0⟩
  | 2 => some ⟨.ret, [], 0⟩
  | 3 => some ⟨.jmpi (w.extractLsb' 20 6) (w.extractLsb' 14 6) (w.extractLsb' 8 1), [], 0⟩
  | 4 => some ⟨.exit, [], 0⟩
  | 5 => 
    match (w.extractLsb' 30 2).toNat with
    | 0 => some ⟨.qpeek (w.extractLsb' 14 3) (w.extractLsb' 8 6), [], 0⟩
    | 1 => some ⟨.qcount (w.extractLsb' 14 3) (w.extractLsb' 8 6), [], 0⟩
    | 2 => some ⟨.qdrain (w.extractLsb' 14 3), [], 0⟩
    | _ => none
  | 6 => 
    match (w.extractLsb' 30 2).toNat with
    | 0 => some ⟨.gsync, [], 0⟩
    | 1 => some ⟨.gsyncMask (w.extractLsb' 14 6), [], 0⟩
    | _ => none
  | 7 => some ⟨.trap (w.extractLsb' 14 12), [], 0⟩
  | 8 => some ⟨.brk (w.extractLsb' 14 12), [], 0⟩
  | 9 => some ⟨.svc (w.extractLsb' 14 12), [], 0⟩
  | 10 => some ⟨.rft, [], 0⟩
  | 11 => some ⟨.region, [], 0⟩
  | 12 => 
    match (w.extractLsb' 30 2).toNat with
    | 0 => some ⟨.chkOff, [], 0⟩
    | 1 => some ⟨.chkOn, [], 0⟩
    | 2 => some ⟨.chkQ (w.extractLsb' 8 6), [], 0⟩
    | _ => none
  | 13 => some ⟨.rdsr (w.extractLsb' 14 6) (w.extractLsb' 8 6), [], 0⟩
  | 14 => some ⟨.wrsr (w.extractLsb' 20 6) (w.extractLsb' 14 6), [], 0⟩
  | _ => none

/-- Group `0x71` (R75). -/
def parseOrder (w : Word) : Option Parsed :=
  match (w.extractLsb' 26 4).toNat with
  | 0 => some ⟨.fence (w.extractLsb' 8 3), [], 0⟩
  | 1 => some ⟨.acq (w.extractLsb' 14 6), [], 0⟩
  | 2 => some ⟨.rel (w.extractLsb' 14 6), [], 0⟩
  | 3 => some ⟨.bind (w.extractLsb' 20 6) (w.extractLsb' 14 6) (w.extractLsb' 8 6), [], 0⟩
  | 4 => some ⟨.unbind (w.extractLsb' 14 6), [], 0⟩
  | 5 => some ⟨.mon (w.extractLsb' 14 6), [], 0⟩
  | 6 => some ⟨.mwait, [], 0⟩
  | 7 => 
    match (w.extractLsb' 30 2).toNat with
    | 0 => some ⟨.pfL1 (w.extractLsb' 14 6), [], 0⟩
    | 1 => some ⟨.pfL2 (w.extractLsb' 14 6), [], 0⟩
    | _ => some (illegal (.pfL1 (w.extractLsb' 14 6)) 0xC0000000)
  | _ => none

/-- Group `0x72` (R75). -/
def parseDie (w : Word) : Option Parsed :=
  match (w.extractLsb' 26 4).toNat with
  | 0 => some ⟨.copy (w.extractLsb' 20 6) (w.extractLsb' 14 6) (w.extractLsb' 8 6), [], 0⟩
  | 1 => some ⟨.tcopy (w.extractLsb' 14 6) (w.extractLsb' 8 6), [], 0⟩
  | 2 => some ⟨.copyt (w.extractLsb' 20 6) (w.extractLsb' 14 6) (w.extractLsb' 8 6), [], 0⟩
  | 3 => some ⟨.cwait (w.extractLsb' 20 6) (w.extractLsb' 14 6), [], 0⟩
  | 4 => some ⟨.enq (w.extractLsb' 20 6) (w.extractLsb' 14 6), [], 0⟩
  | 5 => some ⟨.deq (w.extractLsb' 14 6) (w.extractLsb' 8 6), [], 0⟩
  | 6 => some ⟨.deqt (w.extractLsb' 20 6) (w.extractLsb' 14 6) (w.extractLsb' 8 6), [], 0⟩
  | _ => none

/-- Group `0x73` (R75). -/
def parseSupervisor (w : Word) : Option Parsed :=
  match (w.extractLsb' 26 4).toNat with
  | 0 => some ⟨.mappg (w.extractLsb' 30 2) (w.extractLsb' 20 6) (w.extractLsb' 14 6) (w.extractLsb' 8 6), [], 0⟩
  | 1 => some ⟨.unmappg (w.extractLsb' 30 2) (w.extractLsb' 14 6), [], 0⟩
  | 2 => some ⟨.tlbinv (w.extractLsb' 14 6) (w.extractLsb' 8 3), [], 0⟩
  | 3 => some ⟨.fbread (w.extractLsb' 8 6), [], 0⟩
  | 4 => some ⟨.replay (w.extractLsb' 14 6), [], 0⟩
  | 5 => some ⟨.replayall, [], 0⟩
  | _ => none

/-- Group `0x74` (R75). -/
def parsePackage (w : Word) : Option Parsed :=
  match (w.extractLsb' 26 4).toNat with
  | 0 => some ⟨.tmwait (w.extractLsb' 14 6), [], 0⟩
  | 1 => some ⟨.ctxsv (w.extractLsb' 14 6), [], 0⟩
  | 2 => some ⟨.ctxld (w.extractLsb' 14 6), [], 0⟩
  | 3 => some ⟨.rtcore (w.extractLsb' 14 6), [], 0⟩
  | 4 => some ⟨.rtclu (w.extractLsb' 14 6), [], 0⟩
  | 5 => some ⟨.skrd (w.extractLsb' 8 6), [], 0⟩
  | 6 => some ⟨.replan (w.extractLsb' 14 6), [], 0⟩
  | _ => none

/-- A fabric instruction whose fn is 00: any other value is an illegal field value (R448). -/
def plainFn (w : Word) (i : Instr) : Parsed := if w.extractLsb' 30 2 = 0 then ⟨i, [], 0⟩ else illegal i 0xC0000000

/-- Group `0x75` (R75). -/
def parseFabric (w : Word) : Option Parsed :=
  match (w.extractLsb' 26 4).toNat with
  | 0 => some ⟨.rld (w.extractLsb' 30 2) (w.extractLsb' 14 6) (w.extractLsb' 8 6), [], 0⟩
  | 1 => some ⟨.rst (w.extractLsb' 30 2) (w.extractLsb' 20 6) (w.extractLsb' 14 6), [], 0⟩
  | 2 => 
    match (w.extractLsb' 8 3).toNat with
    | 0 => some ⟨.rredAdd (w.extractLsb' 30 2) (w.extractLsb' 20 6) (w.extractLsb' 14 6), [], 0⟩
    | 1 => some ⟨.rredMin (w.extractLsb' 30 2) (w.extractLsb' 20 6) (w.extractLsb' 14 6), [], 0⟩
    | 2 => some ⟨.rredMax (w.extractLsb' 30 2) (w.extractLsb' 20 6) (w.extractLsb' 14 6), [], 0⟩
    | 3 => some ⟨.rredAnd (w.extractLsb' 30 2) (w.extractLsb' 20 6) (w.extractLsb' 14 6), [], 0⟩
    | 4 => some ⟨.rredOr (w.extractLsb' 30 2) (w.extractLsb' 20 6) (w.extractLsb' 14 6), [], 0⟩
    | 5 => some ⟨.rredXor (w.extractLsb' 30 2) (w.extractLsb' 20 6) (w.extractLsb' 14 6), [], 0⟩
    | _ => some (illegal (.rredAdd (w.extractLsb' 30 2) (w.extractLsb' 20 6) (w.extractLsb' 14 6)) 0x00000700)
  | 3 => some ⟨.mcst (w.extractLsb' 30 2) (w.extractLsb' 20 6) (w.extractLsb' 14 6) (w.extractLsb' 8 6), [], 0⟩
  | 4 => 
    match (w.extractLsb' 8 3).toNat with
    | 0 => some ⟨.mcatomAdd (w.extractLsb' 30 2) (w.extractLsb' 20 6) (w.extractLsb' 14 6), [], 0⟩
    | 1 => some ⟨.mcatomMin (w.extractLsb' 30 2) (w.extractLsb' 20 6) (w.extractLsb' 14 6), [], 0⟩
    | 2 => some ⟨.mcatomMax (w.extractLsb' 30 2) (w.extractLsb' 20 6) (w.extractLsb' 14 6), [], 0⟩
    | 3 => some ⟨.mcatomAnd (w.extractLsb' 30 2) (w.extractLsb' 20 6) (w.extractLsb' 14 6), [], 0⟩
    | 4 => some ⟨.mcatomOr (w.extractLsb' 30 2) (w.extractLsb' 20 6) (w.extractLsb' 14 6), [], 0⟩
    | 5 => some ⟨.mcatomXor (w.extractLsb' 30 2) (w.extractLsb' 20 6) (w.extractLsb' 14 6), [], 0⟩
    | _ => some (illegal (.mcatomAdd (w.extractLsb' 30 2) (w.extractLsb' 20 6) (w.extractLsb' 14 6)) 0x00000700)
  | 5 => some (plainFn w (.mcwait (w.extractLsb' 20 6) (w.extractLsb' 14 6)))
  | _ => none

/-- Group `0x76` (R75). -/
def parsePhaser (w : Word) : Option Parsed :=
  match (w.extractLsb' 26 4).toNat with
  | 0 => some (plainFn w (.phjoin (w.extractLsb' 20 6) (w.extractLsb' 14 6)))
  | 1 => some (plainFn w (.phleave (w.extractLsb' 14 6)))
  | 2 => 
    match (w.extractLsb' 30 2).toNat with
    | 0 => some ⟨.phsig (w.extractLsb' 14 6), [], 0⟩
    | 1 => some ⟨.phsigBnd (w.extractLsb' 14 6), [], 0⟩
    | _ => some (illegal (.phsig (w.extractLsb' 14 6)) 0xC0000000)
  | 3 => some (plainFn w (.phwait (w.extractLsb' 20 6) (w.extractLsb' 14 6)))
  | 4 => 
    match (w.extractLsb' 30 2).toNat with
    | 0 => some ⟨.phsw (w.extractLsb' 20 6) (w.extractLsb' 14 6), [], 0⟩
    | 1 => some ⟨.phswBnd (w.extractLsb' 20 6) (w.extractLsb' 14 6), [], 0⟩
    | _ => some (illegal (.phsw (w.extractLsb' 20 6) (w.extractLsb' 14 6)) 0xC0000000)
  | 5 => some (plainFn w (.phany (w.extractLsb' 20 6) (w.extractLsb' 14 6)))
  | 6 => some (plainFn w (.phfind (w.extractLsb' 14 6) (w.extractLsb' 8 6)))
  | _ => none

/-- Opcode `0x77` (R73). -/
def parseMatrix (w : Word) : Option Parsed :=
  match (w.extractLsb' 14 3).toNat with
  | 0 => some ⟨.mma (w.extractLsb' 28 4) (w.extractLsb' 24 4) (w.extractLsb' 20 4) (w.extractLsb' 17 3) (w.extractLsb' 8 6), [], 0⟩
  | 1 => some ⟨.mmaz (w.extractLsb' 28 4) (w.extractLsb' 24 4) (w.extractLsb' 20 4) (w.extractLsb' 17 3) (w.extractLsb' 8 6), [], 0⟩
  | 2 => some ⟨.azero (w.extractLsb' 28 4), [], 0⟩
  | 3 => some ⟨.acvt (w.extractLsb' 28 4) (w.extractLsb' 24 4) (w.extractLsb' 17 3), [], 0⟩
  | 4 => some ⟨.tpin (w.extractLsb' 28 4) (w.extractLsb' 17 3), [], 0⟩
  | 5 => some ⟨.awt (w.extractLsb' 8 6), [], 0⟩
  | 6 => some ⟨.pmapply (w.extractLsb' 28 4) (w.extractLsb' 17 3), [], 0⟩
  | _ => some ⟨.gerd (w.extractLsb' 17 2) (w.extractLsb' 8 6), [], 0⟩

/-- Opcode `0x78` (R73): sub-opcodes 4 to 7 are reserved. -/
def parseFactor (w : Word) : Option Parsed :=
  match (w.extractLsb' 14 3).toNat with
  | 0 => some ⟨.lup (w.extractLsb' 28 4) (w.extractLsb' 17 3), [], 0⟩
  | 1 => some ⟨.chol (w.extractLsb' 28 4) (w.extractLsb' 17 3), [], 0⟩
  | 2 => some ⟨.qrh (w.extractLsb' 28 4) (w.extractLsb' 24 4) (w.extractLsb' 17 3), [], 0⟩
  | 3 => some ⟨.trsm (w.extractLsb' 28 4) (w.extractLsb' 24 4) (w.extractLsb' 20 3) (w.extractLsb' 17 3), [], 0⟩
  | _ => none

/-- The opcodes that are no lane operation (R76); none is a reserved slot (R78). The argument is the opcode. -/
def parseRest (w : Word) : Nat → Option Parsed
  | 0x30 => some (parseImmA w)
  | 0x31 => some (parseImmB w)
  | 0x32 => some (parseImmC w)
  | 0x33 => some ⟨.movh (w.extractLsb' 16 16) (w.extractLsb' 14 2) (w.extractLsb' 8 6), [], 0⟩
  | 0x34 => some (parseImmF w)
  | 0x35 => some ⟨.bra (w.extractLsb' 14 18) (w.extractLsb' 13 1), [], 0⟩
  | 0x36 => some ⟨.brc (w.extractLsb' 14 18) (w.extractLsb' 13 1) (w.extractLsb' 10 3) (w.extractLsb' 8 2), [], 0⟩
  | 0x37 => if w.getLsbD 13 then some ⟨.brv (w.extractLsb' 14 18) (w.extractLsb' 10 3), [], 0⟩ else some (illegal (.brv (w.extractLsb' 14 18) (w.extractLsb' 10 3)) 0x00002000)
  | 0x38 => some ⟨.brd (w.extractLsb' 14 18), [], 0⟩
  | 0x39 => some ⟨.call (w.extractLsb' 14 18) (w.extractLsb' 13 1), [], 0⟩
  | 0x3A => some (parseLd w)
  | 0x3B => some (parseSt w)
  | 0x3C => some (parseAtom w)
  | 0x3D => some (parseRed w)
  | 0x3E => some (parseFatom w)
  | 0x3F => some (parseFred w)
  | 0x70 => parseGang w
  | 0x71 => parseOrder w
  | 0x72 => parseDie w
  | 0x73 => parseSupervisor w
  | 0x74 => parsePackage w
  | 0x75 => parseFabric w
  | 0x76 => parsePhaser w
  | 0x77 => parseMatrix w
  | 0x78 => parseFactor w
  | _ => none

/-- The row a 32-bit word names, by its opcode in bits [7:1] (R76). -/
def parse (w : Word) : Option Parsed :=
  if (w.extractLsb' 1 6).toNat < 0x30 then some (parseLane w (w.extractLsb' 1 6).toNat)
  else parseRest w (w.extractLsb' 1 7).toNat

/-- A breach of a rule, or the instruction (R79). -/
def settle (faults : List Nat) (x : Instr) : Except Nat Instr :=
  match WellFormed.lowest faults with
  | none => .ok x
  | some n => .error n

/-- Decode for a unit in a mode: the instruction, or the lowest detail of R79. A word whose bit 0 is clear is the one
halfword in its low bits (R49). A bit that differs from the row's own encoding is a reserved field (detail 5). -/
def decode (u : UnitKind) (m : Mode) (w : Word) : Except Nat Instr :=
  if w.getLsbD 0 then
    if w.extractLsb' 1 7 = 0x7F then .error 2
    else
      match parse w with
      | none => .error 1
      | some p =>
        settle (p.extra ++ WellFormed.bad 5 ((encode p.near ^^^ w) &&& ~~~p.spoken != 0)
          ++ WellFormed.faults u m p.near) p.near
  else
    let h := w.truncate 16
    if h = 0 then .error 2 else settle (WellFormed.faults u m (parseHalf h)) (parseHalf h)

/-- The halfword at the start of a byte list, low byte first (R4). -/
def halfOf : List Byte → Option (Half × List Byte)
  | lo :: hi :: rest => some (hi ++ lo, rest)
  | _ => none

/-- Decode from bytes: the first halfword tells the length (R49); none where the bytes are too few to hold it. -/
def decodeBytes (u : UnitKind) (m : Mode) (bs : List Byte) : Option (Except Nat Instr) :=
  match halfOf bs with
  | none => none
  | some (lo, rest) =>
    if lo.getLsbD 0 then
      match halfOf rest with
      | none => none
      | some (hi, _) => some (decode u m (hi ++ lo))
    else some (decode u m (lo.zeroExtend 32))

/-- The bytes of an instruction as memory holds them (R4, R49); none for an event. -/
def encodeBytes (i : Instr) : List Byte :=
  let w := encode i
  if i.isEvent then []
  else if i.isShort then [w.extractLsb' 0 8, w.extractLsb' 8 8]
  else [w.extractLsb' 0 8, w.extractLsb' 8 8, w.extractLsb' 16 8, w.extractLsb' 24 8]

/-- The low `n` bytes of a number, low byte first (R3). -/
def bytesOf (w : Nat) : Nat → List Byte
  | 0 => []
  | n + 1 => BitVec.ofNat 8 w :: bytesOf (w / 256) n

/-- The first unit that accepts some bytes in firmware mode, where every privilege holds. -/
def decodeAny (bs : List Byte) : Option (UnitKind × Instr) :=
  match decodeBytes .A .firmware bs with
  | some (.ok i) => some (.A, i)
  | _ =>
    match decodeBytes .C .firmware bs with
    | some (.ok i) => some (.C, i)
    | _ =>
      match decodeBytes .M .firmware bs with
      | some (.ok i) => some (.M, i)
      | _ => none

/-- What the decoder reads from an instruction whose bits are `w`, numbered from the first halfword's bit 0: the bytes of
`w` as memory holds them, read for whichever unit accepts them. -/
def decodeTableWord (_nbits w : Nat) : Option Instr :=
  match decodeAny (bytesOf w 4) with
  | some (_, i) => some i
  | none => none

end Sys2Proof
end

