-- ==== Sys2Proof/Machine/Fetch.lean ====
section
/-! DEFINITION. Fetching an instruction (R49, R94, R200): the L1 instruction cache, the translation of its misses, and the
immediates that a launch's patch table replaces. -/

namespace Sys2Proof.Machine

/-- The launch of a unit. -/
def State.launchOf (s : State) (u : UnitId) : Nat × Nat :=
  match u with
  | .a g => (g.pkg, (s.gang g).launch)
  | .c g => (g.pkg, (s.gang g).launch)
  | .m c => (c.pkg, (s.clu c).ctl.launch)

/-- A launch of a package. -/
def State.launch (s : State) (p l : Nat) : Launch := tget l {} (s.pkg p).launches

/-- The kernel image and parameter copy that a unit runs from. -/
def State.imageOf (s : State) (u : UnitId) : Image := (s.launch (s.launchOf u).1 (s.launchOf u).2).image

/-- The cluster of a unit. -/
def UnitClu (u : UnitId) : CluId :=
  match u with
  | .a g => g.cluId
  | .c g => g.cluId
  | .m c => c

/-- The translation of a code address: by the TLBs, else by a walk; no rule gives a miss of a fetch to the merge table. -/
def State.codeTranslate (s : State) (u : UnitId) (va : Nat) : Option (State × Nat) :=
  let c := UnitClu u
  match s.tlbLookup c (s.ctxOf u) va with
  | some e => some (s.fillClu c e, hbmKey c.pkg (e.pa va))
  | none =>
    match s.walk c.pkg (s.ctxOf u) va with
    | .mapped e => some ((s.fillDie c.dieId e).fillClu c e, hbmKey c.pkg (e.pa va))
    | .miss _ _ _ => none

/-- What the home of a code line returns: its bytes and its sectors' marks. Where no memory is, zeros are read, marked where nothing
is (R327, R330, R375). -/
def State.homeLine (s : State) (k : Nat) : List Byte × List Bool :=
  if isHbm k then (s.readBytes k 64, (List.range 4).map fun i => s.markedAt (k + 16 * i) 16)
  else (List.replicate 64 0, List.replicate 4 (decide (paKind (keyPa k) = .nothing)))

/-- The L1 instruction cache holds 64 KiB: 1,024 lines. One that is full gives up the line that a free choice names (R186; log
entry 8). -/
def takeILine (pick : Nat) (x : L1ILine) (xs : List L1ILine) : List L1ILine :=
  if xs.length < 1024 then x :: xs else x :: xs.eraseIdx (pick % xs.length)

/-- The line of 64 bytes that holds a code address, from the L1 instruction cache or filled into it (R200). -/
def State.codeLine (s : State) (u : UnitId) (vline : Nat) : Option (State × List Byte) :=
  match (s.core (UnitCore u)).l1i.find? fun x => x.ctx == s.ctxOf u && x.vline == vline with
  | some x => some (s, x.bytes)
  | none =>
    match s.codeTranslate u (vline * 64) with
    | none => none
    | some (s, k) =>
      let (bs, ms) := s.homeLine k
      some (s.modCore (UnitCore u) fun x =>
        { x with l1i := takeILine (Config.choice s.clock 1024) ⟨s.ctxOf u, vline, bs, ms⟩ x.l1i }, bs)

/-- The halfword at a code address. -/
def State.codeHalf (s : State) (u : UnitId) (va : Nat) : Option (State × Half) :=
  match s.codeLine u (va / 64) with
  | none => none
  | some (s, bs) => some (s, bs.getD (va % 64 + 1) 0 ++ bs.getD (va % 64) 0)

/-- A word with its immediate replaced where the patch table names its offset (R94). -/
def Image.patch (im : Image) (va : Nat) (w : Word) : Word :=
  match im.patches.find? (fun p => im.base + p.1 == va) with
  | some p => (im.params.getD (p.2 + 1) 0 ++ im.params.getD p.2 0) ++ w.extractLsb' 0 16
  | none => w

/-- The word at a unit's program counter: one halfword, or two where bit 0 is set (R49); none where the page of either has
no mapping. -/
def State.fetch (s : State) (u : UnitId) : Option (State × Word) :=
  let va := (s.pc u).toNat
  match s.codeHalf u va with
  | none => none
  | some (s, lo) =>
    if lo.getLsbD 0 then
      match s.codeHalf u ((va + 2) % 2 ^ 57) with
      | none => none
      | some (s, hi) => some (s, (s.imageOf u).patch va (hi ++ lo))
    else some (s, lo.zeroExtend 32)

/-- Whether a unit has the line of a code address in its L1 instruction cache. -/
def State.codeHit (s : State) (u : UnitId) (va : Nat) : Option L1ILine :=
  (s.core (UnitCore u)).l1i.find? fun x => x.ctx == s.ctxOf u && x.vline == va / 64

/-- Whether the halfword at a code address reads marked (R327). -/
def State.codeMarked (s : State) (u : UnitId) (va : Nat) : Bool :=
  match s.codeHit u va with
  | some x => x.marks.getD (va % 64 / 16) false
  | none =>
    match s.codeTranslate u (va / 64 * 64) with
    | some (_, k) => (s.homeLine k).2.getD (va % 64 / 16) false
    | none => false

/-- Whether the line of a code address, or the walk that finds it, has still to wait for its frame (R379, R381). -/
def State.codeWaits (s : State) (u : UnitId) (va : Nat) : Bool :=
  (s.codeHit u va).isNone && (((s.tlbLookup (UnitClu u) (s.ctxOf u) (va / 64 * 64)).isNone
      && s.walkWaits (UnitClu u).pkg (s.ctxOf u) (va / 64 * 64)) || match s.codeTranslate u (va / 64 * 64) with
    | some (_, k) => s.placeWaits k 64
    | none => false)

/-- A test on the code addresses of the halfwords of a unit's next instruction. -/
def State.fetchAny (s : State) (u : UnitId) (f : Nat → Bool) : Bool :=
  let va := (s.pc u).toNat
  f va || (match s.codeHalf u va with
    | some (_, lo) => lo.getLsbD 0 && f ((va + 2) % 2 ^ 57)
    | none => false)

/-- Whether the fetch of a unit's next instruction waits. -/
def State.fetchWaits (s : State) (u : UnitId) : Bool := s.fetchAny u (s.codeWaits u)
/-- Whether a unit's next instruction reads marked, which consumes the mark (R130, R255, R327). -/
def State.fetchMarked (s : State) (u : UnitId) : Bool := s.fetchAny u (s.codeMarked u)

/-- The length in bytes of a word's instruction (R49). -/
def wordLen (w : Word) : Nat := if w.getLsbD 0 then 4 else 2

/-! ## Placing an instruction where the next step fetches it (log entry 12) -/

/-- The unit and mode in which a word decodes: the least privileged mode that accepts it. -/
def placeFor (bs : List Byte) : UnitId × Mode :=
  let g : GangId := ⟨0, 0, 0, 0, 0⟩
  let units : List (UnitKind × UnitId) := [(.A, .a g), (.C, .c g), (.M, .m ⟨0, 0, 0⟩)]
  let modes : List Mode := [.user, .supervisor, .firmware]
  let ok (k : UnitKind) (m : Mode) : Bool :=
    match decodeBytes k m bs with
    | some (.ok _) => true
    | _ => false
  match units.find? (fun u => modes.any (ok u.1)) with
  | some u => (u.2, (modes.find? (ok u.1)).getD .user)
  | none => (.a g, .user)

/-- A state in which one unit of package 0 is about to issue and its code page is mapped: context 1, virtual page 0x10000 at
physical page 0x10000. -/
def State.ready (s : State) (u : UnitId) (m : Mode) : State :=
  let entry : TlbEntry := ⟨1, 0x10000, 13, 0x10000, true, true, true⟩
  let c : CluId := ⟨0, 0, 0⟩
  let s := s.modClu c fun x => { x with tlb := [entry] }
  let s := s.modCore ⟨0, 0, 0, 0⟩ fun x => { x with l1i := [] }
  let s := match u with
    | .m c => s.modCtl c fun x => { x with inUse := true, ctx := 1, mode := m, pc := 0x10000, trap := none, wait := none }
    | .a g => s.modGang g fun x => { x with inUse := true, ctx := 1, mode := m, apc := 0x10000 }
    | .c g => s.modGang g fun x => { x with inUse := true, ctx := 1, cpc := 0x10000 }
  { s with cur := u, agenda := [], issue := [u] }

/-- The state with the bytes of an instruction where the next step fetches. -/
def State.placeCode (s : State) (bs : List Byte) : State :=
  let (u, m) := placeFor bs
  let s := s.ready u m
  { s with mem := memPuts (hbmKey 0 0x10000) bs s.mem }

end Sys2Proof.Machine
end

