-- ==== Sys2Proof/Machine/Integer.lean ====
section
/-! DEFINITION. The integer, shift and address lane operations of R139 to R143, their 16-bit forms (R59) and their immediate
forms (R65, R66, R158). -/

namespace Sys2Proof.Machine

/-- The signed type of a unit's natural width (R59). -/
def signedNatural (u : UnitKind) : Ty := if u = .C then .i32 else .i64

/-- The binary operations of fn class B and class I (R139, R140, R142). -/
def binOp (i : Instr) (f : DWord → DWord → DWord) : State → Out := laneOp i fun e n => f (e.a n) (e.b n)

/-- The one-operand operations (R141, R149). -/
def unOp (i : Instr) (f : DWord → DWord) : State → Out := laneOp i fun e n => f (e.a n)

/-- A 16-bit operation: d op b (R59). -/
def shortOp (i : Instr) (t : UnitKind → Ty) (d : BitVec 6) (b : BitVec 5) (f : Ty → DWord → DWord → DWord) : State → Out :=
  directOp i t d fun u r n => f (t u) (r d.toNat n) (r b.toNat n)

/-- An immediate operation: d op the extended immediate (R65). -/
def immOp (i : Instr) (t : UnitKind → Ty) (d : BitVec 6) (v : DWord) (f : Ty → DWord → DWord → DWord) : State → Out :=
  directOp i t d fun u r n => f (t u) (r d.toNat n) v

/-- `ADD` (R139): Lane add modulo 2^W; q selects a queue source. -/
def execAdd (w : BitVec 1) (sk : BitVec 4) (b : BitVec 6) (a : BitVec 6) (d : BitVec 6) (q : BitVec 1) : State → Out :=
  binOp (.add w sk b a d q) (aluAdd (.B w))

/-- `SUB` (R139): Lane subtract. -/
def execSub (w : BitVec 1) (sk : BitVec 4) (b : BitVec 6) (a : BitVec 6) (d : BitVec 6) (q : BitVec 1) : State → Out :=
  binOp (.sub w sk b a d q) (aluSub (.B w))

/-- `MUL` (R139): Lane low product. -/
def execMul (w : BitVec 1) (sk : BitVec 4) (b : BitVec 6) (a : BitVec 6) (d : BitVec 6) (q : BitVec 1) : State → Out :=
  binOp (.mul w sk b a d q) (aluMul (.B w))

/-- `MULH` (R139): Lane high product, signed or unsigned. -/
def execMulh (i : BitVec 2) (sk : BitVec 4) (b : BitVec 6) (a : BitVec 6) (d : BitVec 6) (q : BitVec 1) : State → Out :=
  binOp (.mulh i sk b a d q) (aluMulh (.I i))

/-- `DIV` (R140): Lane quotient toward zero, with defined results for division by zero and overflow. -/
def execDiv (i : BitVec 2) (sk : BitVec 4) (b : BitVec 6) (a : BitVec 6) (d : BitVec 6) (q : BitVec 1) : State → Out :=
  binOp (.div i sk b a d q) (aluDiv (.I i))

/-- `REM` (R140): Lane remainder with the sign of a. -/
def execRem (i : BitVec 2) (sk : BitVec 4) (b : BitVec 6) (a : BitVec 6) (d : BitVec 6) (q : BitVec 1) : State → Out :=
  binOp (.rem i sk b a d q) (aluRem (.I i))

/-- `MIN` (R139): Lane minimum. -/
def execMin (i : BitVec 2) (sk : BitVec 4) (b : BitVec 6) (a : BitVec 6) (d : BitVec 6) (q : BitVec 1) : State → Out :=
  binOp (.min i sk b a d q) (aluMin (.I i))

/-- `MAX` (R139): Lane maximum. -/
def execMax (i : BitVec 2) (sk : BitVec 4) (b : BitVec 6) (a : BitVec 6) (d : BitVec 6) (q : BitVec 1) : State → Out :=
  binOp (.max i sk b a d q) (aluMax (.I i))

/-- `AND` (R139): Lane bitwise and. -/
def execAnd (w : BitVec 1) (sk : BitVec 4) (b : BitVec 6) (a : BitVec 6) (d : BitVec 6) (q : BitVec 1) : State → Out :=
  binOp (.and w sk b a d q) (aluAnd (.B w))

/-- `OR` (R139): Lane bitwise or; mov d, a is or d, a, a. -/
def execOr (w : BitVec 1) (sk : BitVec 4) (b : BitVec 6) (a : BitVec 6) (d : BitVec 6) (q : BitVec 1) : State → Out :=
  binOp (.or w sk b a d q) (aluOr (.B w))

/-- `XOR` (R139): Lane bitwise xor. -/
def execXor (w : BitVec 1) (sk : BitVec 4) (b : BitVec 6) (a : BitVec 6) (d : BitVec 6) (q : BitVec 1) : State → Out :=
  binOp (.xor w sk b a d q) (aluXor (.B w))

/-- `SHL` (R139): Lane shift left by b mod W. -/
def execShl (w : BitVec 1) (sk : BitVec 4) (b : BitVec 6) (a : BitVec 6) (d : BitVec 6) (q : BitVec 1) : State → Out :=
  binOp (.shl w sk b a d q) (aluShl (.B w))

/-- `SHR` (R139): Lane logical shift right. -/
def execShr (w : BitVec 1) (sk : BitVec 4) (b : BitVec 6) (a : BitVec 6) (d : BitVec 6) (q : BitVec 1) : State → Out :=
  binOp (.shr w sk b a d q) (aluShr (.B w))

/-- `SAR` (R139): Lane arithmetic shift right. -/
def execSar (w : BitVec 1) (sk : BitVec 4) (b : BitVec 6) (a : BitVec 6) (d : BitVec 6) (q : BitVec 1) : State → Out :=
  binOp (.sar w sk b a d q) (aluSar (.B w))

/-- `ROL` (R139): Lane rotate left. -/
def execRol (w : BitVec 1) (sk : BitVec 4) (b : BitVec 6) (a : BitVec 6) (d : BitVec 6) (q : BitVec 1) : State → Out :=
  binOp (.rol w sk b a d q) (aluRol (.B w))

/-- `ROR` (R139): Lane rotate right. -/
def execRor (w : BitVec 1) (sk : BitVec 4) (b : BitVec 6) (a : BitVec 6) (d : BitVec 6) (q : BitVec 1) : State → Out :=
  binOp (.ror w sk b a d q) (aluRor (.B w))

/-- `BFX` (R142): Lane bit-field extract. -/
def execBfx (i : BitVec 2) (sk : BitVec 4) (b : BitVec 6) (a : BitVec 6) (d : BitVec 6) (q : BitVec 1) : State → Out :=
  binOp (.bfx i sk b a d q) (aluBfx (.I i))

/-- `LEA` (R143): d := a + (b << n). -/
def execLea (n : BitVec 2) (sk : BitVec 4) (b : BitVec 6) (a : BitVec 6) (d : BitVec 6) (q : BitVec 1) : State → Out :=
  binOp (.lea n sk b a d q) (aluLea n.toNat)

/-- `MAD` (R139): Lane a × b + d. -/
def execMad (w : BitVec 1) (sk : BitVec 4) (b : BitVec 6) (a : BitVec 6) (d : BitVec 6) (q : BitVec 1) : State → Out :=
  laneOp (.mad w sk b a d q) fun e n => aluMad (.B w) (e.a n) (e.b n) (e.d n)

/-- `BFI` (R142): Lane bit-field insert into d. -/
def execBfi (w : BitVec 1) (sk : BitVec 4) (b : BitVec 6) (a : BitVec 6) (d : BitVec 6) (q : BitVec 1) : State → Out :=
  laneOp (.bfi w sk b a d q) fun e n => aluBfi (.B w) (e.a n) (e.b n) (e.d n)

/-- `ABS` (R141): Lane absolute value. -/
def execAbs (w : BitVec 1) (sk : BitVec 4) (a : BitVec 6) (d : BitVec 6) (q : BitVec 1) : State → Out :=
  unOp (.abs w sk a d q) (aluAbs (.B w))

/-- `NEG` (R141): Lane negation. -/
def execNeg (w : BitVec 1) (sk : BitVec 4) (a : BitVec 6) (d : BitVec 6) (q : BitVec 1) : State → Out :=
  unOp (.neg w sk a d q) (aluNeg (.B w))

/-- `NOT` (R141): Lane bitwise not. -/
def execNot (w : BitVec 1) (sk : BitVec 4) (a : BitVec 6) (d : BitVec 6) (q : BitVec 1) : State → Out :=
  unOp (.not w sk a d q) (aluNot (.B w))

/-- `CLZ` (R141): Lane leading-zero count. -/
def execClz (w : BitVec 1) (sk : BitVec 4) (a : BitVec 6) (d : BitVec 6) (q : BitVec 1) : State → Out :=
  unOp (.clz w sk a d q) (aluClz (.B w))

/-- `POPC` (R141): Lane population count. -/
def execPopc (w : BitVec 1) (sk : BitVec 4) (a : BitVec 6) (d : BitVec 6) (q : BitVec 1) : State → Out :=
  unOp (.popc w sk a d q) (aluPopc (.B w))

/-- `BREV` (R141): Lane bit reversal. -/
def execBrev (w : BitVec 1) (sk : BitVec 4) (a : BitVec 6) (d : BitVec 6) (q : BitVec 1) : State → Out :=
  unOp (.brev w sk a d q) (aluBrev (.B w))

/-- `MOV_16` (R59): 16-bit d := s. -/
def execMov16 (d : BitVec 6) (b : BitVec 5) : State → Out :=
  shortOp (.mov16 d b) UnitKind.natural d b fun _ _ b => b

/-- `ADD_16` (R59): 16-bit d := d + s. -/
def execAdd16 (d : BitVec 6) (b : BitVec 5) : State → Out :=
  shortOp (.add16 d b) UnitKind.natural d b aluAdd

/-- `SUB_16` (R59): 16-bit d := d − s. -/
def execSub16 (d : BitVec 6) (b : BitVec 5) : State → Out :=
  shortOp (.sub16 d b) UnitKind.natural d b aluSub

/-- `MUL_16` (R59): 16-bit low product. -/
def execMul16 (d : BitVec 6) (b : BitVec 5) : State → Out :=
  shortOp (.mul16 d b) UnitKind.natural d b aluMul

/-- `AND_16` (R59): 16-bit bitwise and. -/
def execAnd16 (d : BitVec 6) (b : BitVec 5) : State → Out :=
  shortOp (.and16 d b) UnitKind.natural d b aluAnd

/-- `OR_16` (R59): 16-bit bitwise or. -/
def execOr16 (d : BitVec 6) (b : BitVec 5) : State → Out :=
  shortOp (.or16 d b) UnitKind.natural d b aluOr

/-- `XOR_16` (R59): 16-bit bitwise xor. -/
def execXor16 (d : BitVec 6) (b : BitVec 5) : State → Out :=
  shortOp (.xor16 d b) UnitKind.natural d b aluXor

/-- `SHL_16` (R59): 16-bit shift left. -/
def execShl16 (d : BitVec 6) (b : BitVec 5) : State → Out :=
  shortOp (.shl16 d b) UnitKind.natural d b aluShl

/-- `SHR_16` (R59): 16-bit logical shift right. -/
def execShr16 (d : BitVec 6) (b : BitVec 5) : State → Out :=
  shortOp (.shr16 d b) UnitKind.natural d b aluShr

/-- `SAR_16` (R59): 16-bit arithmetic shift right. -/
def execSar16 (d : BitVec 6) (b : BitVec 5) : State → Out :=
  shortOp (.sar16 d b) UnitKind.natural d b aluSar

/-- `MIN_16` (R59): 16-bit signed minimum. -/
def execMin16 (d : BitVec 6) (b : BitVec 5) : State → Out :=
  shortOp (.min16 d b) signedNatural d b aluMin

/-- `MAX_16` (R59): 16-bit signed maximum. -/
def execMax16 (d : BitVec 6) (b : BitVec 5) : State → Out :=
  shortOp (.max16 d b) signedNatural d b aluMax

/-- `MOV_IMM` (R65): d := sign-extended immediate. -/
def execMovImm (i : BitVec 16) (d : BitVec 6) : State → Out :=
  immOp (.movImm i d) UnitKind.natural d (i.signExtend 64) fun _ _ v => v

/-- `ADD_IMM` (R65): d := d + immediate. -/
def execAddImm (i : BitVec 16) (d : BitVec 6) : State → Out :=
  immOp (.addImm i d) UnitKind.natural d (i.signExtend 64) aluAdd

/-- `MUL_IMM` (R65): d := d × immediate. -/
def execMulImm (i : BitVec 16) (d : BitVec 6) : State → Out :=
  immOp (.mulImm i d) UnitKind.natural d (i.signExtend 64) aluMul

/-- `AND_IMM` (R65): d := d and zero-extended immediate. -/
def execAndImm (i : BitVec 16) (d : BitVec 6) : State → Out :=
  immOp (.andImm i d) UnitKind.natural d (i.zeroExtend 64) aluAnd

/-- `OR_IMM` (R65): d := d or immediate. -/
def execOrImm (i : BitVec 16) (d : BitVec 6) : State → Out :=
  immOp (.orImm i d) UnitKind.natural d (i.zeroExtend 64) aluOr

/-- `XOR_IMM` (R65): d := d xor immediate. -/
def execXorImm (i : BitVec 16) (d : BitVec 6) : State → Out :=
  immOp (.xorImm i d) UnitKind.natural d (i.zeroExtend 64) aluXor

/-- `SHL_IMM` (R66): Shift left by an immediate count. -/
def execShlImm (i : BitVec 16) (d : BitVec 6) : State → Out :=
  immOp (.shlImm i d) UnitKind.natural d (i.zeroExtend 64) aluShl

/-- `SHR_IMM` (R66): Logical shift right by an immediate count. -/
def execShrImm (i : BitVec 16) (d : BitVec 6) : State → Out :=
  immOp (.shrImm i d) UnitKind.natural d (i.zeroExtend 64) aluShr

/-- `SAR_IMM` (R66): Arithmetic shift right by an immediate count. -/
def execSarImm (i : BitVec 16) (d : BitVec 6) : State → Out :=
  immOp (.sarImm i d) UnitKind.natural d (i.zeroExtend 64) aluSar

/-- `MIN_IMM` (R65): Signed minimum with an immediate. -/
def execMinImm (i : BitVec 16) (d : BitVec 6) : State → Out :=
  immOp (.minImm i d) signedNatural d (i.signExtend 64) aluMin

/-- `MAX_IMM` (R65): Signed maximum with an immediate. -/
def execMaxImm (i : BitVec 16) (d : BitVec 6) : State → Out :=
  immOp (.maxImm i d) signedNatural d (i.signExtend 64) aluMax

/-- The halfword h of a value replaced (R66). -/
def putHalf (v : DWord) (h : Nat) (x : Half) : DWord :=
  (v &&& ~~~((0xFFFF : DWord) <<< (16 * h))) ||| (x.zeroExtend 64 <<< (16 * h))

/-- `MOVH` (R66): Write imm16 into halfword h of d. -/
def execMovh (i : BitVec 16) (h : BitVec 2) (d : BitVec 6) : State → Out :=
  directOp (.movh i h d) UnitKind.natural d fun _ r n => putHalf (r d.toNat n) h.toNat i

end Sys2Proof.Machine
end

