-- ==== Sys2Proof/Machine/Floating.lean ====
section
/-! DEFINITION. The floating lane operations of R147 to R150, their 16-bit forms (R59), the immediate forms of R158, and the
conversions of R151 and R152. -/

namespace Sys2Proof.Machine

/-- `FADD` (R147): Floating add with rne. -/
def execFadd (f : BitVec 2) (sk : BitVec 4) (b : BitVec 6) (a : BitVec 6) (d : BitVec 6) (q : BitVec 1) : State → Out :=
  binOp (.fadd f sk b a d q) (aluFadd (.F f) .rne)

/-- `FSUB` (R147): Floating subtract. -/
def execFsub (f : BitVec 2) (sk : BitVec 4) (b : BitVec 6) (a : BitVec 6) (d : BitVec 6) (q : BitVec 1) : State → Out :=
  binOp (.fsub f sk b a d q) (aluFsub (.F f) .rne)

/-- `FMUL` (R147): Floating multiply. -/
def execFmul (f : BitVec 2) (sk : BitVec 4) (b : BitVec 6) (a : BitVec 6) (d : BitVec 6) (q : BitVec 1) : State → Out :=
  binOp (.fmul f sk b a d q) (aluFmul (.F f) .rne)

/-- `FDIV` (R147): Floating divide. -/
def execFdiv (f : BitVec 2) (sk : BitVec 4) (b : BitVec 6) (a : BitVec 6) (d : BitVec 6) (q : BitVec 1) : State → Out :=
  binOp (.fdiv f sk b a d q) (aluFdiv (.F f))

/-- `FMIN` (R150): IEEE minimum. -/
def execFmin (f : BitVec 2) (sk : BitVec 4) (b : BitVec 6) (a : BitVec 6) (d : BitVec 6) (q : BitVec 1) : State → Out :=
  binOp (.fmin f sk b a d q) (aluFmin (.F f))

/-- `FMAX` (R150): IEEE maximum. -/
def execFmax (f : BitVec 2) (sk : BitVec 4) (b : BitVec 6) (a : BitVec 6) (d : BitVec 6) (q : BitVec 1) : State → Out :=
  binOp (.fmax f sk b a d q) (aluFmax (.F f))

/-- `FMINN` (R150): IEEE minimumNumber. -/
def execFminn (f : BitVec 2) (sk : BitVec 4) (b : BitVec 6) (a : BitVec 6) (d : BitVec 6) (q : BitVec 1) : State → Out :=
  binOp (.fminn f sk b a d q) (aluFminn (.F f))

/-- `FMAXN` (R150): IEEE maximumNumber. -/
def execFmaxn (f : BitVec 2) (sk : BitVec 4) (b : BitVec 6) (a : BitVec 6) (d : BitVec 6) (q : BitVec 1) : State → Out :=
  binOp (.fmaxn f sk b a d q) (aluFmaxn (.F f))

/-- `FMA` (R147): Fused a × b + d. -/
def execFma (f : BitVec 2) (sk : BitVec 4) (b : BitVec 6) (a : BitVec 6) (d : BitVec 6) (q : BitVec 1) : State → Out :=
  laneOp (.fma f sk b a d q) fun e n => aluFma (.F f) .rne (e.a n) (e.b n) (e.d n)

/-- `FSQRT` (R149): Correctly rounded square root with rounding code. -/
def execFsqrt (f : BitVec 2) (sk : BitVec 4) (r : BitVec 3) (a : BitVec 6) (d : BitVec 6) (q : BitVec 1) : State → Out :=
  unOp (.fsqrt f sk r a d q) (aluFsqrt (.F f) (Rnd.code r.toNat))

/-- `FRCP` (R149): Reciprocal within 1 ulp. -/
def execFrcp (f : BitVec 2) (sk : BitVec 4) (a : BitVec 6) (d : BitVec 6) (q : BitVec 1) : State → Out :=
  unOp (.frcp f sk a d q) (aluFrcp (.F f))

/-- `FRSQ` (R149): Reciprocal square root within 1 ulp. -/
def execFrsq (f : BitVec 2) (sk : BitVec 4) (a : BitVec 6) (d : BitVec 6) (q : BitVec 1) : State → Out :=
  unOp (.frsq f sk a d q) (aluFrsq (.F f))

/-- `FEXP2` (R149): 2^a within 2 ulp. -/
def execFexp2 (f : BitVec 2) (sk : BitVec 4) (a : BitVec 6) (d : BitVec 6) (q : BitVec 1) : State → Out :=
  unOp (.fexp2 f sk a d q) (aluFexp2 (.F f))

/-- `FLOG2` (R149): log2 a within 2 ulp. -/
def execFlog2 (f : BitVec 2) (sk : BitVec 4) (a : BitVec 6) (d : BitVec 6) (q : BitVec 1) : State → Out :=
  unOp (.flog2 f sk a d q) (aluFlog2 (.F f))

/-- `FABS` (R149): Clear the sign bit. -/
def execFabs (f : BitVec 2) (sk : BitVec 4) (a : BitVec 6) (d : BitVec 6) (q : BitVec 1) : State → Out :=
  unOp (.fabs f sk a d q) (aluFabs (.F f))

/-- `FNEG` (R149): Invert the sign bit. -/
def execFneg (f : BitVec 2) (sk : BitVec 4) (a : BitVec 6) (d : BitVec 6) (q : BitVec 1) : State → Out :=
  unOp (.fneg f sk a d q) (aluFneg (.F f))

/-- The binary operations with a directed rounding: FP32 in the c-slice, FP64 in the a-slice (R64, R148). -/
def directedOp (i : Instr) (f : Ty → DWord → DWord → DWord) (s : State) : Out :=
  laneOp i (fun e n => f s.cur.kind.floating (e.a n) (e.b n)) s

/-- `FADD_D` (R148): Floating add with directed rounding. -/
def execFaddD (r : BitVec 2) (sk : BitVec 4) (b : BitVec 6) (a : BitVec 6) (d : BitVec 6) (q : BitVec 1) : State → Out :=
  directedOp (.faddD r sk b a d q) (fun t => aluFadd t (.directed r))

/-- `FSUB_D` (R148): Floating subtract with directed rounding. -/
def execFsubD (r : BitVec 2) (sk : BitVec 4) (b : BitVec 6) (a : BitVec 6) (d : BitVec 6) (q : BitVec 1) : State → Out :=
  directedOp (.fsubD r sk b a d q) (fun t => aluFsub t (.directed r))

/-- `FMUL_D` (R148): Floating multiply with directed rounding. -/
def execFmulD (r : BitVec 2) (sk : BitVec 4) (b : BitVec 6) (a : BitVec 6) (d : BitVec 6) (q : BitVec 1) : State → Out :=
  directedOp (.fmulD r sk b a d q) (fun t => aluFmul t (.directed r))

/-- `FMA_D` (R148): Fused multiply-add with directed rounding. -/
def execFmaD (r : BitVec 2) (sk : BitVec 4) (b : BitVec 6) (a : BitVec 6) (d : BitVec 6) (q : BitVec 1) (s : State) : Out :=
  laneOp (.fmaD r sk b a d q) (fun e n => aluFma s.cur.kind.floating (.directed r) (e.a n) (e.b n) (e.d n)) s

/-- `FADD_16` (R59): 16-bit floating add at the natural width. -/
def execFadd16 (d : BitVec 6) (b : BitVec 5) : State → Out :=
  shortOp (.fadd16 d b) UnitKind.floating d b (fun t => aluFadd t .rne)

/-- `FSUB_16` (R59): 16-bit floating subtract. -/
def execFsub16 (d : BitVec 6) (b : BitVec 5) : State → Out :=
  shortOp (.fsub16 d b) UnitKind.floating d b (fun t => aluFsub t .rne)

/-- `FMUL_16` (R59): 16-bit floating multiply. -/
def execFmul16 (d : BitVec 6) (b : BitVec 5) : State → Out :=
  shortOp (.fmul16 d b) UnitKind.floating d b (fun t => aluFmul t .rne)

/-- `FMAX_16` (R59): 16-bit IEEE maximum. -/
def execFmax16 (d : BitVec 6) (b : BitVec 5) : State → Out :=
  shortOp (.fmax16 d b) UnitKind.floating d b aluFmax

/-- An FP16 immediate widened to the unit's floating type (R95). -/
def immFloat (t : Ty) (x : Half) : DWord := aluCvt .rne t .f16 (x.zeroExtend 64)

/-- `FMOV_IMM` (R158): d := FP16 immediate widened exactly. -/
def execFmovImm (i : BitVec 16) (d : BitVec 6) : State → Out :=
  immOp (.fmovImm i d) UnitKind.floating d 0 fun t _ _ => immFloat t i

/-- `FADD_IMM` (R158): Floating add of an FP16 immediate. -/
def execFaddImm (i : BitVec 16) (d : BitVec 6) : State → Out :=
  immOp (.faddImm i d) UnitKind.floating d 0 fun t v _ => aluFadd t .rne v (immFloat t i)

/-- `FMUL_IMM` (R158): Floating multiply by an FP16 immediate. -/
def execFmulImm (i : BitVec 16) (d : BitVec 6) : State → Out :=
  immOp (.fmulImm i d) UnitKind.floating d 0 fun t v _ => aluFmul t .rne v (immFloat t i)

/-- `FMAX_IMM` (R158): IEEE maximum with an FP16 immediate. -/
def execFmaxImm (i : BitVec 16) (d : BitVec 6) : State → Out :=
  immOp (.fmaxImm i d) UnitKind.floating d 0 fun t v _ => aluFmax t v (immFloat t i)

/-- `CVT_RNE` (R151): Convert with rne. -/
def execCvtRne (u : BitVec 2) (sk : BitVec 4) (y : BitVec 4) (v : BitVec 2) (a : BitVec 6) (d : BitVec 6) (q : BitVec 1) : State → Out :=
  unOp (.cvtRne u sk y v a d q) (aluCvt .rne (.code y) (.code (u ++ v)))

/-- `CVT_RNA` (R151): Convert with rna. -/
def execCvtRna (u : BitVec 2) (sk : BitVec 4) (y : BitVec 4) (v : BitVec 2) (a : BitVec 6) (d : BitVec 6) (q : BitVec 1) : State → Out :=
  unOp (.cvtRna u sk y v a d q) (aluCvt .rna (.code y) (.code (u ++ v)))

/-- `CVT_RZ` (R151): Convert with rz. -/
def execCvtRz (u : BitVec 2) (sk : BitVec 4) (y : BitVec 4) (v : BitVec 2) (a : BitVec 6) (d : BitVec 6) (q : BitVec 1) : State → Out :=
  unOp (.cvtRz u sk y v a d q) (aluCvt .rz (.code y) (.code (u ++ v)))

/-- `CVT_RUP` (R151): Convert with rup. -/
def execCvtRup (u : BitVec 2) (sk : BitVec 4) (y : BitVec 4) (v : BitVec 2) (a : BitVec 6) (d : BitVec 6) (q : BitVec 1) : State → Out :=
  unOp (.cvtRup u sk y v a d q) (aluCvt .rup (.code y) (.code (u ++ v)))

/-- `CVT_RDN` (R151): Convert with rdn. -/
def execCvtRdn (u : BitVec 2) (sk : BitVec 4) (y : BitVec 4) (v : BitVec 2) (a : BitVec 6) (d : BitVec 6) (q : BitVec 1) : State → Out :=
  unOp (.cvtRdn u sk y v a d q) (aluCvt .rdn (.code y) (.code (u ++ v)))

end Sys2Proof.Machine
end

