-- ==== Sys2Proof/Machine/MaskLane.lean ====
section
/-! DEFINITION. Compare, select and mask instructions (R144 to R146), cross-lane instructions (R156, R157) and TS block
instructions (R153 to R155). -/

namespace Sys2Proof.Machine

/-- `ICMP` (R144): Integer compare producing a mask. -/
def execIcmp (i : BitVec 2) (sk : BitVec 4) (b : BitVec 6) (a : BitVec 6) (c : BitVec 3) (m : BitVec 3) (q : BitVec 1) : State → Out :=
  maskOp (.icmp i sk b a c m q) fun e n => aluIcmp (.I i) c.toNat (e.a n) (e.b n)

/-- `FCMP` (R144): Floating compare producing a mask. -/
def execFcmp (f : BitVec 2) (sk : BitVec 4) (b : BitVec 6) (a : BitVec 6) (c : BitVec 3) (m : BitVec 3) (q : BitVec 1) : State → Out :=
  maskOp (.fcmp f sk b a c m q) fun e n => aluFcmp (.F f) c.toNat (e.a n) (e.b n)

/-- `SEL` (R145): Lane select by mask k0–k3. -/
def execSel (n : BitVec 2) (sk : BitVec 4) (b : BitVec 6) (a : BitVec 6) (d : BitVec 6) (q : BitVec 1) : State → Out :=
  laneOp (.sel n sk b a d q) fun e l => if (e.k n.toNat).getLsbD l then e.a l else e.b l

/-- `KAND` (R146): Mask and. -/
def execKand (sk : BitVec 4) (b : BitVec 3) (a : BitVec 3) (d : BitVec 3) (q : BitVec 1) : State → Out :=
  maskOp (.kand sk b a d q) fun e n => (e.a n).getLsbD n && (e.b n).getLsbD n

/-- `KANDN` (R146): Mask and-not. -/
def execKandn (sk : BitVec 4) (b : BitVec 3) (a : BitVec 3) (d : BitVec 3) (q : BitVec 1) : State → Out :=
  maskOp (.kandn sk b a d q) fun e n => (e.a n).getLsbD n && !(e.b n).getLsbD n

/-- `KOR` (R146): Mask or. -/
def execKor (sk : BitVec 4) (b : BitVec 3) (a : BitVec 3) (d : BitVec 3) (q : BitVec 1) : State → Out :=
  maskOp (.kor sk b a d q) fun e n => (e.a n).getLsbD n || (e.b n).getLsbD n

/-- `KXOR` (R146): Mask xor. -/
def execKxor (sk : BitVec 4) (b : BitVec 3) (a : BitVec 3) (d : BitVec 3) (q : BitVec 1) : State → Out :=
  maskOp (.kxor sk b a d q) fun e n => (e.a n).getLsbD n != (e.b n).getLsbD n

/-- `KNOT` (R146): Mask not. -/
def execKnot (sk : BitVec 4) (a : BitVec 3) (d : BitVec 3) (q : BitVec 1) : State → Out :=
  maskOp (.knot sk a d q) fun e n => !(e.a n).getLsbD n

/-- `KMOV` (R146): Mask copy. -/
def execKmov (sk : BitVec 4) (a : BitVec 3) (d : BitVec 3) (q : BitVec 1) : State → Out :=
  maskOp (.kmov sk a d q) fun e n => (e.a n).getLsbD n

/-- `VOTE_ALL` (R146): 1 if every active lane's bit is set. -/
def execVoteAll (sk : BitVec 4) (a : BitVec 3) (d : BitVec 3) (q : BitVec 1) : State → Out :=
  maskOp (.voteAll sk a d q) fun e n => voteAllOf e.act ((e.a n).truncate 32)

/-- `VOTE_ANY` (R146): 1 if any active lane's bit is set. -/
def execVoteAny (sk : BitVec 4) (a : BitVec 3) (d : BitVec 3) (q : BitVec 1) : State → Out :=
  maskOp (.voteAny sk a d q) fun e n => voteAnyOf e.act ((e.a n).truncate 32)

/-- `BALLOT` (R146): Write the mask of active lanes as a value. -/
def execBallot (sk : BitVec 4) (a : BitVec 3) (d : BitVec 6) (q : BitVec 1) : State → Out :=
  laneOp (.ballot sk a d q) fun e n => ((e.a n).truncate 32 &&& e.act).zeroExtend 64

/-- `KSET` (R146): Set a mask from the value in the lowest active lane. -/
def execKset (sk : BitVec 4) (a : BitVec 6) (d : BitVec 3) (q : BitVec 1) : State → Out :=
  maskOp (.kset sk a d q) fun e n => (e.a ((lowestLane e.act).getD 0)).getLsbD n

/-- A cross-lane read: lane n takes a from its source lane as that lane stands (R156, R117). -/
def crossOp (i : Instr) : State → Out := laneOp i fun e n => e.a (sourceLane i e.b n)

/-- `SHFL_IDX` (R156): Read a from lane b[4:0]. -/
def execShflIdx (sk : BitVec 4) (b : BitVec 6) (a : BitVec 6) (d : BitVec 6) (q : BitVec 1) : State → Out :=
  crossOp (.shflIdx sk b a d q)

/-- `SHFL_UP` (R156): Read a from lane i − b. -/
def execShflUp (sk : BitVec 4) (b : BitVec 6) (a : BitVec 6) (d : BitVec 6) (q : BitVec 1) : State → Out :=
  crossOp (.shflUp sk b a d q)

/-- `SHFL_DN` (R156): Read a from lane i + b. -/
def execShflDn (sk : BitVec 4) (b : BitVec 6) (a : BitVec 6) (d : BitVec 6) (q : BitVec 1) : State → Out :=
  crossOp (.shflDn sk b a d q)

/-- `SHFL_XOR` (R156): Read a from lane i xor b. -/
def execShflXor (sk : BitVec 4) (b : BitVec 6) (a : BitVec 6) (d : BitVec 6) (q : BitVec 1) : State → Out :=
  crossOp (.shflXor sk b a d q)

/-- `ROT_UP` (R156): Rotate lanes up. -/
def execRotUp (sk : BitVec 4) (b : BitVec 6) (a : BitVec 6) (d : BitVec 6) (q : BitVec 1) : State → Out :=
  crossOp (.rotUp sk b a d q)

/-- `ROT_DN` (R156): Rotate lanes down. -/
def execRotDn (sk : BitVec 4) (b : BitVec 6) (a : BitVec 6) (d : BitVec 6) (q : BitVec 1) : State → Out :=
  crossOp (.rotDn sk b a d q)

/-- `BCAST` (R156): Broadcast lane n's value. -/
def execBcast (sk : BitVec 4) (n : BitVec 5) (a : BitVec 6) (d : BitVec 6) (q : BitVec 1) : State → Out :=
  crossOp (.bcast sk n a d q)

/-- The operands of the lanes of a mask combined in ascending order (R157); none of no lane. -/
def combine (f : DWord → DWord → DWord) (x : Nat → DWord) : List Nat → Option DWord
  | [] => none
  | n :: ns => some (ns.foldl (fun acc m => f acc (x m)) (x n))

/-- `GRED` (R157): Reduction over the active lanes in ascending order. -/
def execGred (t : BitVec 2) (sk : BitVec 4) (c : BitVec 1) (o : BitVec 3) (a : BitVec 6) (d : BitVec 6) (q : BitVec 1) : State → Out :=
  laneOp (.gred t sk c o a d q) fun e _ => (combine (aluReduce (.IF c t) o.toNat) e.a (lanesOf e.act)).getD 0

/-- `SCAN_INC` (R157): Inclusive scan over the active lanes. -/
def execScanInc (t : BitVec 2) (sk : BitVec 4) (c : BitVec 1) (o : BitVec 3) (a : BitVec 6) (d : BitVec 6) (q : BitVec 1) : State → Out :=
  laneOp (.scanInc t sk c o a d q) fun e n =>
    (combine (aluReduce (.IF c t) o.toNat) e.a ((lanesOf e.act).filter (· ≤ n))).getD 0

/-- `SCAN_EXC` (R157): Exclusive scan over the active lanes. -/
def execScanExc (t : BitVec 2) (sk : BitVec 4) (c : BitVec 1) (o : BitVec 3) (a : BitVec 6) (d : BitVec 6) (q : BitVec 1) : State → Out :=
  laneOp (.scanExc t sk c o a d q) fun e n =>
    (combine (aluReduce (.IF c t) o.toNat) e.a ((lanesOf e.act).filter (· < n))).getD (aluIdentity (.IF c t) o.toNat)

/-- The input format of `tspk` (R153). -/
def tspkInput (i : Nat) : Ty := if i = 0 then .f32 else if i = 1 then .f16 else .bf16

/-- The block of lane n: the encoding of the sixteen lanes of its half-gang, inactive ones as +0 (R153). -/
def tspkBlock (t : Nat) (r : Rnd) (i : Nat) (e : LaneEnv) (n : Nat) : Word × List Nat :=
  let ty := tspkInput i
  tsEncode (tsBits t) r ((List.range 16).map fun j =>
    let l := n / 16 * 16 + j
    if e.act.getLsbD l then (Fmt.ofTy ty).value (lowBits ty (e.a l)) else .fin false 0 0)

/-- `TSPK` (R153): Encode one TS block per half-gang into element fields and scale words. -/
def execTspk (t : BitVec 2) (sk : BitVec 4) (r : BitVec 3) (i : BitVec 3) (a : BitVec 6) (d : BitVec 6) (q : BitVec 1) : State → Out :=
  laneOp (.tspk t sk r i a d q) fun e n =>
    let blk := tspkBlock t.toNat (Rnd.code r.toNat) i.toNat e n
    blk.1 ++ BitVec.ofNat 32 (blk.2.getD (n % 16) 0)

/-- `TSUPK` (R154): Decode a TS element to FP32. -/
def execTsupk (t : BitVec 2) (sk : BitVec 4) (b : BitVec 6) (a : BitVec 6) (d : BitVec 6) (q : BitVec 1) : State → Out :=
  laneOp (.tsupk t sk b a d q) fun e n =>
    BitVec.ofNat 64 (Fmt.f32.ofValue .rne (tsValue (tsBits t.toNat) ((e.b n).truncate 32) (n % 16) (e.a n).toNat))

/-- `TSSC` (R155): Adjust a scale word's exponent by a signed step. -/
def execTssc (sk : BitVec 4) (b : BitVec 6) (a : BitVec 6) (d : BitVec 6) (q : BitVec 1) : State → Out :=
  laneOp (.tssc sk b a d q) fun e n => (tsStep ((e.a n).truncate 32) (intOf .i32 (e.b n).toNat)).zeroExtend 64

end Sys2Proof.Machine
end

