-- ==== Sys2Proof/Machine/Control.lean ====
section
/-! DEFINITION. Control flow of the three units: branches (R163 to R167), calls and indirect jumps (R168 to R171), joins and
ends (R172, R173), queue inspection (R174, R175), `gsync` (R176), traps by instruction (R179), regions (R182), checked mode
(R183) and `nop` (R184). -/

namespace Sys2Proof.Machine

/-- A branch target: the branch's own address plus twice the signed offset (R70). -/
def branchTarget (pc : VAddr) (o : BitVec 18) : VAddr := pc + (o.signExtend 57 <<< 1)

/-- A uniform branch in the a-slice: a p = 1 branch that yields does not execute; otherwise it pushes its decision record
if it has one and moves the program counter (R163 to R165). -/
def branchA (s : State) (g : GangId) (p : BitVec 1) (mayYield taken : Bool) (target next : VAddr) : State :=
  if p == 1 && mayYield && (s.gang g).yields then
    (s.modGang g fun x => x.quantum).checkDeadlock g
  else
    s.modGang g fun x =>
      { (if p == 1 then x.pushDq (decisionRec taken) else x) with apc := if taken then target else next }

/-- `BRA` (R163): unconditional branch, optionally pushing a decision record. -/
def execBra (o : BitVec 18) (p : BitVec 1) (s : State) : Out :=
  issue (.bra o p) s fun s =>
    let target := branchTarget (s.pc s.cur) o
    match s.cur with
    | .a g => .next (branchA s g p true true target target)
    | .c _ => .next (s.setPc s.cur target)
    | .m _ => .next (s.setPc s.cur target)

/-- `BRC` (R163): conditional uniform branch on a mask or a scalar. -/
def execBrc (o : BitVec 18) (p : BitVec 1) (k : BitVec 3) (c : BitVec 2) (s : State) : Out :=
  issue (.brc o p k c) s fun s =>
    let u := s.cur
    let target := branchTarget (s.pc u) o
    let next := s.pc u + 4
    match u with
    | .a g => .next (branchA s g p true (condMask c.toNat (s.readMask u k.toNat) (s.active u)) target next)
    | .c _ => .next s
    | .m x =>
      .next (s.setPc u (if condScalar c.toNat ((s.clu x).ctl.readM k.toNat).bits then target else next))

/-- `BRV` (R166): divergent branch. -/
def execBrv (o : BitVec 18) (k : BitVec 3) (s : State) : Out :=
  issue (.brv o k) s fun s =>
    let u := s.cur
    match u with
    | .a g =>
      let act := s.active u
      let km := s.readMask u k.toNat
      match (s.gang g).brv (act &&& km) (act &&& ~~~km) (branchTarget (s.pc u) o) (s.pc u + 4) with
      | some x => .next (s.setGang g x)
      | none => .next (s.raiseAt u causeOverflow 0 0)
    | _ => .next s

/-- The kinds of record that an instruction of the c-slice accepts (R104). -/
def acceptedKinds (i : Instr) : List Nat :=
  match i with
  | .brd _ => [0, 1, 4]
  | .jmpi _ _ _ => [2, 4]
  | .rejoin => [4, 5]
  | .exit => [4, 6]
  | .region => [4, 7]
  | _ => []

/-- An instruction of the c-slice that pops `dq`: a kind it does not accept is queue misuse, a switch is applied, and any
other record goes to the instruction (R104). -/
def popRecord (i : Instr) (s : State) (g : GangId) (k : DRec → State → State) : Out :=
  match (s.gang g).dq with
  | [] => .next s
  | r :: _ =>
    if !(acceptedKinds i).contains r.kind then .next (s.raiseAt (.c g) causeQueue r.kind 4)
    else if r.kind == 4 then .next (s.modGang g fun x => x.cSwitch r)
    else .next (k r s)

/-- `BRD` (R167): c-slice branch that follows the `dq` record at the head. -/
def execBrd (o : BitVec 18) (s : State) : Out :=
  issue (.brd o) s fun s =>
    match s.cur with
    | .c g =>
      let target := branchTarget (s.pc s.cur) o
      let next := s.pc s.cur + 4
      popRecord (.brd o) s g fun r s =>
        if r.kind == 0 then
          s.modGang g fun x => { x.popDq with cpc := if r.payload.getLsbD 0 then target else next }
        else s.modGang g fun x => x.cDiverge r target next
    | _ => .next s

/-- `CALL` (R169): branch and write the return address, in the c-slice in every lane of the fragment. -/
def execCall (o : BitVec 18) (p : BitVec 1) (s : State) : Out :=
  issue (.call o p) s fun s =>
    let u := s.cur
    let target := branchTarget (s.pc u) o
    let next := s.pc u + 4
    match u with
    | .a g =>
      .next (branchA (s.modGang g fun x => x.writeA 63 (BitVec.allOnes 32) fun _ => ⟨next.zeroExtend 64, false⟩)
        g p false true target next)
    | .c _ => .next ((s.writeReg u .b64 62 (s.fragment u) fun _ => next.zeroExtend 64).setPc u target)
    | .m _ => .next ((s.writeReg u .b64 31 1 fun _ => next.zeroExtend 64).setPc u target)

/-- The check of a control target (R170, R171): the detail it fails with. -/
def targetFault (v : DWord) : Option Nat :=
  if v.extractLsb' 57 7 != 0 then some 6 else if v.getLsbD 0 then some 3 else none

/-- A control value read in the leader lane (R168). -/
def leaderValue (s : State) (u : UnitId) (t : Ty) (code : Nat) : DWord := (s.readReg u t code (s.leader u)).bits

/-- `RET` (R170): return to the address in the return register. -/
def execRet (s : State) : Out :=
  issue .ret s fun s =>
    let u := s.cur
    let v := leaderValue s u .b64 (match u with | .a _ => 63 | .c _ => 62 | .m _ => 31)
    match targetFault v with
    | some n => .next (s.raiseAt u causeMemory n v)
    | none => .next (s.setPc u (v.truncate 57))

/-- `JMPI` (R171): indirect jump, with an optional c-slice target record. -/
def execJmpi (b a : BitVec 6) (p : BitVec 1) (s : State) : Out :=
  issue (.jmpi b a p) s fun s =>
    let u := s.cur
    match u with
    | .c g => popRecord (.jmpi b a p) s g fun r s => s.modGang g fun x => { x.popDq with cpc := r.payload.truncate 57 }
    | _ =>
      let v := leaderValue s u .b64 a.toNat
      let w := leaderValue s u .b64 b.toNat
      match targetFault v with
      | some n => .next (s.raiseAt u causeMemory n v)
      | none =>
        match u with
        | .a g =>
          if p == 1 then
            match targetFault w with
            | some n => .next (s.raiseAt u causeMemory n w)
            | none => .next (s.modGang g fun x => { x.pushDq ⟨2, w⟩ with apc := v.truncate 57 })
          else .next (s.setPc u (v.truncate 57))
        | _ => .next (s.setPc u (v.truncate 57))

/-- `REJOIN` (R112, R172): arrive at a join; merge, switch to a deferred path, or wait. -/
def execRejoin (s : State) : Out :=
  issue .rejoin s fun s =>
    let next := s.pc s.cur + 4
    match s.cur with
    | .a g => .next ((s.modGang g fun x => x.rejoin next).checkDeadlock g)
    | .c g => popRecord .rejoin s g fun r s => s.modGang g fun x => x.cRelease r next
    | .m _ => .next s

/-! ## Queue inspection (R174, R175) -/

/-- `QPEEK`: read the head entry of a queue without popping; on `dq`, the kind of the head record. A poison mark on the word
is copied into `d` and not consumed (the model's choice, log entry 38). -/
def execQpeek (q : BitVec 3) (d : BitVec 6) (s : State) : Out :=
  issue (.qpeek q d) s fun s =>
    let u := s.cur
    let x := s.gangOf u
    let value (n : Nat) : Val32 :=
      if u.kind == .C && q == 4 then ⟨BitVec.ofNat 32 (x.dq.headD ⟨0, 0⟩).kind, false⟩
      else ((x.readQueue u.kind q.toNat).headD ⟨[], 0⟩).word n
    .next ((s.writeMarked u .b32 d.toNat (s.active u) fun n => ⟨(value n).bits.zeroExtend 64, (value n).poison⟩).advance
      (.qpeek q d))

/-- `QCOUNT`: read the number of entries in a queue, those that a held store is still to take among them (R175; log entry 36). -/
def execQcount (q : BitVec 3) (d : BitVec 6) (s : State) : Out :=
  issue (.qcount q d) s fun s =>
    let u := s.cur
    let x := s.gangOf u
    let n := if u.kind == .C && q == 4 then x.dq.length else (x.readQueue u.kind q.toNat).length
    .next ((s.writeReg u .b32 d.toNat (s.active u) fun _ => BitVec.ofNat 64 n).advance (.qcount q d))

/-- `QDRAIN`: discard every entry present in a queue. -/
def execQdrain (q : BitVec 3) (s : State) : Out :=
  issue (.qdrain q) s fun s =>
    match s.cur with
    | .a g => .next ((s.modGang g fun x => x.setQueue .A q.toNat []).advance (.qdrain q))
    | .c g => .next ((s.modGang g fun x => x.setQueue .C q.toNat []).advance (.qdrain q))
    | .m _ => .next s

/-! ## Gang synchronisation (R176, R177) -/

/-- The checks of R176 on a mask, in order: the detail of the first that fails. Check 3 compares with live lanes and a
fragment mask, where they are known. -/
def gsyncFault (act : Word) (m : Nat → Word) (lead : Word) (against : Option (Word × Word)) : Option Nat :=
  if (lanesOf act).any fun n => m n != lead then some 1
  else if (lanesOf act).any fun n => !(m n).getLsbD n then some 2
  else
    match against with
    | some (live, frag) => if lead &&& live &&& ~~~frag != 0 then some 3 else none
    | none => none

/-- Both slices retire their `gsync` in one cycle (R177); the a-slice's is a fence between the accesses before it and after it (R178). -/
def Gang.rendezvous (x : Gang) : Gang := { x with gsA := none, gsC := none, apc := x.apc + 4, cpc := x.cpc + 4, era := x.era + 1 }

/-- A slice reaches a `gsync` with the mask that each lane gives (R176): after its checks it waits for the other slice. A
c-slice that already waits is checked against the state of the a-slice that now arrives. Where both have passed, both retire at once
(R177). -/
def gsyncAt (s : State) (m : Nat → Word) (lead : Word) : State :=
  let u := s.cur
  let act := s.active u
  let meet (s : State) (g : GangId) : State := s.modGang g fun x => x.rendezvous
  match u with
  | .a g =>
    let x := s.gang g
    match gsyncFault act m lead (some (x.live, x.fragMask)) with
    | some n => s.raiseAt u causeMask n (lead.zeroExtend 64)
    | none =>
      let s := s.modGang g fun x => { x with gsA := some ⟨lead, x.live, x.fragMask, act⟩ }
      match x.gsC with
      | some c =>
        if c.mask &&& x.live &&& ~~~x.fragMask != 0 then
          (s.modGang g fun x => { x with gsC := none }).raise (.c g)
            ⟨causeMask, 3, c.mask.zeroExtend 64, c.active, false, 4⟩
        else meet s g
      | none => s
  | .c g =>
    let x := s.gang g
    match gsyncFault act m lead (x.gsA.map fun y => (y.live, y.frag)) with
    | some n => s.raiseAt u causeMask n (lead.zeroExtend 64)
    | none =>
      let s := s.modGang g fun y => { y with gsC := some ⟨lead, y.live, y.fragMask, act⟩ }
      if x.gsA.isSome then meet s g else s
  | .m _ => s

/-- `GSYNC`: rendezvous with the whole-gang mask. -/
def execGsync (s : State) : Out :=
  issue .gsync s fun s => .next (gsyncAt s (fun _ => 0xFFFFFFFF) 0xFFFFFFFF)

/-- `GSYNC_MASK`: rendezvous with the membership mask in a. -/
def execGsyncMask (a : BitVec 6) (s : State) : Out :=
  issue (.gsyncMask a) s fun s =>
    let m (n : Nat) : Word := (s.readReg s.cur .b32 a.toNat n).bits.truncate 32
    .next (gsyncAt s m (m (s.leader s.cur)))

/-! ## Traps by instruction (R179) -/

/-- A trap that an instruction asks for: with no active lane it has no effect. -/
def trapBy (i : Instr) (cause : Nat) (n : BitVec 12) (s : State) : Out :=
  issue i s fun s =>
    let act := s.active s.cur
    if act == 0 then .next (s.advance i) else .next (s.raise s.cur ⟨cause, 0, n.zeroExtend 64, act, true, 4⟩)

/-- `TRAP`: raise a software trap. -/
def execTrap (n : BitVec 12) : State → Out := trapBy (.trap n) 6 n
/-- `BRK`: raise a breakpoint. -/
def execBrk (n : BitVec 12) : State → Out := trapBy (.brk n) 5 n
/-- `SVC`: raise a supervisor call. -/
def execSvc (n : BitVec 12) : State → Out := trapBy (.svc n) 7 n

/-! ## Regions and checked mode (R129, R182, R183, R295) -/

/-- What keeps a region from opening: the least info value of R182 that applies. -/
def Gang.regionBlock (x : Gang) : Option Nat :=
  if !x.fq.isEmpty then some 0
  else if !(tget 0 [] x.sq).isEmpty then some 1
  else if !(tget 1 [] x.sq).isEmpty then some 2
  else if (List.range 4).any fun n => !(tget n [] x.lq).isEmpty then some 8
  else if !x.dq.isEmpty then some 9
  else if !x.hold.isEmpty then some 10
  else if fragIdx.any fun e => (x.frag e).state != .free && some e != x.cur then some 11
  else none

/-- The region opens once the c-slice has popped the record (R129): both program counters go past `region`. -/
def Gang.openRegion (x : Gang) : Gang :=
  let e := x.cur.getD 0
  let y := { x with apc := x.apc + 4 }
  { y with region := some ⟨y.apc, y.cpc, e, (y.frag e).mask, (y.frag e).join, y.exmA, y.exmC, y.joins, y.cjoins, 0⟩ }

/-- The c-slice pops the region record and goes on (R129): the region opens, or where something keeps it from opening at that moment the
a-slice raises cause 12 at its `region`. -/
def State.popRegion (s : State) (g : GangId) : State :=
  let t := s.modGang g fun x => { x.popDq with cpc := x.cpc + 4, regionWait := false }
  match (t.gang g).regionBlock with
  | some n => t.raiseAt (.a g) causeRegion 0 (BitVec.ofNat 64 n)
  | none => t.modGang g fun x => x.openRegion

/-- `REGION`: open an idempotent region by a rendezvous of the slices, or in the controller (R295). The state is checked before the
push, as R182 has it, and again when the record is popped, which R129 names (log entry 36). -/
def execRegion (s : State) : Out :=
  issue .region s fun s =>
    match s.cur with
    | .a g =>
      match (s.gang g).regionBlock with
      | some n => .next (s.raiseAt s.cur causeRegion 0 (BitVec.ofNat 64 n))
      | none => .next (s.modGang g fun x => { x.pushDq ⟨7, 0⟩ with regionWait := true })
    | .c g => popRecord .region s g fun _ s => s.popRegion g
    | .m c =>
      if !(s.clu c).ctl.queue.isEmpty || (s.clu c).pins.any (fun p => p.after.isSome) then
        .next (s.raiseAt s.cur causeRegion 0 12)
      else .next (s.modCtl c fun x => { x with region := some (x.pc + 4, 0), pc := x.pc + 4 })

/-- `CHK_OFF`: clear the checked-mode flag unless the launch locks it. -/
def execChkOff (s : State) : Out :=
  issue .chkOff s fun s =>
    match s.cur with
    | .a g => .next ((s.modGang g fun x => { x with checked := x.checked && x.chkLock }).advance .chkOff)
    | _ => .next s

/-- `CHK_ON`: set the checked-mode flag. -/
def execChkOn (s : State) : Out :=
  issue .chkOn s fun s =>
    match s.cur with
    | .a g => .next ((s.modGang g fun x => { x with checked := true }).advance .chkOn)
    | _ => .next s

/-- `CHK_Q`: read the checked-mode flag and lock. -/
def execChkQ (d : BitVec 6) (s : State) : Out :=
  issue (.chkQ d) s fun s =>
    let u := s.cur
    let x := s.gangOf u
    let v : DWord := (if x.checked then 1 else 0) ||| (if x.chkLock then 2 else 0)
    .next ((s.writeReg u .b64 d.toNat (s.active u) fun _ => v).advance (.chkQ d))

/-- `NOP` (R184): advances the program counter. -/
def execNop (s : State) : Out := issue .nop s fun s => .next (s.advance .nop)

end Sys2Proof.Machine
end

