-- ==== Sys2Proof/Machine/Sync.lean ====
section
/-! DEFINITION. Fences, locks, bindings, monitors and prefetch (R263 to R270). -/

namespace Sys2Proof.Machine

/-! ## One word reached by a gang or by a controller -/

/-- What came of reaching a word: a trap, a wait with nothing changed, a miss that is now waited for, or its key. -/
inductive WordReach where
  | fault (r : Raised)
  | wait
  | held (s : State)
  | go (s : State) (k : Nat)

/-- How a record names a controller's access to a word (R352): its read of a descriptor or object word, or else the step of an `acq`, a
`rel` or a count. -/
def ctlAccess (k : AccessKind) : Nat := if k = .load then 0 else 2

/-- A read or write of a `.g` word in one lane, checked and translated as R250 has it; an instruction that misses is issued
again once its page is translated. A fault records every active lane (log entry 38). A store of the core that its L1 has seen comes
first (R198, R223). -/
def State.reachWord (s : State) (u : UnitId) (lane ea size : Nat) (kind : AccessKind) (d : Dest) : WordReach :=
  match u with
  | .a g =>
    let a := { blankAccess s g kind .g size 0 .b64 d with lanes := [⟨lane, ea, none, 0, 0⟩] }
    match s.reach a (s.pc u) 4 true with
    | .fault r => .fault { r with lanes := s.active u }
    | .wait => .wait
    | .held t => .held t
    | .go t a =>
      if t.flight.any fun f => (f.gang == g || f.storeOf g.coreId) && f.overlaps a then .wait
      else
        match a.lanes with
        | [l] => .go t (l.pa.getD 0)
        | _ => .wait
  | .m c =>
    let ctl := (s.clu c).ctl
    let fault (n : Nat) : WordReach := .fault ⟨causeMemory, n, BitVec.ofNat 64 ea, 1, false, 4⟩
    let n := needs kind d
    if ea ≥ 2 ^ 57 then fault 6 else if ea % size != 0 then fault 3
    else
      match s.tlbLookup c ctl.ctx ea with
      | some e => if e.permits ctl.mode n then .go (s.fillClu c e) (hbmKey c.pkg (e.pa ea)) else fault 4
      | none =>
        match s.walk c.pkg ctl.ctx ea with
        | .mapped e =>
          if e.permits ctl.mode n || s.walkWaits c.pkg ctl.ctx ea then .held (s.modCtl c fun x => { x with miss := some (ea, ctlAccess kind) })
          else fault 4
        | .miss _ _ _ => .held (s.modCtl c fun x => { x with miss := some (ea, ctlAccess kind) })
  | .c _ => .wait

/-- Whether a handle is no completion object (detail 23). -/
def objectBad (h : DWord) : Bool := handleKind h != 1 || wordHandleBad h

/-- The word of a completion object reached: a handle that fails R250 is detail 23. -/
def State.reachObject (s : State) (u : UnitId) (h : DWord) (kind : AccessKind) : WordReach :=
  if objectBad h then .fault ⟨causeMemory, 23, h, s.active u, false, 4⟩
  else
    match s.reachWord u (s.leader u) (handleName h) 8 kind (.reg 0) with
    | .fault r => .fault { r with detail := 23, info := h }
    | r => r

/-- A gang operation on one word: its handle checks, its reach, and its effect at the word's home. -/
def wordOp (i : Instr) (s t : State) (lane ea : Nat) (kind : AccessKind) (d : Dest) (k : State → Nat → State) : Out :=
  match t.reachWord t.cur lane ea 8 kind d with
  | .fault r => .next (t.raise t.cur { r with len := i.size })
  | .wait => .next s
  | .held t => .next t
  | .go t key => if t.placeWaits key 8 then .next s else .next (k t key)

/-! ## Fences (R233, R264) -/

/-- The scopes of a fence that invalidate the L1 (R233): `.clu` and wider, and `.pt`. -/
def scopeWide (c : Nat) : Bool := c ≥ 2

/-- `FENCE` (R233): Wait for earlier accesses and invalidate L1 lines for wide scopes. -/
def execFence (c : BitVec 3) (s : State) : Out :=
  issue (.fence c) s fun s =>
    match s.cur with
    | .a g => .next ((if scopeWide c.toNat then s.ambientAcquire g else s).advance (.fence c))
    | _ => .next (s.advance (.fence c))

/-! ## Locks (R265, R229) -/

/-- Whether an agent has accesses to locations bound to an object that are not performed, local or fabric (R229). -/
def State.boundBusy (s : State) (g : GangId) (h : DWord) : Bool :=
  let ctx := (s.gang g).ctx
  let window (n : Nat) : Nat := (tget n {} (s.pkg g.pkg).groups : Group).wva * 2 ^ 16
  let act (n : Nat) (a : McAct) : Bool :=
    match a with
    | .store o _ _ _ => s.boundTo ctx h (window n + o)
    | .atomic o _ _ _ _ => s.boundTo ctx h (window n + o)
    | _ => false
  (s.flight ++ (s.gang g).hold).any (fun a => a.gang == g && a.space == .g && a.lanes.any fun l => s.boundTo ctx h l.ea)
    || s.msgs.any (fun m => match m.2 with
      | .remote r => r.gang == g && s.boundTo ctx h r.addr
      | .batch b => b.gang == some g && b.items.any fun i => act b.group i.2.1
      | _ => false)
    || s.headgates.any fun x => x.2.records.any fun r => r.writer == some g && act x.1 r.act

/-- The handle check of `acq` and `rel` (detail 12 of R249). -/
def lockBad (h : DWord) : Bool := handleKind h != 0 || wordHandleBad h

/-- An acquire of an object takes effect in a gang's core; a controller has no L1 (R229). -/
def State.acquire (s : State) (u : UnitId) (h : DWord) : State :=
  match u with
  | .a g => s.acquireObject g h
  | _ => s

/-- What an agent waits for, set or cleared. -/
def State.setWait (s : State) (u : UnitId) (w : Option Wait) : State :=
  match u with
  | .a g => s.modGang g fun x => { x with wait := w }
  | .c _ => s
  | .m c => s.modCtl c fun x => { x with wait := w }

/-- What an agent waits for. -/
def State.waitOf (s : State) (u : UnitId) : Option Wait :=
  match u with
  | .a g => (s.gang g).wait
  | .c _ => none
  | .m c => (s.clu c).ctl.wait

/-- The wait of an agent ends and its instruction retires. -/
def State.retire (s : State) (u : UnitId) : State := (s.setWait u none).setPc u (s.pc u + 4)

/-- The line of a word that an atomic has written leaves the agent's core's L1 (R198). -/
def State.dropWord (s : State) (u : UnitId) (k : Nat) : State :=
  match u with
  | .a g => s.modCore g.coreId fun x => { x with l1d := x.l1d.filter fun y => y.psec / 4 != k / 64 }
  | _ => s

/-- An attempt of an `acq` at the word's home (R265), an atomic, which acts on memory alone (R330, R375): it takes a free lock, and
otherwise waits. A word that reads marked is used by the agent that reads it (R255). -/
def State.tryAcquire (s : State) (u : UnitId) (k va : Nat) (h : DWord) : State :=
  let (v, m) := s.readAt k 8
  if m then (s.setWait u none).consumePoison u
  else if v = 0 then ((if isHbm k then (s.writeHome k (bytesOfNum 1 8) false).dropWord u k else s).acquire u h).retire u
  else s.setWait u (some (.acq k va h))

/-- `ACQ` (R265): Acquire a lock word. The info of detail 12 is the handle and its lanes are the active ones, which no rule names (log
entry 38). -/
def execAcq (a : BitVec 6) (s : State) : Out :=
  issue (.acq a) s fun t =>
    let u := t.cur
    if t.active u = 0 then .next (t.advance (.acq a))
    else
      let h := leaderValue t u .b64 a.toNat
      if lockBad h then .next (t.raiseAt u causeMemory 12 h)
      else wordOp (.acq a) s t (t.leader u) (handleName h) .atomic (.reg 0) fun t k => t.tryAcquire u k (handleName h) h

/-- Whether a pre-emption has stopped an agent: what it has not sent is not sent any more (R212). -/
def State.stopped (s : State) (u : UnitId) : Bool :=
  match u with
  | .a g => (s.gang g).preempted
  | .c g => (s.gang g).preempted
  | .m c => (s.clu c).ctl.preempted

/-- `ACQ_ATTEMPT` (R265): A waiting acq repeats its atomic attempt after a write to the lock word and takes the lock if it is
free. -/
def execAcqAttempt (u : UnitId) (s : State) : Out :=
  match s.waitOf u with
  | some (.acq k va h) =>
    let behind : Bool := match u with
      | .a g => s.flight.any fun f => f.storeOf g.coreId && f.touches k 8
      | _ => false
    if s.placeWaits k 8 || behind || s.stopped u then .next s else .next (s.tryAcquire u k va h)
  | _ => .next s

/-! ## Bindings (R226, R227, R266) -/

/-- The lines of a region removed from the L1 of every core that runs a context (R227). -/
def State.dropRegion (s : State) (ctx base len : Nat) : State :=
  { s with cores := s.cores.map fun (p : CoreId × Core) =>
      (p.1, { p.2 with l1d := p.2.l1d.filter fun y => !(y.ctx == ctx && base ≤ y.vsec * 16 && y.vsec * 16 < base + len) }) }

/-- The detail of R226 that a `bind` fails with, if any. -/
def bindFault (t : List Binding) (h : DWord) (a b : Nat) : Option Nat :=
  if handleBad h then some 8
  else if a % 64 != 0 || b % 64 != 0 || b = 0 || b > 2 ^ 48 || a + b > 2 ^ 57 then some 9
  else if t.any fun x => x.base < a + b && a < x.base + x.len then some 10
  else if t.length ≥ 256 then some 11 else none

/-- `BIND` (R226): Bind a .g region to a synchronisation object. -/
def execBind (b : BitVec 6) (a : BitVec 6) (d : BitVec 6) (s : State) : Out :=
  issue (.bind b a d) s fun s =>
    match s.cur with
    | .a g =>
      if s.active s.cur = 0 then .next (s.advance (.bind b a d))
      else
        let h := leaderValue s s.cur .b64 d.toNat
        let base := leaderValue s s.cur .b64 a.toNat
        let len := (leaderValue s s.cur .b64 b.toNat).toNat
        let ctx := (s.gang g).ctx
        match bindFault (s.bindingsOf ctx) h base.toNat len with
        | some n => .next (s.raiseAt s.cur causeMemory n (if n = 8 then h else base))
        | none =>
          let x : Binding := ⟨base.toNat, len, h⟩
          .next (({ s with bindings := tset ctx (s.bindingsOf ctx ++ [x]) s.bindings }.dropRegion ctx x.base x.len).advance
            (.bind b a d))
    | _ => .next s

/-- `UNBIND` (R226): Remove a region binding. -/
def execUnbind (a : BitVec 6) (s : State) : Out :=
  issue (.unbind a) s fun s =>
    match s.cur with
    | .a g =>
      if s.active s.cur = 0 then .next (s.advance (.unbind a))
      else
        let base := leaderValue s s.cur .b64 a.toNat
        let ctx := (s.gang g).ctx
        if base.toNat % 64 != 0 || base.toNat ≥ 2 ^ 57 then .next (s.raiseAt s.cur causeMemory 9 base)
        else
          match (s.bindingsOf ctx).find? fun x => x.base == base.toNat with
          | none => .next (s.raiseAt s.cur causeMemory 11 base)
          | some x =>
            .next (({ s with bindings := tset ctx ((s.bindingsOf ctx).filter fun y => y.base != base.toNat) s.bindings }.dropRegion
              ctx x.base x.len).advance (.unbind a))
    | _ => .next s

/-! ## Monitors (R267 to R269) and prefetch (R270) -/

/-- A list without repeats, in order of first appearance. -/
def dedup (xs : List Nat) : List Nat := xs.foldl (fun ys x => if ys.contains x then ys else ys ++ [x]) []

/-- The access by which the lanes of `mon` and `pf` name their lines. -/
def lineAccess (s : State) (g : GangId) (a : BitVec 6) : Access :=
  { blankAccess s g .load .g 1 0 .b64 .none with
    lanes := lanesWith (s.active (.a g)) (fun n => ((s.gang g).readA a.toNat n).bits.toNat) (fun _ => 0) (fun _ => 0) }

/-- `MON` (R267): Arm the fragment's monitor on lines. -/
def execMon (a : BitVec 6) (s : State) : Out :=
  issue (.mon a) s fun t =>
    match t.cur with
    | .a g =>
      let e := (t.gang g).cur.getD 0
      let acc := lineAccess t g a
      if acc.lanes.isEmpty then .next ((t.modGang g fun x => { x with monitors := tdel e x.monitors }).advance (.mon a))
      else
        match t.reach acc (t.pc t.cur) 4 true with
        | .fault r => .next (t.raise t.cur r)
        | .wait => .next s
        | .held t => .next t
        | .go t acc =>
          let m : Monitor := ⟨dedup (acc.lanes.map fun l => l.pa.getD 0 / 64), dedup (acc.lanes.map fun l => l.ea / 64), false⟩
          .next ((t.modGang g fun x => { x with monitors := tset e m x.monitors }).advance (.mon a))
    | _ => .next s

/-- The monitored lines leave the core's L1, and the monitor is disarmed (R269). -/
def State.disarm (s : State) (g : GangId) (e : Nat) : State :=
  match tfind e (s.gang g).monitors with
  | none => s
  | some m =>
    let s := s.modCore g.coreId fun x => { x with l1d := x.l1d.filter fun y => !m.lines.contains (y.psec / 4) }
    s.modGang g fun x => { x with monitors := tdel e x.monitors }

/-- `MWAIT` (R118, R269): Retire when the monitor has been triggered, none is armed or a wake came; otherwise park. -/
def execMwait (s : State) : Out :=
  issue .mwait s fun s =>
    match s.cur with
    | .a g =>
      let x := s.gang g
      match x.cur with
      | none => .next s
      | some e =>
        let s := s.modGang g fun x => x.mwait
        if x.woke e then .next ((s.disarm g e).advance .mwait)
        else if x.fragMask = 0 then .next (s.checkDeadlock g)
        else .next s
    | _ => .next s

/-- `MONITOR_DROP` (R269): A home slice drops a monitor for lack of room, which wakes its fragment spuriously. -/
def execMonitorDrop (g : GangId) (frag : Nat) (s : State) : Out :=
  let x := s.gang g
  match tfind frag x.monitors with
  | none => .next s
  | some m => .next (s.modGang g fun x => x.hitMonitor frag m)

/-- A line of each lane whose address passes R250 fetched into the core's L1 (R270). A frame that is not zero yet, or is in the final
pass of a migration, is not read (R379, R381). -/
def State.prefetch (s : State) (g : GangId) : List LaneAccess → State
  | [] => s
  | l :: ls =>
    let x := s.gang g
    let e := if l.ea ≥ 2 ^ 57 then none else
      match s.tlbLookup g.cluId x.ctx l.ea with
      | some e => some e
      | none => if s.walkWaits g.pkg x.ctx l.ea then none else match s.walk g.pkg x.ctx l.ea with
        | .mapped e => some e
        | .miss _ _ _ => none
    let s := match e with
      | some e =>
        let k := hbmKey g.pkg (e.pa l.ea)
        if e.permits x.mode (true, false) && isHbm k && !s.placeWaits k 64 then s.fillLine g.coreId x.ctx l.ea k else s
      | none => s
    s.prefetch g ls

/-- `PF_L1` (R270): Prefetch lines into the L1. -/
def execPfL1 (a : BitVec 6) (s : State) : Out :=
  issue (.pfL1 a) s fun s =>
    match s.cur with
    | .a g => .next ((s.prefetch g (lineAccess s g a).lanes).advance (.pfL1 a))
    | _ => .next s

/-- `PF_L2` (R270): Prefetch lines into the home L2, which the model holds as one with memory. -/
def execPfL2 (a : BitVec 6) (s : State) : Out := issue (.pfL2 a) s fun s => .next (s.advance (.pfL2 a))

/-! ## The overlap stall (R106, R188) -/

/-- The access of an instruction of the a-slice that makes one at issue. -/
def accessOf (i : Instr) : Option (State → GangId → Access) :=
  let word (k : AccessKind) (a : BitVec 6) (s : State) (g : GangId) : Access :=
    { blankAccess s g k .g 8 0 .b64 .none with
      lanes := (lowestLane (s.active (.a g))).toList.map fun n => ⟨n, handleName ((s.gang g).readA a.toNat n).bits, none, 0, 0⟩ }
  match i with
  | .ld o q p z a d => some (loadAccess .load o q p z a d)
  | .ldFe o q p z a d => some (loadAccess .loadFe o q p z a d)
  | .ldFec o q p z a d => some (loadAccess .loadFec o q p z a d)
  | .st o q p z a d => some (storeAccess .store o q p z a d)
  | .stFe o q p z a d => some (storeAccess .storeFe o q p z a d)
  | .atomAdd t p b a d => some (atomicAccess 0 (.I t) p b a (some d))
  | .atomMin t p b a d => some (atomicAccess 1 (.I t) p b a (some d))
  | .atomMax t p b a d => some (atomicAccess 2 (.I t) p b a (some d))
  | .atomAnd t p b a d => some (atomicAccess 3 (.I t) p b a (some d))
  | .atomOr t p b a d => some (atomicAccess 4 (.I t) p b a (some d))
  | .atomXor t p b a d => some (atomicAccess 5 (.I t) p b a (some d))
  | .atomExch t p b a d => some (atomicAccess 6 (.I t) p b a (some d))
  | .atomCas t p b a d => some (atomicAccess 7 (.I t) p b a (some d))
  | .redAdd t p b a => some (atomicAccess 0 (.I t) p b a none)
  | .redMin t p b a => some (atomicAccess 1 (.I t) p b a none)
  | .redMax t p b a => some (atomicAccess 2 (.I t) p b a none)
  | .redAnd t p b a => some (atomicAccess 3 (.I t) p b a none)
  | .redOr t p b a => some (atomicAccess 4 (.I t) p b a none)
  | .redXor t p b a => some (atomicAccess 5 (.I t) p b a none)
  | .fatomAdd t p b a d => some (atomicAccess 0 (.F t) p b a (some d))
  | .fatomMin t p b a d => some (atomicAccess 1 (.F t) p b a (some d))
  | .fatomMax t p b a d => some (atomicAccess 2 (.F t) p b a (some d))
  | .fredAdd t p b a => some (atomicAccess 0 (.F t) p b a none)
  | .fredMin t p b a => some (atomicAccess 1 (.F t) p b a none)
  | .fredMax t p b a => some (atomicAccess 2 (.F t) p b a none)
  | .acq a => some (word .atomic a)
  | .rel a => some (word .store a)
  | _ => none

/-- Whether an a-slice instruction stalls on a held access that it overlaps (R106), and so is not ready (R188). -/
def State.overlapStall (s : State) (g : GangId) (i : Instr) : Bool :=
  match accessOf i with
  | none => false
  | some f => let a := f s g; s.mustWait { a with lanes := (s.translateLanes g a.ctx a.space a.lanes).2 }

end Sys2Proof.Machine
end

