-- ==== Sys2Proof/Machine/Trap.lean ====
section
/-! DEFINITION. Taking an exception (R121 to R127, R204, R205, R479): the stop of the other slice, delivery, kill, and the
entry of a first touch; and the return from them (R125, R180). The controller's are in `Controller`. -/

namespace Sys2Proof.Machine

/-! ## The other slice (R121) -/

/-- The instruction that a unit would issue next, if its program counter is mapped and it decodes. -/
def State.peek (s : State) (u : UnitId) : Option Instr :=
  match s.fetch u with
  | none => none
  | some (t, w) =>
    match decode u.kind (t.mode u) w with
    | .ok i => some i
    | .error _ => none

/-- What holds a unit's next instruction, when that is a queue between the slices, `gsync` or the region rendezvous. -/
def State.queueStall (s : State) (u : UnitId) : Option Stall :=
  match u with
  | .m _ => none
  | _ =>
    let x := s.gangOf u
    let waits : Option Stall :=
      match u with
      | .a _ => if x.gsA.isSome then some .gsync else if x.regionWait then some .region
                else if !x.dqNext.isEmpty then some .slip else none
      | _ => if x.gsC.isSome then some .gsync else none
    match waits with
    | some w => some w
    | none =>
      if !s.runnable u then none
      else
        match s.peek u with
        | none => none
        | some i =>
          if s.illegal u i then none
          else match stallOf s u i with
          | some .other => none
          | st => st

/-- Whether a slice has stopped for the delivery of the other's trap (R121): it has raised its own, it has been stopped by
the bound, it is stalled on a queue, or it has ended or has no fragment running. -/
def State.stoppedFor (s : State) (g : GangId) (a : Bool) : Bool :=
  let x := s.gang g
  if a then x.stopA || x.aEnd || x.cur.isNone || (s.queueStall (.a g)).isSome
  else x.stopC || x.cEnd || (s.queueStall (.c g)).isSome

/-- `OTHER_SLICE_STOP_BOUND` (R121): After a trap the other slice stops at its 256th issued instruction, and the record notes
it. -/
def execOtherSliceStopBound (g : GangId) (s : State) : Out :=
  let x := s.gang g
  if x.since < 256 then .next s
  else if x.trapA.isSome && !x.stopC then .next (s.setGang g { x with stopC := true, bound := true })
  else if x.trapC.isSome && !x.stopA then .next (s.setGang g { x with stopA := true, bound := true })
  else .next s

/-! ## Kill (R124) -/

/-- Bytes of a trap record (R123). -/
def TrapRec.bytes (r : TrapRec) : List Byte := bytesOfNum r.toNat 64

/-- A launch that has lost a gang or a controller for the first time keeps the record (R388, code 4). -/
def State.noteKill (s : State) (p l : Nat) (bs : List Byte) : State :=
  match tfind l (s.pkg p).launches with
  | none => s
  | some x =>
    if x.code = 0 then s.modPkg p fun y => { y with launches := tset l { x with code := 4, trap := bs } y.launches } else s

/-- A gang that is killed: every lane ends, both slices end, and what it holds is discarded; accesses that are sent are
still acknowledged (R124, R132). -/
def Gang.killed (x : Gang) : Gang :=
  { x with
    live := 0, cur := none, frags := [], joins := [], cfrags := [], cjoins := [], orphans := [], monitors := []
    lq := [], sq := [], fq := [], dq := [], dqNext := [], hold := [], replay := none, sreplay := none, wait := none, region := none
    aEnd := true, cEnd := true, stopA := false, stopC := false, trapA := none, trapC := none, gsA := none, gsC := none
    regionWait := false, mode := .user, entry := .none, bound := false }

/-- Accesses of a gang that wait on full-empty bits are withdrawn, and queues forget it (R212, R343). -/
def State.withdraw (s : State) (g : GangId) : State :=
  { s.leaveQueues g with flight := s.flight.filter fun a => !(a.gang == g && a.unserved) }

/-- The crew of a gang marked as killed. -/
def State.noteCrew (s : State) (g : GangId) : State :=
  let x := s.gang g
  match tfind x.launch (s.pkg g.pkg).launches with
  | none => s
  | some l =>
    let ws := l.crews.map fun w => if w.entry = x.crew then { w with killed := true } else w
    s.modPkg g.pkg fun y => { y with launches := tset x.launch { l with crews := ws } y.launches }

/-- A gang killed, with the record that the runtime receives (R124). -/
def State.killGang (s : State) (g : GangId) (bs : List Byte) : State :=
  (((s.noteKill g.pkg (s.gang g).launch bs).noteCrew g).withdraw g).modGang g fun x => x.killed

/-! ## Delivery (R204, R479) -/

/-- The trap record of a trap that is delivered (R123). -/
def Gang.recordFor (x : Gang) (r : Raised) (slice : Bool) : TrapRec :=
  { cause := r.cause, detail := r.detail, info := r.info, lanes := r.lanes, skip := r.skip, kill := 0, len := r.len
    apc := if x.cur.isSome then x.apc.zeroExtend 64 else 0
    cpc := x.cpc.zeroExtend 64
    frag := if slice then x.ccur else x.cur.getD 0
    region := x.region.isSome, chk := x.checked, bound := x.bound, slice := slice }

/-- The causes that go to the runtime (R124). -/
def runtimeCause (c : Nat) : Bool := c == 10 || c == 11 || c == 14 || c == 15 || c == 16

/-- The running fragment's `%exm` saved in its entry (step 3 of R204); with no fragment running nothing is saved (R479). -/
def Gang.saveExm (x : Gang) : Gang :=
  match x.cur with
  | some e => x.setFrag e { x.frag e with aexm := x.exmA }
  | none => x

/-- Both slices stopped where they stand: a wait at `gsync` or at `region` is given up, unretired (R181). -/
def Gang.cancelWaits (x : Gang) : Gang :=
  { x with
    gsA := none, gsC := none, trapA := none, trapC := none, stopA := false, stopC := true, since := 0, bound := false
    regionWait := false
    dq := if x.regionWait then x.dq.filter fun r => r.kind != 7 else x.dq }

/-- Entering supervisor mode (step 4 of R204): the handler's lanes and address. -/
def Gang.enter (x : Gang) (lanes : Word) (addr : DWord) (e : Entry) : Gang :=
  { x.saveExm with mode := .supervisor, exmA := lanes, apc := addr.truncate 57 &&& ~~~1, entry := e }

/-- The vector table entry of a core (R203): its handler address if it is valid. -/
def Core.vector (x : Core) (n : Nat) : Option DWord :=
  let v := tget n 0 x.vectors
  if v.getLsbD 0 then some (v &&& ~~~1) else none

/-- Delivery of a trap, both slices having stopped (R204): to the handler, or to the runtime by a kill. -/
def State.deliver (s : State) (g : GangId) (r : Raised) (slice : Bool) : State :=
  let x := s.gang g
  let rc := x.recordFor r slice
  if x.mode != .user then s.killGang g { rc with cause := causeDouble }.bytes
  else if runtimeCause r.cause then s.killGang g rc.bytes
  else
    match (s.core g.coreId).vector r.cause with
    | none => s.killGang g rc.bytes
    | some v => s.setGang g ((({ x with record := rc } : Gang).cancelWaits).enter r.lanes v .trap)

/-- `TRAP_DELIVERY` (R204): Both slices having stopped, the trap record is written and the handler entered, or the gang is
killed. Every earlier instruction of the a-slice completes before a trap of its own is delivered (R120). A c-slice trap raised
while a handler runs is a double fault already, and nothing of the handler is waited for (R207). -/
def execTrapDelivery (g : GangId) (s : State) : Out :=
  let x := s.gang g
  let handler := x.mode != .user
  match x.trapA with
  | some r => if (handler || s.stoppedFor g false) && !s.valuesOut g then .next (s.deliver g r false) else .next s
  | none =>
    match x.trapC with
    | some r => if r.cause = causeDouble || s.stoppedFor g true then .next (s.deliver g r true) else .next s
    | none => .next s

/-- `QUEUE_DEADLOCK_TIMEOUT` (R127): Both slices stalled on each other for 1,024 cycles with no access outstanding raises cause
15. -/
def execQueueDeadlockTimeout (g : GangId) (s : State) : Out :=
  let x := s.gang g
  if x.lockedA < 1024 || x.lockedC < 1024 || s.accessOut g then .next s
  else
    match s.queueStall (.a g), s.queueStall (.c g) with
    | some st, some _ =>
      let detail := match st with
        | .pop q => q
        | .hold q => q + 1
        | .push l => 4 + l
        | .slip => 8
        | .gsync => 9
        | .region => 10
        | .other => 3
      .next ((s.raise (.a g) ⟨causeQueueDeadlock, detail, 0, s.active (.a g), false, 4⟩).modGang g fun x => { x with stopC := true })
    | _, _ => .next s

/-! ## First touch (R205) -/

/-- What an access is in a first-touch record or a fault-buffer record (R205, R352): load, store, atomic. -/
def accessClass (k : AccessKind) : Nat :=
  match k with
  | .load | .loadFe | .loadFec => 0
  | .store | .storeFe => 1
  | .atomic => 2

/-- The lanes of a held access that lack a translation. -/
def Held.missing (h : Held) : List LaneAccess := h.access.lanes.filter (·.pa.isNone)

/-- The first-touch entry of a gang for a page of `2 ^ lg` bytes (R205): the record, then entry 0 of the vector table; the double
fault of step 1 of R204 where a handler runs already; or the kill of its step 2 with the first-touch record in place of a trap
record. -/
def State.firstTouch (s : State) (g : GangId) (sup : Bool) (lg : Nat) : State :=
  let x := s.gang g
  match x.held sup with
  | none => s
  | some h =>
    let va := (h.missing.head?.map (·.ea)).getD 0
    let lanes := laneMask ((h.missing.filter fun l => l.ea / 2 ^ lg == va / 2 ^ lg).map (·.lane))
    let r : FirstTouch := { addr := BitVec.ofNat 64 va, lanes := lanes, kind := accessClass h.access.kind }
    let s := s.modGang g fun x => { x with ft := r }
    if x.mode != .user then s.killGang g (x.recordFor ⟨causeDouble, 0, r.addr, lanes, false, h.len⟩ false).bytes
    else
      match (s.core g.coreId).vector 0 with
      | none => s.killGang g (bytesOfNum r.toNat 64)
      | some v => s.modGang g fun x => x.enter lanes v .firstTouch

/-! ## The end of an entry (R125, R180, R205, R479) -/

/-- The lanes that a handler kills leave a held access too (R116). -/
def Held.drop (h : Held) (m : Word) : Held :=
  { h with access := { h.access with
      active := h.access.active &&& ~~~m
      lanes := h.access.lanes.filter fun l => !m.getLsbD l.lane
      got := h.access.got.filter fun l => !m.getLsbD l.lane } }

/-- Lanes killed by `rft` (R125). -/
def Gang.killLanes (x : Gang) (m : Word) : Gang := ({ x with replay := x.replay.map (·.drop m) } : Gang).kill (m &&& x.live)

/-- The `%exm` that the running fragment had before the entry (R204). -/
def Gang.reloadExm (x : Gang) : Gang :=
  match x.cur with
  | some e => { x with exmA := (x.frag e).aexm }
  | none => x

/-- The resumption of both slices after a trap (R125). A cause whose resumption is a replay ignores skip. -/
def Gang.resume (x : Gang) : Gang :=
  let r := x.record
  let past : BitVec 57 := BitVec.ofNat 57 r.len
  let skip := r.skip && r.cause != causeTranslation
  let x := { x.reloadExm with mode := .user, entry := .none, stopC := false }
  let x := if x.cur.isSome then { x with apc := r.apc.truncate 57 + (if skip && !r.slice then past else 0) } else x
  let x := { x with cpc := r.cpc.truncate 57 + (if skip && r.slice then past else 0) }
  (x.killLanes r.kill).select

/-- `rft` that ends a first-touch entry, but for the reissue (R205). -/
def Gang.resumeFirstTouch (x : Gang) : Gang :=
  let x := { x.reloadExm with mode := .user, entry := .none }
  match x.replay with
  | some h => { x with apc := h.pc }
  | none => x

end Sys2Proof.Machine
end

