-- ==== Sys2Proof/Machine/Miss.lean ====
section
/-! DEFINITION. Misses of the die TLB (R349 to R355): the fault-merge table, walks, first-touch entries, the die fault buffer,
and the reissue of held accesses. -/

namespace Sys2Proof.Machine

/-! ## Interrupts of the die (R396) -/

/-- The die fault interrupt, where it is enabled (R353). -/
def State.dieInterrupt (s : State) (d : DieId) : State := if (s.die d).ie then s.interrupt d.pkg d.die else s

/-! ## Who misses, and on what -/

/-- A miss: its context, address, and how a record names the access and the requester (R352). -/
structure MissInfo where
  ctx : Nat
  va : Nat
  acc : Nat
  req : Nat
  who : Nat
deriving DecidableEq, Repr

/-- The die of a requester. -/
def requesterDie (r : Requester) : DieId :=
  match r with
  | .gang g => g.dieId
  | .handler g => g.dieId
  | .tileFetch c => c.dieId
  | .engine d _ => d
  | .ctrl c => c.dieId

/-- What a requester misses on, if it does: of several lanes, the lowest address (R349). A record names an operation that no engine
runs, which its trigger has ended, as engine 0's (R352; log entry 15). -/
def State.missOf (s : State) (r : Requester) : Option MissInfo :=
  let logical (c : CluId) : Nat := ((s.die c.dieId).remapOf c.clu).logical
  let ofGang (g : GangId) (sup : Bool) : Option MissInfo :=
    match (s.gang g).held sup with
    | none => none
    | some h =>
      match h.missing with
      | [] => none
      | l :: ls => some ⟨h.access.ctx, ls.foldl (fun ea m => min ea m.ea) l.ea, accessClass h.access.kind, 0, logical g.cluId * 128 + g.core * 16 + g.slot⟩
  match r with
  | .gang g => ofGang g false
  | .handler g => ofGang g true
  | .tileFetch c =>
    let x := (s.clu c).ctl
    x.fetchMiss.map fun m => ⟨x.ctx, m.1, 3, 1, logical c⟩
  | .engine d e =>
    match (s.die d).engine e with
    | [] => none
    | o :: _ => o.miss.map fun m => ⟨o.ctx, m.1, m.2, 2, e % 4⟩
  | .ctrl c =>
    let x := (s.clu c).ctl
    x.miss.map fun m => ⟨x.ctx, m.1, m.2, 3, logical c⟩

/-- Whether a context's operations are stopped: it is being saved, or its package has stopped for its temperature (R341, R401). -/
def State.ctxStopped (s : State) (p ctx : Nat) : Bool := (s.pkg p).stopped || (s.pkg p).saving.any fun v => v.ctx == ctx

/-- Whether a pre-emption has stopped a requester, which then takes no merge entry (R212, R350). -/
def State.requesterStopped (s : State) (r : Requester) : Bool :=
  match r with
  | .gang g => (s.gang g).preempted
  | .handler g => (s.gang g).preempted
  | .tileFetch c => (s.clu c).ctl.preempted
  | .ctrl c => (s.clu c).ctl.preempted
  | .engine d e => ((s.die d).engine e).head?.any fun o => s.ctxStopped d.pkg o.ctx

/-- Whether a requester waits on a live merge entry. -/
def Die.waits (x : Die) (r : Requester) : Bool := x.merge.any fun p => p.2.waiters.contains r

/-! ## Reissue (R350) -/

/-- A held access issued again for the lanes that remain, which are checked and translated again (R256, R350): a load's values already
read are kept. It faults, completes, still lacks a page, or stays where it is behind an earlier access to its bytes (R106, R254); one that
only waits for its page issues again, and faults there. Lanes of a load that name one location take one value (R223). A user access that is
held for a handler or for a trap on its way is issued again by the `rft` (R351). -/
def State.reissueHeld (s : State) (g : GangId) (sup : Bool) : State :=
  let x := s.gang g
  match x.held sup with
  | none => s
  | some h =>
    if (!sup && x.mode != .user) || x.trapA.isSome || x.preempted then s
    else
      let rest := h.access.remaining
      let done := h.access.lanes.filter fun l => !rest.contains l
      match s.accessFault x.mode { h.access with lanes := rest } with
      | some r =>
        let s := s.modGang g fun x => x.setHeld sup none
        if h.redo then s else s.raise (.a g) { r with len := h.len }
      | none =>
        let (s, ls) := s.translateLanes g h.access.ctx h.access.space rest
        if ls.all (·.pa.isSome) then
          let a := { h.access with lanes := done ++ ls }
          if h.redo then s.modGang g fun x => x.setHeld sup none
          else if s.mustWait { a with lanes := ls } then s
          else
            let vs := ls.filterMap a.known
            (s.launchAccess { a with lanes := ls.filter fun l => (a.known l).isNone, got := a.got ++ vs }).modGang g fun x =>
              { x.setHeld sup none with apc := h.pc + BitVec.ofNat 57 h.len }
        else s.holdAccess { h with access := { h.access with lanes := done ++ ls } }

/-- The user access of a gang issued again. -/
def State.reissueGang (s : State) (g : GangId) : State := s.reissueHeld g false

/-- A waiter handed back for reissue (R350). -/
def State.reissue (s : State) (r : Requester) : State :=
  match r with
  | .gang g => s.reissueGang g
  | .handler g => s.reissueHeld g true
  | .tileFetch c => s.modCtl c fun x => { x with fetchMiss := none, state := if x.state = 2 then 1 else x.state }
  | .engine d e =>
    s.modDie d fun x =>
      match x.engine e with
      | [] => x
      | o :: rest => { x with engines := tset e ({ o with miss := none } :: rest) x.engines }
  | .ctrl c => s.modCtl c fun x => { x with miss := none }

/-- Several waiters handed back. -/
def State.reissueAll (s : State) : List Requester → State
  | [] => s
  | r :: rs => (s.reissue r).reissueAll rs

/-- A merge entry freed, its waiters handed back but for the first where a handler reissues its own (R206, R350). -/
def State.freeMerge (s : State) (d : DieId) (tag : Nat) (skipFirst : Bool) : State :=
  match tfind tag (s.die d).merge with
  | none => s
  | some m =>
    (s.modDie d fun x => { x with merge := tdel tag x.merge }).reissueAll (if skipFirst then m.waiters.drop 1 else m.waiters)

/-- Several merge entries freed. -/
def State.freeMerges (s : State) (d : DieId) (skipFirst : Bool) : List Nat → State
  | [] => s
  | t :: ts => (s.freeMerge d t skipFirst).freeMerges d skipFirst ts

/-- The tags of the merge entries that a test accepts, in ascending order. -/
def Die.mergeTags (x : Die) (f : Merge → Bool) : List Nat :=
  (List.range 512).filter fun t => match tfind t x.merge with
    | some m => f m
    | none => false

/-! ## The miss (R349) -/

/-- Whether an entry covers an address of a context (R349). -/
def Merge.covers (m : Merge) (ctx va : Nat) : Bool := m.ctx == ctx && va / 2 ^ m.lg == m.page / 2 ^ m.lg

/-- The missing lanes of a held access whose miss an entry holds: those of the page that the entry covers, and those whose pages have no
valid mapping. A lane whose page a walk finds only awaits its translation (R250). -/
def State.unmapped (s : State) (h : Held) (m : Merge) : List LaneAccess :=
  h.missing.filter fun l => m.covers h.access.ctx l.ea || match s.walk h.access.gang.pkg h.access.ctx l.ea with
    | .mapped _ => false
    | .miss _ _ _ => true

/-- Cause 8 for a gang waiter of a buffered or dropped entry (R351, R472): info is the address of its lowest missing lane, and lanes
are the missing ones of the page that the entry covers. -/
def State.translationFault (s : State) (m : Merge) (r : Requester) : State :=
  let ofGang (g : GangId) (sup : Bool) : State :=
    match (s.gang g).held sup with
    | none => s
    | some h =>
      let ls := s.unmapped h m
      let here := ls.filter fun l => m.covers h.access.ctx l.ea
      s.raise (.a g) ⟨causeTranslation, 0, BitVec.ofNat 64 ((ls.head?.map (·.ea)).getD 0), laneMask (here.map (·.lane)), false, 4⟩
  match r with
  | .gang g => ofGang g false
  | .handler g => ofGang g true
  | _ => s

/-- Cause 8 for every gang among some waiters. -/
def State.translationFaults (s : State) (m : Merge) : List Requester → State
  | [] => s
  | r :: rs => (s.translationFault m r).translationFaults m rs

/-- A miss at the die TLB (R349): it joins a live entry that covers it, or takes the lowest free one, or waits. A miss whose
page the TLBs have come to hold meanwhile is translated at once. -/
def State.takeMiss (s : State) (r : Requester) : State :=
  let d := requesterDie r
  let x := s.die d
  match s.missOf r with
  | none => s
  | some m =>
    if x.waits r || s.requesterStopped r then s
    else if x.tlb.any (fun e => e.covers m.ctx m.va) then s.reissue r
    else
      match x.mergeTags fun e => e.covers m.ctx m.va with
      | t :: _ =>
        match tfind t x.merge with
        | none => s
        | some e =>
          let s := s.modDie d fun x => { x with merge := tset t { e with waiters := e.waiters ++ [r] } x.merge }
          if e.state = .buffered || e.state = .dropped then s.translationFault e r else s
      | [] =>
        match (List.range 512).find? fun t => (tfind t x.merge).isNone with
        | none => s
        | some t =>
          let e : Merge := ⟨m.ctx, m.va / 2 ^ 13 * 2 ^ 13, 13, m.va, m.acc, .walking, [r], m.req, m.who⟩
          s.modDie d fun x => { x with merge := tset t e x.merge }

/-- `DIE_TLB_MISS` (R349): A miss at the die TLB joins or allocates a merge entry and starts a walk, or waits for a free entry. -/
def execDieTlbMiss (r : Requester) (s : State) : Out := .next (s.takeMiss r)

/-- `MERGE_ENTRY_WAIT_RETRY` (R349): A requester that found no free merge entry begins again when one is freed. -/
def execMergeEntryWaitRetry (r : Requester) (s : State) : Out := .next (s.takeMiss r)

/-! ## The end of a walk (R350 to R353) -/

/-- A miss that goes to the fault buffer, or is dropped because it is full (R350, R353). -/
def State.bufferMiss (s : State) (d : DieId) (tag lvl why : Nat) (m : Merge) : State :=
  let x := s.die d
  let fresh := why = 2 && !x.empty
  let s := s.modDie d fun x => { x with empty := x.empty || why = 2 }
  let s := if fresh then s.dieInterrupt d else s
  let s :=
    if x.fb.length < 2 ^ x.lg then
      let s := s.modDie d fun y =>
        { y with fb := y.fb ++ [⟨m.va, m.ctx, tag, lvl, m.acc, why, m.req, m.who⟩]
                 merge := tset tag { m with state := .buffered } y.merge }
      if x.fb.isEmpty then s.dieInterrupt d else s
    else
      let s := s.modDie d fun y =>
        { y with drops := (y.drops + 1) % 2 ^ 16, dropped := true, merge := tset tag { m with state := .dropped } y.merge }
      if x.dropped then s else s.dieInterrupt d
  s.translationFaults m m.waiters

/-- The gang that is the first waiter of an entry, where its core has vector entry 0 valid, and whether its access is its handler's
(R350). -/
def State.handlerOf (s : State) (m : Merge) : Option (GangId × Bool) :=
  let valid (g : GangId) (sup : Bool) : Option (GangId × Bool) :=
    if ((s.core g.coreId).vector 0).isSome then some (g, sup) else none
  match m.waiters with
  | .gang g :: _ => valid g false
  | .handler g :: _ => valid g true
  | _ => none

/-- A walk that ends (R350). -/
def State.endWalk (s : State) (d : DieId) (tag : Nat) (m : Merge) : State :=
  match s.walk d.pkg m.ctx m.va with
  | .mapped e => (s.fillDie d e).freeMerge d tag false
  | .miss lvl bad ft =>
    match ft with
    | none => s.bufferMiss d tag lvl (if bad then 1 else 0) m
    | some size =>
      let lg := pageLg size
      let m := { m with lg := lg, page := m.va / 2 ^ lg * 2 ^ lg }
      let pool := tget size [] (s.die d).pools
      match s.handlerOf m with
      | some (g, sup) =>
        if pool.isEmpty then s.bufferMiss d tag lvl 2 m
        else
          let s := (s.modDie d fun x => { x with merge := tset tag { m with state := .handler } x.merge }).firstTouch g sup lg
          if (s.gang g).entry = .firstTouch then s else s.freeMerge d tag true
      | none => s.bufferMiss d tag lvl (if pool.isEmpty then 2 else 0) m

/-- `PAGE_TABLE_WALK_END` (R350): A walk ends: it fills the TLB and reissues, hands the miss to the first-touch handler, or
buffers or drops it. -/
def execPageTableWalkEnd (d : DieId) (tag : Nat) (s : State) : Out :=
  match tfind tag (s.die d).merge with
  | none => .next s
  | some m => if m.state = .walking && !s.walkWaits d.pkg m.ctx m.va then .next (s.endWalk d tag m) else .next s

/-! ## `rft` of a gang (R125, R180, R205) -/

/-- The merge entry that a gang's first-touch handler serves. -/
def State.handledBy (s : State) (g : GangId) : List Nat :=
  (s.die g.dieId).mergeTags fun m => m.state = .handler && m.waiters.head? == some (.gang g)

/-- `rft` of a gang's a-slice: the entry in progress ends, and a held access whose miss nothing holds is issued again. -/
def State.gangReturn (s : State) (g : GangId) : State :=
  match (s.gang g).entry with
  | .none => s.raiseIllegal (.a g) 4 4
  | .trap =>
    let s := (s.modGang g fun x => x.resume).checkDeadlock g
    if (s.die g.dieId).waits (.gang g) then s else s.reissueGang g
  | .firstTouch =>
    let s := s.modGang g fun x => x.resumeFirstTouch
    (s.freeMerges g.dieId true (s.handledBy g)).reissueGang g

/-! ## The fault buffer (R354, R373, R374) -/

/-- `FBREAD` (R373): Remove the oldest fault-buffer record into four registers. -/
def execFbread (d : BitVec 6) (s : State) : Out :=
  issue (.fbread d) s fun s =>
    match s.cur with
    | .a g =>
      let x := s.die g.dieId
      let ones := 2 ^ 64 - 1
      let v : Nat := match x.fb with
        | [] => ones + ones * 2 ^ 64 + ones * 2 ^ 128 + ones * 2 ^ 192
        | r :: _ =>
          (r.who + r.req * 2 ^ 12 + r.why * 2 ^ 16 + r.acc * 2 ^ 20 + r.lvl * 2 ^ 22 + r.tag * 2 ^ 32 + r.ctx * 2 ^ 48)
            * 2 ^ 128 + r.va * 2 ^ 192
      let s := s.modDie g.dieId fun x => { x with fb := x.fb.drop 1 }
      let act := s.fragment s.cur
      .next (((List.range 4).foldl (fun s i => s.writeReg (.a g) .b64 (d.toNat + i) act fun _ => BitVec.ofNat 64 (wordOf v i)) s).advance
        (.fbread d))
    | _ => .next s

/-- `REPLAY` (R374): Free a buffered merge entry and reissue its waiters. -/
def execReplay (a : BitVec 6) (s : State) : Out :=
  issue (.replay a) s fun s =>
    match s.cur with
    | .a g =>
      if s.active s.cur = 0 then .next (s.advance (.replay a))
      else
        let tag := (leaderValue s s.cur .b64 a.toNat).toNat % 512
        let s := s.advance (.replay a)
        .next (match tfind tag (s.die g.dieId).merge with
          | some m => if m.state = .buffered then s.freeMerge g.dieId tag false else s
          | none => s)
    | _ => .next s

/-- `REPLAYALL` (R374): Free every buffered and dropped merge entry of the die. -/
def execReplayall (s : State) : Out :=
  issue .replayall s fun s =>
    match s.cur with
    | .a g =>
      let s := s.advance .replayall
      .next (s.freeMerges g.dieId false ((s.die g.dieId).mergeTags fun m => m.state = .buffered || m.state = .dropped))
    | _ => .next s

end Sys2Proof.Machine
end

