-- ==== Sys2Proof/Machine/Phaser.lean ====
section
/-! DEFINITION. The sluice network and phasers (R356, R433 to R441, R461 to R470): weirs, signals, completion, membership and
the phaser instructions. -/

namespace Sys2Proof.Machine

/-! ## The tree (R433) -/

/-- The weir above a weir; the pod root has none. -/
def parentWeir : WeirId → Option WeirId
  | .die d => some (.pkg d.pkg)
  | .pkg p => some (.pod 1 (p / 16))
  | .pod 1 n => some (.pod 2 (n / 16))
  | .pod 2 _ => some (.pod 3 0)
  | .pod _ _ => none

/-- A phaser entry of a package (R433). -/
def State.phaser (s : State) (p n : Nat) : Phaser := tget n {} (s.pkg p).phasers
/-- A phaser entry changed. -/
def State.modPhaser (s : State) (p n : Nat) (f : Phaser → Phaser) : State :=
  s.modPkg p fun x => { x with phasers := tset n (f (tget n {} x.phasers)) x.phasers }

/-- The entry of a phaser of pod level, from any package where it is enabled. -/
def State.anyPhaser (s : State) (n : Nat) : Option Phaser :=
  (s.pkgs.map fun p => tget n ({} : Phaser) p.2.phasers).find? fun x => x.en && x.level == 2

/-- The entry that a weir goes by: its package's, and for a pod weir any package's. -/
def State.entryAt (s : State) (w : WeirId) (n : Nat) : Phaser :=
  match w with
  | .die d => s.phaser d.pkg n
  | .pkg p => s.phaser p n
  | .pod _ _ => (s.anyPhaser n).getD {}

/-- The root weir of a phaser (R433). -/
def Phaser.root (x : Phaser) : WeirId :=
  if x.level = 0 then .die ⟨x.rpkg, x.rdie⟩ else if x.level = 1 then .pkg x.rpkg else .pod 3 0

/-- Whether an agent's die lies in the root's subtree (R435). -/
def Phaser.inside (x : Phaser) (d : DieId) : Bool :=
  if x.level = 0 then d == ⟨x.rpkg, x.rdie⟩ else if x.level = 1 then d.pkg == x.rpkg else true

/-- Whether two packages' entries of one number configure the same phaser: a context's, with one root. -/
def Phaser.same (x y : Phaser) : Bool := x.en && y.en && x.ctx == y.ctx && x.root == y.root

/-- What a weir holds of a phaser. -/
def State.weir (s : State) (w : WeirId) (n : Nat) : Weir := tget (w, n) {} s.weirs
/-- What a weir holds of a phaser, changed. -/
def State.modWeir (s : State) (w : WeirId) (n : Nat) (f : Weir → Weir) : State :=
  { s with weirs := tset (w, n) (f (s.weir w n)) s.weirs }

/-- A message sent. -/
def State.send (s : State) (m : Msg) : State := { s with msgs := s.msgs ++ [(s.nextId, m)], nextId := s.nextId + 1 }

/-! ## Agents -/

/-- The die of an agent. -/
def agentDie (u : UnitId) : DieId := (UnitClu u).dieId
/-- The registrations of an agent. -/
def State.regsOf (s : State) (u : UnitId) : List PhReg :=
  match u with
  | .a g => (s.gang g).regs
  | .c _ => []
  | .m c => (s.clu c).ctl.regs
/-- The registrations of an agent replaced. -/
def State.setRegs (s : State) (u : UnitId) (rs : List PhReg) : State :=
  match u with
  | .a g => s.modGang g fun x => { x with regs := rs }
  | .c _ => s
  | .m c => s.modCtl c fun x => { x with regs := rs }
/-- The held signals of an agent. -/
def State.heldOf (s : State) (u : UnitId) : List HeldSignal :=
  match u with
  | .a g => (s.gang g).heldSignals
  | .c _ => []
  | .m c => (s.clu c).ctl.heldSignals
/-- The held signals of an agent replaced. -/
def State.setHeld (s : State) (u : UnitId) (hs : List HeldSignal) : State :=
  match u with
  | .a g => s.modGang g fun x => { x with heldSignals := hs }
  | .c _ => s
  | .m c => s.modCtl c fun x => { x with heldSignals := hs }

/-- Every agent that State lists. -/
def State.agents (s : State) : List UnitId := s.gangs.map (fun p => .a p.1) ++ s.clus.map (fun p => .m p.1)

/-- The agent's own registration with a phaser. -/
def State.ownReg (s : State) (u : UnitId) (n : Nat) : Option PhReg := (s.regsOf u).find? fun r => r.phaser == n && r.role != 3
/-- Whether a registration signals, and whether it waits. -/
def PhReg.signals (r : PhReg) : Bool := r.role != 1
/-- Whether a registration waits. -/
def PhReg.waits (r : PhReg) : Bool := r.role == 1 || r.role == 2

/-- The finder identity of an agent (R439). -/
def State.identity (s : State) (u : UnitId) (proxy : Bool) : Word :=
  let c := UnitClu u
  let core := match u with
    | .a g => g.core * 2 ^ 19 + g.slot * 2 ^ 22
    | _ => 2 ^ 26
  BitVec.ofNat 32 (c.pkg + c.die * 2 ^ 10 + ((s.die c.dieId).remapOf c.clu).logical * 2 ^ 14 + core + bitNum proxy 27)

/-- Whether phase q is complete where phase p is pending (R434). -/
def phaseDone (p q : Word) : Bool := (p - 1 - q).toNat < 2 ^ 31

/-! ## Signals (R437, R464) -/

/-- A signal sent to the agent's die weir: it is held there until the phase before it is complete, and then arrives. -/
def State.toDieWeir (s : State) (u : UnitId) (h : HeldSignal) : State :=
  let d := agentDie u
  if phaseDone (s.weir (.die d) h.phaser).phase (h.phase - 1) then
    s.send (.arrival ⟨h.phaser, .die d, h.phase, h.bound, h.finder.map fun v => (v, s.identity u (h.proxy != 0)), h.proxy != 0, none, some u⟩)
  else s.setHeld u (s.heldOf u ++ [{ h with port := false }])

/-- The pending-byte counter of an agent; a controller has none (R464). -/
def State.pendingOf (s : State) (u : UnitId) : DWord :=
  match u with
  | .a g => (s.gang g).pending
  | _ => 0

/-- A signal of a registrant for its next phase (R464): a `.bnd` signal waits at the port for the pending-byte counter. -/
def State.signal (s : State) (u : UnitId) (r : PhReg) (bnd : Bool) (finder : Option DWord) : State :=
  let s := s.setRegs u ((s.regsOf u).map fun x =>
    if x.phaser == r.phaser && x.role == r.role && x.proxy == r.proxy then { x with next := x.next + 1 } else x)
  let h : HeldSignal := ⟨r.phaser, r.next, bnd, finder, bnd, r.proxy⟩
  if bnd && s.pendingOf u != 0 then s.setHeld u (s.heldOf u ++ [h]) else s.toDieWeir u { h with port := false }

/-- Held signals of an agent that can go on now, released (R437, R456): those at the port once the counter is zero, and
those at the die weir once the phase before is complete. -/
def State.releaseHeld (s : State) (u : UnitId) : List HeldSignal → State
  | [] => s
  | h :: hs =>
    let ready := if h.port then s.pendingOf u == 0 else phaseDone (s.weir (.die (agentDie u)) h.phaser).phase (h.phase - 1)
    let s := if ready then (s.setHeld u ((s.heldOf u).erase h)).toDieWeir u h else s
    s.releaseHeld u hs

/-- The backlog of a proxy: each completion beyond one phase of run-ahead waits its turn (R462). -/
def State.proxySignals (s : State) (u : UnitId) : List PhReg → State
  | [] => s
  | r :: rs =>
    let s := if r.role = 3 && r.backlog > 0 && !(s.heldOf u).any (fun h => h.phaser == r.phaser && h.proxy == r.proxy) then
        (s.setRegs u ((s.regsOf u).map fun x =>
          if x.phaser == r.phaser && x.proxy == r.proxy && x.role == 3 then { x with backlog := x.backlog - 1 } else x)).signal u r
          false none
      else s
    s.proxySignals u rs

/-- A completion counted on an object of a package: one signal of each of its proxies (R435, R462). -/
def State.countProxies (s : State) (p ctx : Nat) (h : DWord) : List UnitId → State
  | [] => s
  | u :: us =>
    let rs := s.regsOf u
    let s :=
      if (agentDie u).pkg = p && s.ctxOf u = ctx && rs.any (fun r => r.role == 3 && r.proxy == h) then
        let rs' := rs.map fun r => if r.role == 3 && r.proxy == h then { r with backlog := r.backlog + 1 } else r
        (s.setRegs u rs').proxySignals u rs'
      else s
    s.countProxies p ctx h us

/-! ## Waits (R465, R466, R462) -/

/-- A wait of a phaser that a completion or a failure may end (R465, R466, R469). One that engine operations signalled is a join
edge: what they wrote is seen whatever it is bound to (R232, R237). -/
def State.endPhWait (s : State) (u : UnitId) (n : Nat) : State :=
  let p := (agentDie u).pkg
  let x := s.phaser p n
  let pending := (s.weir (.die (agentDie u)) n).phase
  match s.waitOf u with
  | some (.phwait m q sent) =>
    if m != n then s
    else if x.failed then s.retire u
    else if phaseDone pending q && !(sent && (s.heldOf u).any fun h => h.phaser == n && h.proxy == 0) then
      let h : DWord := BitVec.ofNat 64 (n + 2 ^ 63)
      let s := s.acquire u h
      let ended := (s.weir x.root n).past.find? fun (e : PhaseEnd) => e.phase == q
      let s := match u with
        | .a g =>
          if ended.any (fun (e : PhaseEnd) => e.bound) then s.ambientAcquire g
          else if ended.any (fun (e : PhaseEnd) => e.engine && e.finder.isNone) then s.acquireBound g
          else s
        | _ => s
      s.retire u
    else s
  | some (.join m f) =>
    if m != n then s
    else if x.failed then s.retire u
    else
      match f with
      | some q => if phaseDone pending q then s.retire u else s
      | none => s
  | some (.leave m) => if m == n && x.failed then s.retire u else s
  | _ => s

/-- Every agent's signals and waits on a phaser looked at again. -/
def State.settlePhaser (s : State) (n : Nat) : List UnitId → State
  | [] => s
  | u :: us =>
    let s := if (s.heldOf u).isEmpty then s else s.releaseHeld u (s.heldOf u)
    let s := if (s.regsOf u).isEmpty then s else s.proxySignals u (s.regsOf u)
    (s.endPhWait u n).settlePhaser n us

/-! ## Completion (R436, R439) -/

/-- Whether a package holds a registrant of a phaser in an image whose launches have not been restored (R447). -/
def Pkg.savedRegistrant (x : Pkg) (n : Nat) : Bool :=
  (x.images ++ x.saving.toList).any fun v => v.launches.any (fun l => (tfind l.number x.launches).isSome)
    && (v.gangs.any (fun g => g.gang.regs.any fun r => r.phaser == n) || v.ctls.any fun c => c.ctl.regs.any fun r => r.phaser == n)

/-- Whether a package holds a registrant of a phaser, running or saved. -/
def State.registrantAt (s : State) (p n : Nat) : Bool :=
  (s.agents.any fun u => (agentDie u).pkg == p && (s.regsOf u).any fun r => r.phaser == n) || (s.pkg p).savedRegistrant n

/-- An entry that a completed phase has been broadcast to (R433). -/
def Phaser.told (x : Phaser) (e : PhaseEnd) : Phaser :=
  { x with
    done := e.phase, bnd := e.bound, fnd := e.finder.isSome
    fval := match e.finder with | some f => f.1 | none => 0
    fid := match e.finder with | some f => f.2 | none => 0 }

/-- The root ends the pending phase and broadcasts it to every weir and to the packages with a registrant (R436); a failure goes so
with failed set, to every package that has the phaser (R441). -/
def State.endPhase (s : State) (root : WeirId) (n : Nat) (x : Phaser) (failed : Bool) : State :=
  let w := s.weir root n
  let ended : PhaseEnd := ⟨w.phase, w.bound, w.finder, w.engine⟩
  let under (v : WeirId) : Bool := match v with
    | .die d => x.inside d && (s.phaser d.pkg n).same x
    | .pkg p => (x.level = 2 || (x.level = 1 && p = x.rpkg)) && (s.phaser p n).same x
    | .pod _ _ => x.level = 2
  let s := { s with weirs := s.weirs.map fun (e : (WeirId × Nat) × Weir) =>
      if e.1.2 = n && under e.1.1 then
        (e.1, { e.2 with
          sig := e.2.sigNext, arr := 0, phase := w.phase + 1, bound := false, finder := none, forwarded := false, engine := false
          past := if e.1.1 = root then ended :: e.2.past else [] })
      else e }
  let s := { s with pkgs := s.pkgs.map fun (p : Nat × Pkg) =>
      let e : Phaser := tget n {} p.2.phasers
      if !(e.same x) then p
      else
        let e := if s.registrantAt p.1 n then e.told ended else e
        (p.1, { p.2 with phasers := tset n { e with failed := e.failed || failed } p.2.phasers }) }
  s.settlePhaser n s.agents

/-- The root completes the pending phase (R436). -/
def State.completePhase (s : State) (root : WeirId) (n : Nat) (x : Phaser) : State := s.endPhase root n x false

/-- A weir whose arrivals equal its signallers forwards one arrival, or at an unheld root completes the phase (R436, R439). -/
def State.tryForward (s : State) (w : WeirId) (n : Nat) : State :=
  let x := s.entryAt w n
  let v := s.weir w n
  let full := v.sig != 0 && v.arr == v.sig
  if x.failed then s
  else if x.root = w then
    if !v.hold && (full || v.finder.isSome) then s.completePhase w n x else s
  else if full && !v.forwarded then
    match parentWeir w with
    | some p =>
      (s.modWeir w n fun v => { v with forwarded := true }).send (.arrival ⟨n, p, v.phase, v.bound, none, v.engine, some w, none⟩)
    | none => s
  else s

/-- An arrival taken at a weir (R436, R439): one for a completed phase or a failed phaser is discarded; a finder travels on to the
root at once, ahead of the arrival that counts. One for a phase whose arrival the weir has already forwarded is that of a registrant that
joined while hold was set: it goes up by itself, to the weir that counts it (R438, log entry 31). -/
def State.takeArrival (s : State) (a : Arrival) : State :=
  let v := s.weir a.weir a.phaser
  let isDie := match a.weir with | .die _ => true | _ => false
  let x := s.entryAt a.weir a.phaser
  if a.phase != v.phase || x.failed then s
  else
    let counts := isDie || a.finder.isNone
    let atRoot := decide (x.root = a.weir)
    let passes := counts && v.forwarded && !atRoot
    let s := s.modWeir a.weir a.phaser fun v =>
      { v with
        arr := if counts && !passes then v.arr + 1 else v.arr
        bound := v.bound || a.bound
        engine := v.engine || a.engine
        finder := if atRoot && v.finder.isNone then a.finder else v.finder }
    let s := match a.finder, parentWeir a.weir with
      | some f, some p => if atRoot then s else s.send (.arrival ⟨a.phaser, p, a.phase, a.bound, some f, a.engine, some a.weir, none⟩)
      | _, _ => s
    match passes, parentWeir a.weir with
    | true, some p => s.send (.arrival ⟨a.phaser, p, a.phase, a.bound, none, a.engine, some a.weir, none⟩)
    | _, _ => s.tryForward a.weir a.phaser

/-- Whether a message is on the link of a phaser to a weir from another, or from an agent: phasers of one parity share the weirs of a
fabric die (R433), and an agent's signals and changes of one phaser reach its die weir in order. -/
def Msg.onLink (m : Msg) (n : Nat) (w : WeirId) (source : Option WeirId) (u : Option UnitId) : Bool :=
  let same (k : Nat) (v : WeirId) (src : Option WeirId) (who : Option UnitId) : Bool :=
    v == w && src == source && (if source.isSome then k % 2 == n % 2 else k == n && who.isSome && who == u)
  match m with
  | .arrival a => same a.phaser a.weir a.source a.agent
  | .change c => !c.taken && same c.phaser c.weir c.source (some c.agent)
  | _ => false

/-- Whether an arrival is still behind another, or behind a change, on its link: a link delivers in order. -/
def State.linkBusy (s : State) (n : Nat) (a : Arrival) : Bool :=
  s.msgs.any fun m => decide (m.1 < n) && m.2.onLink a.phaser a.weir a.source a.agent

/-- Whether a change is still behind an arrival, or behind another change, on its link (R438). -/
def State.changeBusy (s : State) (n : Nat) (c : Change) : Bool :=
  !c.taken && s.msgs.any fun m => decide (m.1 < n) && m.2.onLink c.phaser c.weir c.source (some c.agent)

/-- `WEIR_ARRIVAL` (R436): An arrival reaches a weir; at equality it is forwarded upward, or at an unheld root the phase
completes and is broadcast. -/
def execWeirArrival (n : Nat) (weir : WeirId) (s : State) : Out :=
  match tfind n s.msgs with
  | some (.arrival a) =>
    if a.weir = weir && !s.linkBusy n a then .next (({ s with msgs := tdel n s.msgs } : State).takeArrival a) else .next s
  | _ => .next s

/-! ## Membership (R438) -/

/-- A change in the number of a weir's signallers, for the pending phase or the next, and what it means above it. A weir that has
held nothing of the phaser begins at the root's pending phase. One that has forwarded its arrival for the pending phase counts no more for
it: a joiner of that phase, while hold is set, is counted by the lowest weir above that has not (R438, log entry 31). -/
def State.addSignaller (s : State) (n : Nat) (root : WeirId) (now join : Bool) : WeirId → Nat → State
  | _, 0 => s
  | w, fuel + 1 =>
    let v := s.weir w n
    let phase := (s.weir root n).phase
    let step (k : Nat) : Nat := if join then k + 1 else k - 1
    let gone := now && v.forwarded && decide (w ≠ root)
    let s := s.modWeir w n fun v =>
      if gone then v else if now then { v with sig := step v.sig, phase } else { v with sigNext := step v.sigNext, phase }
    let was := if now then v.sig else v.sigNext
    let crossed := gone || if join then was = 0 else was = 1
    if w = root || !crossed then s
    else
      match parentWeir w with
      | some p => s.addSignaller n root now join p fuel
      | none => s

/-- A registration that the root takes (R438): it is counted from the pending phase or the next one. The acknowledgement brings the
last completed phase to the joiner's package, with all that its completion carried (R433, R462). -/
def State.takeJoin (s : State) (c : Change) : State :=
  let d := agentDie c.agent
  let x := s.phaser d.pkg c.phaser
  let root := x.root
  let v := s.weir root c.phaser
  let p := v.phase
  let now := v.sig = 0 || v.hold
  let f := if now then p else p + 1
  let s := s.modWeir (.die d) c.phaser fun w => { w with phase := p }
  let s := if c.role = 1 then s
    else
      let s := if now then s.addSignaller c.phaser root true true (.die d) 5 else s
      s.addSignaller c.phaser root false true (.die d) 5
  let s := s.setRegs c.agent (s.regsOf c.agent ++ [⟨c.phaser, c.role, f, c.proxy, 0⟩])
  let s := s.modPhaser d.pkg c.phaser fun e =>
    e.told ((v.past.find? fun z => z.phase == p - 1).getD ⟨p - 1, false, none, false⟩)
  match s.waitOf c.agent with
  | some (.join m none) =>
    if m = c.phaser then (s.setWait c.agent (some (.join m (some (f - 1))))).endPhWait c.agent c.phaser else s
  | _ => s

/-- What a registration that leaves takes out of the counts (R438): a signaller that has not signalled the pending phase leaves its
arrival for it. On a failed phaser nothing is counted (R469). -/
def State.uncount (s : State) (u : UnitId) (r : PhReg) : State :=
  let d := agentDie u
  let x := s.phaser d.pkg r.phaser
  let p := (s.weir (.die d) r.phaser).phase
  if !r.signals || x.failed then s
  else
    let s := s.addSignaller r.phaser x.root false false (.die d) 5
    if (r.next - p).toNat = 0 || (p - r.next).toNat < 2 ^ 31 then s.send (.arrival ⟨r.phaser, .die d, p, false, none, false, none, some u⟩) else s

/-- One registration that leaves (R438). -/
def State.leaveOne (s : State) (u : UnitId) (r : PhReg) : State := (s.setRegs u ((s.regsOf u).erase r)).uncount u r

/-- Several registrations that leave. -/
def State.leaveAll (s : State) (u : UnitId) : List PhReg → State
  | [] => s
  | r :: rs => (s.leaveOne u r).leaveAll u rs

/-- A leave that the root has taken (R438, R463): each registration of the agent goes, but one with a signal still held, which is
counted first; a leaving proxy has no turn after that one. -/
def State.takeLeave (s : State) (id : Nat) (c : Change) : State :=
  let mine := (s.regsOf c.agent).filter fun r => r.phaser == c.phaser
  let busy (r : PhReg) : Bool := (s.heldOf c.agent).any fun h => h.phaser == r.phaser && h.proxy == r.proxy
  let s := s.leaveAll c.agent (mine.filter fun r => !busy r)
  if mine.any busy then
    let s := s.setRegs c.agent ((s.regsOf c.agent).map fun r => if r.phaser == c.phaser then { r with backlog := 0 } else r)
    { s with msgs := tset id (.change { c with taken := true }) s.msgs }
  else
    let s : State := { s with msgs := tdel id s.msgs }
    match s.waitOf c.agent with
    | some (.leave m) => if m = c.phaser then s.retire c.agent else s
    | _ => s

/-- `PHASER_MEMBERSHIP_AT_ROOT` (R438): A join or leave travels up the tree, on each link behind what was sent there before it, and the
root takes it in its order among arrivals and acknowledges it down the path. A leave with a signal still held counts that signal first
(R463), and on a failed phaser nothing is registered or removed (R469). -/
def execPhaserMembershipAtRoot (n : Nat) (s : State) : Out :=
  match tfind n s.msgs with
  | some (.change c) =>
    let t : State := { s with msgs := tdel n s.msgs }
    let x := s.phaser (agentDie c.agent).pkg c.phaser
    if x.failed then .next t
    else if s.changeBusy n c then .next s
    else
      match (if x.root = c.weir then none else parentWeir c.weir) with
      | some w => .next (t.send (.change { c with weir := w, source := some c.weir }))
      | none => .next (if c.join then t.takeJoin c else s.takeLeave n c)
  | _ => .next s

/-- The weirs from one up to the top of the tree. -/
def weirsUp : Nat → WeirId → List WeirId
  | 0, w => [w]
  | n + 1, w => w :: (match parentWeir w with
    | some p => weirsUp n p
    | none => [])

/-- Whether an arrival of a phaser is on its way up from an agent's place (R438). -/
def State.arrivalDue (s : State) (u : UnitId) (n : Nat) : Bool :=
  let path := weirsUp 4 (.die (agentDie u))
  s.msgs.any fun m => match m.2 with
    | .arrival a => a.phaser == n && path.contains a.weir && (a.agent == some u || a.source.any path.contains)
    | _ => false

/-- Whether an agent that ends has still to wait with its leaves (R438, R463): a signal of it is held, or an arrival of one of its phasers
is on its way up before them. -/
def State.leaveWaits (s : State) (u : UnitId) : Bool :=
  !(s.heldOf u).isEmpty || (s.regsOf u).any fun r => s.arrivalDue u r.phaser

/-- Every registration of an agent leaves at its end (R438); a change of it that is on its way has no more to do. -/
def State.endRegistrations (s : State) (u : UnitId) : State :=
  let s : State := { s with msgs := s.msgs.filter fun m => match m.2 with
    | .change c => c.agent != u
    | _ => true }
  s.leaveAll u (s.regsOf u)

/-! ## Registrants in an image whose launch is stopped (R392, R438, R447) -/

/-- What the registrations of a saved agent do once its launch is stopped, from the place that it was saved at: held signals that can go
arrive, and each registration with none held and no arrival before it leaves. The registrations and the signals that stay come with it. -/
def State.leaveSaved (s : State) (u : UnitId) (rs : List PhReg) (hs : List HeldSignal) : State × List PhReg × List HeldSignal :=
  let ready (h : HeldSignal) : Bool := phaseDone (s.weir (.die (agentDie u)) h.phaser).phase (h.phase - 1)
  let t := (hs.filter ready).foldl (fun t h => t.toDieWeir u h) s
  let keep := hs.filter fun h => !ready h
  let stays (r : PhReg) : Bool := keep.any (fun h => h.phaser == r.phaser && h.proxy == r.proxy) || t.arrivalDue u r.phaser
  ((rs.filter fun r => !stays r).foldl (fun t r => t.uncount u r) t, rs.filter stays, keep)

/-- The slot that a gang of an image was saved in. -/
def Saved.slotOf (v : Saved) (x : SavedGang) : UnitId :=
  let w := ((v.launches.find? fun l => l.number == x.gang.launch).bind fun l => l.launch.crews.find? fun w => w.entry == x.crew).getD default
  .a (w.core.slot (w.slots.getD x.index 0))

/-- The gangs of an image, with those of a stopped launch leaving. -/
def State.leaveGangs (s : State) (v : Saved) (l : Nat) : List SavedGang → State × List SavedGang
  | [] => (s, [])
  | x :: xs =>
    let a := if x.gang.launch = l then s.leaveSaved (v.slotOf x) x.gang.regs x.gang.heldSignals else (s, x.gang.regs, x.gang.heldSignals)
    let r := a.1.leaveGangs v l xs
    (r.1, { x with gang := { x.gang with regs := a.2.1, heldSignals := a.2.2 } } :: r.2)

/-- The controllers of an image, with those of a stopped launch leaving. -/
def State.leaveCtls (s : State) (p l : Nat) : List SavedCtl → State × List SavedCtl
  | [] => (s, [])
  | x :: xs =>
    let u : UnitId := .m ⟨p, x.die, ((s.die ⟨p, x.die⟩).physical x.clu).getD 0⟩
    let a := if x.ctl.launch = l then s.leaveSaved u x.ctl.regs x.ctl.heldSignals else (s, x.ctl.regs, x.ctl.heldSignals)
    let r := a.1.leaveCtls p l xs
    (r.1, { x with ctl := { x.ctl with regs := a.2.1, heldSignals := a.2.2 } } :: r.2)

/-- The image that holds a launch of a package. -/
def Pkg.imageOf (x : Pkg) (l : Nat) : Option Saved := (x.images ++ x.saving.toList).find? fun v => v.launches.any fun y => y.number == l

/-- Whether a launch of a package has registrations in an image. -/
def State.savedLeft (s : State) (p l : Nat) : Bool :=
  ((s.pkg p).imageOf l).any fun v => v.gangs.any (fun g => g.gang.launch == l && !g.gang.regs.isEmpty)
    || v.ctls.any fun c => c.ctl.launch == l && !c.ctl.regs.isEmpty

/-- The registrations that a stopped launch of a package has in an image leave (R392, R438). -/
def State.leaveImage (s : State) (p l : Nat) : State :=
  match (s.pkg p).imageOf l with
  | none => s
  | some v =>
    let g := s.leaveGangs v l v.gangs
    let c := g.1.leaveCtls p l v.ctls
    let put (y : Saved) : Saved := if y.id = v.id then { y with gangs := g.2, ctls := c.2 } else y
    c.1.modPkg p fun x => { x with images := x.images.map put, saving := x.saving.map put }

/-! ## The phaser instructions (R461 to R468) -/

/-- The check of a phaser handle (detail 35). -/
def State.phaserBad (s : State) (u : UnitId) (h : DWord) : Bool :=
  let x := s.phaser (agentDie u).pkg (handleName h)
  handleKind h != 2 || h.extractLsb' 57 5 != 0 || h.extractLsb' 12 45 != 0 || !x.en || x.level = 3 || x.ctx != s.ctxOf u

/-- A phaser instruction: read in the leader lane, checked, and without effect on a failed phaser (R449, R450, R469). -/
def phaserOp (i : Instr) (a : BitVec 6) (role : State → UnitId → Nat → Option (Nat × DWord)) (s : State)
    (k : State → UnitId → DWord → Nat → Out) : Out :=
  issue i s fun t =>
    let u := t.cur
    if t.active u = 0 then .next (t.advance i)
    else
      let h := leaderValue t u .b64 a.toNat
      let n := handleName h
      if (match role t u n with | some (23, _) => false | _ => true) && t.phaserBad u h then .next (t.raiseAt u causeMemory 35 h)
      else
        match role t u n with
        | some (detail, info) => .next (t.raiseAt u causeMemory detail (if detail = 36 then h else info))
        | none => if (t.phaser (agentDie u).pkg n).failed then .next (t.advance i) else k t u h n

/-- Whether an agent may signal (detail 36), or wait, or find. -/
def roleFault (signal wait any : Bool) (s : State) (u : UnitId) (n : Nat) : Option (Nat × DWord) :=
  let r := s.ownReg u n
  let bad := (signal && !r.any (·.signals)) || (wait && !r.any (·.waits)) || (any && !(s.phaser (agentDie u).pkg n).anyof)
  if bad && !(s.phaser (agentDie u).pkg n).failed then some (36, 0) else none

/-- The faults of `phjoin` (details 23 and 36): the handle of a proxy's object is checked as R361 has it. -/
def joinFault (b : DWord) (s : State) (u : UnitId) (n : Nat) : Option (Nat × DWord) :=
  let bad := b.toNat > 2 && match s.reachObject u b .load with
    | .fault _ => true
    | _ => false
  if bad then some (23, b)
  else if (s.phaser (agentDie u).pkg n).failed then none
  else if (b.toNat ≤ 2 && (s.ownReg u n).isSome)
      || (b.toNat > 2 && (s.regsOf u).any fun r => r.phaser == n && r.role == 3 && r.proxy == b) || (s.regsOf u).length ≥ 8 then some (36, 0)
  else none

/-- `PHJOIN` (R462): Register the agent or a proxy with a phaser. The object of a proxy is translated first, as R250 has it. -/
def execPhjoin (b : BitVec 6) (a : BitVec 6) (s : State) : Out :=
  let v := leaderValue s s.cur .b64 b.toNat
  phaserOp (.phjoin b a) a (joinFault v) s fun t u _ n =>
    if !(t.phaser (agentDie u).pkg n).inside (agentDie u) then .next (t.advance (.phjoin b a))
    else
      let join (t : State) (role : Nat) (proxy : DWord) : Out :=
        .next ((t.send (.change ⟨n, u, true, role, proxy, false, .die (agentDie u), none⟩)).setWait u (some (.join n none)))
      if v.toNat ≤ 2 then join t v.toNat 0
      else
        match t.reachObject u v .load with
        | .fault r => .next (t.raise u r)
        | .wait => .next s
        | .held t => .next t
        | .go t _ => join t 3 v

/-- Whether a release of a phaser must wait for earlier accesses of the agent (R464, R463). A controller's waits for the anvil
instructions that it has issued, since a phaser wait that its signal completes joins them (R306). -/
def State.releaseWaits (s : State) (u : UnitId) (h : DWord) : Bool :=
  match u with
  | .a g => s.boundBusy g h
  | .c _ => false
  | .m c => !(s.clu c).ctl.queue.isEmpty

/-- `PHLEAVE` (R463): Leave a phaser. -/
def execPhleave (a : BitVec 6) (s : State) : Out :=
  phaserOp (.phleave a) a (fun _ _ _ => none) s fun t u h n =>
    let rs := (t.regsOf u).filter fun r => r.phaser == n
    if rs.isEmpty then .next (t.advance (.phleave a))
    else if rs.any (·.signals) && t.releaseWaits u h then .next s
    else .next ((t.send (.change ⟨n, u, false, 0, 0, false, .die (agentDie u), none⟩)).setWait u (some (.leave n)))

/-- Whether a `.bnd` signal must wait for accesses of the agent that are not fabric writes: what came before it is seen after a bound
wait, whatever its binding (R234, R235). -/
def State.boundWaits (s : State) (u : UnitId) (bnd : Bool) : Bool :=
  bnd && (match u with
    | .a g => s.busy g
    | _ => false)

/-- Whether a signal of an agent stalls (R464): while one of its own is held, or its release waits. -/
def State.signalStalls (s : State) (u : UnitId) (h : DWord) (n : Nat) (bnd : Bool) : Bool :=
  (s.heldOf u).any (fun x => x.phaser == n && x.proxy == 0) || s.releaseWaits u h || s.boundWaits u bnd

/-- The signal of an instruction (R464), where it does not stall. -/
def State.signalBy (s t : State) (u : UnitId) (h : DWord) (n : Nat) (bnd : Bool) (finder : Option DWord) (k : State → State) : Out :=
  if t.signalStalls u h n bnd then .next s
  else
    match t.ownReg u n with
    | none => .next s
    | some r => .next (k (t.signal u r bnd finder))

/-- `PHSIG` (R464): Signal the next phase. -/
def execPhsig (a : BitVec 6) (s : State) : Out :=
  phaserOp (.phsig a) a (roleFault true false false) s fun t u h n =>
    s.signalBy t u h n false none fun t => t.advance (.phsig a)

/-- `PHSIG_BND` (R464): Signal held until the pending-byte counter is zero, with the bound flag. -/
def execPhsigBnd (a : BitVec 6) (s : State) : Out :=
  phaserOp (.phsigBnd a) a (roleFault true false false) s fun t u h n =>
    s.signalBy t u h n true none fun t => t.advance (.phsigBnd a)

/-- `PHWAIT` (R465): Wait until a phase is complete. -/
def execPhwait (b : BitVec 6) (a : BitVec 6) (s : State) : Out :=
  let q : Word := (leaderValue s s.cur .b64 b.toNat).truncate 32
  phaserOp (.phwait b a) a (roleFault false true false) s fun t u _ n =>
    .next ((t.setWait u (some (.phwait n q false))).endPhWait u n)

/-- `PHSW` (R466): Signal and wait in one instruction. -/
def execPhsw (b : BitVec 6) (a : BitVec 6) (s : State) : Out :=
  let q : Word := (leaderValue s s.cur .b64 b.toNat).truncate 32
  phaserOp (.phsw b a) a (roleFault true true false) s fun t u h n =>
    s.signalBy t u h n false none fun t => (t.setWait u (some (.phwait n q true))).endPhWait u n

/-- `PHSW_BND` (R466): Bound signal and wait in one instruction. -/
def execPhswBnd (b : BitVec 6) (a : BitVec 6) (s : State) : Out :=
  let q : Word := (leaderValue s s.cur .b64 b.toNat).truncate 32
  phaserOp (.phswBnd b a) a (roleFault true true false) s fun t u h n =>
    s.signalBy t u h n true none fun t => (t.setWait u (some (.phwait n q true))).endPhWait u n

/-- `PHANY` (R467): Signal with a finder value on an any-of phaser. -/
def execPhany (b : BitVec 6) (a : BitVec 6) (s : State) : Out :=
  let v := leaderValue s s.cur .b64 b.toNat
  phaserOp (.phany b a) a (roleFault true false true) s fun t u h n =>
    s.signalBy t u h n false (some v) fun t => t.advance (.phany b a)

/-- The second word of `phfind` (R468). -/
def findWord (x : Phaser) (reg : Bool) : DWord :=
  BitVec.ofNat 64 (x.done.toNat + (x.fid.toNat % 2 ^ 28) * 2 ^ 32 + bitNum x.fnd 60 + bitNum x.bnd 61 + bitNum x.failed 62
    + bitNum reg 63)

/-- `PHFIND` (R468): Read the phaser entry and the agent's registration. -/
def execPhfind (a : BitVec 6) (d : BitVec 6) (s : State) : Out :=
  issue (.phfind a d) s fun t =>
    let u := t.cur
    if t.active u = 0 then .next (t.advance (.phfind a d))
    else
      let h := leaderValue t u .b64 a.toNat
      let n := handleName h
      if t.phaserBad u h then .next (t.raiseAt u causeMemory 35 h)
      else
        let x := t.phaser (agentDie u).pkg n
        let act := t.active u
        let t := t.writeReg u .b64 d.toNat act fun _ => if x.fnd then x.fval else 0
        let t := t.writeReg u .b64 (d.toNat + 1) act fun _ => findWord x ((t.regsOf u).any fun r => r.phaser == n)
        .next (t.advance (.phfind a d))

/-! ## Failure and enabling (R433, R441) -/

/-- The phaser that a package's entry names fails: a completion of the pending phase with failed set reaches every package of its
context, and waiters are released (R441). -/
def State.failPhaser (s : State) (p n : Nat) : State :=
  let x := s.phaser p n
  if !x.en || x.failed then s else s.endPhase x.root n x true

/-- `PHASER_FAIL` (R441): An uncorrectable error or a death fails a phaser, named by its number and a package that has it: waiters are
released with the failed status. -/
def execPhaserFail (n : Nat) (s : State) : Out := .next (s.failPhaser (n / 4096) (n % 4096))

/-- The handle of an instruction that signals or leaves a phaser, and its bound flag. -/
def signalHandle (i : Instr) : Option (BitVec 6 × Bool) :=
  match i with
  | .phsig a => some (a, false)
  | .phsigBnd a => some (a, true)
  | .phsw _ a => some (a, false)
  | .phswBnd _ a => some (a, true)
  | .phany _ a => some (a, false)
  | _ => none

/-- Whether the next instruction of an agent is stalled on a phaser before its signal, or as a leave before its release (R463, R464). -/
def State.stalledOn (s : State) (u : UnitId) (n : Nat) : Bool :=
  s.runnable u && s.active u != 0 &&
    match s.peek u with
    | none => false
    | some i =>
      let on (a : BitVec 6) (f : DWord → Bool) : Bool :=
        let h := leaderValue s u .b64 a.toNat
        handleName h == n && !s.phaserBad u h && f h
      (stallOf s u i).isNone && match i, signalHandle i with
        | .phleave a, _ => on a fun h => (s.regsOf u).any (fun r => r.phaser == n && r.signals) && s.releaseWaits u h
        | _, some (a, bnd) => on a fun h => (s.ownReg u n).any (·.signals) && s.signalStalls u h n bnd
        | _, none => false

/-- An agent's instruction that is stalled on a phaser released with the failed status (R433, R469). -/
def State.releaseStalled (s : State) (p n : Nat) : List UnitId → State
  | [] => s
  | u :: us =>
    let here := match s.waitOf u with
      | some (.phwait m _ _) => m == n
      | some (.join m _) => m == n
      | some (.leave m) => m == n
      | _ => s.stalledOn u n
    let s := if (agentDie u).pkg = p then
        let s := s.setRegs u ((s.regsOf u).filter fun r => r.phaser != n)
        let s := s.setHeld u ((s.heldOf u).filter fun h => h.phaser != n)
        if here then s.retire u else s
      else s
    s.releaseStalled p n us

/-- What an agent of an image has of a phaser dropped (R433): a wait of it for a phase that it has signalled is released, as failed
(R469). -/
def Gang.dropPhaser (n : Nat) (x : Gang) : Gang :=
  let x := { x with regs := x.regs.filter fun r => r.phaser != n, heldSignals := x.heldSignals.filter fun h => h.phaser != n }
  match x.wait with
  | some (.phwait m _ _) => if m = n then { x with wait := none, apc := x.apc + 4 } else x
  | _ => x
/-- The same of a controller. -/
def Ctl.dropPhaser (n : Nat) (x : Ctl) : Ctl :=
  let x := { x with regs := x.regs.filter fun r => r.phaser != n, heldSignals := x.heldSignals.filter fun h => h.phaser != n }
  match x.wait with
  | some (.phwait m _ _) => if m = n then { x with wait := none, pc := x.pc + 4 } else x
  | _ => x
/-- The agents of the images of a package without a phaser that is disabled there. -/
def Pkg.dropPhaser (n : Nat) (x : Pkg) : Pkg :=
  let drop (v : Saved) : Saved :=
    { v with
      gangs := v.gangs.map fun g => { g with gang := g.gang.dropPhaser n }
      ctls := v.ctls.map fun c => { c with ctl := c.ctl.dropPhaser n } }
  { x with images := x.images.map drop, saving := x.saving.map drop }

/-- The weirs of a package (R433): its die weirs, its package weir, and the pod weirs that its fabric dies hold. -/
def weirOf (p : Nat) (w : WeirId) : Bool :=
  match w with
  | .die d => d.pkg = p
  | .pkg q => q = p
  | .pod l n => Config.podHost l n = p

/-- Whether enabling a phaser on a package starts a weir afresh (R433): a weir of the package, and a pod weir where no other package
has the phaser enabled. -/
def State.startsFresh (s : State) (p n : Nat) (w : WeirId) : Bool :=
  weirOf p w || match w with
    | .pod _ _ => s.pkgs.all fun q => q.1 == p || (let e : Phaser := tget n {} q.2.phasers; !(e.en && e.level == 2))
    | _ => false

/-- The root weir holds phases from completing, or lets go (R436, R476). -/
def State.holdRoot (s : State) (n : Nat) (x : Phaser) (hold : Bool) : State := s.modWeir x.root n fun v => { v with hold }

/-- A write of the low word of a phaser entry (R433): configuration while it is disabled, hold at any time, failed by a write of 1, which
clears what the bit reads and not the failure (R441), and the enabling and disabling themselves; the disabling reaches the context images of
the package. The enabling at the root's package gives
the root its hold, on any package where the root is a pod's (log entry 31), and a pending phase that this lets go completes at once; while the phaser is enabled hold takes effect at the root,
whichever package's entry was written (R476). -/
def State.writePhaserLow (s : State) (p n : Nat) (v : DWord) : State :=
  let x := s.phaser p n
  let bit (k : Nat) : Bool := v.getLsbD k
  let field (lo w : Nat) : Nat := v.toNat / 2 ^ lo % 2 ^ w
  let x := { x with cleared := x.cleared || (x.failed && bit 7), hold := bit 4 }
  if !x.en then
    let x := { x with ctx := field 48 16, rpkg := field 38 10, rdie := field 34 4, level := field 32 2, anyof := bit 5 }
    if bit 0 && x.level != 3 then
      let s := { s with
        weirs := s.weirs.filter fun e => !(e.1.2 == n && s.startsFresh p n e.1.1)
        weirLost := s.weirLost.filter fun e => !(e.1 == p && e.2.1 == n) }
      let atRoot := decide (x.level = 2 || x.rpkg = p)
      let s := if atRoot then s.holdRoot n x (bit 4) else s
      let s := s.modPhaser p n fun _ => { x with
        en := true, done := 0xFFFFFFFF, failed := false, cleared := false, fnd := false, bnd := false, fval := 0, fid := 0 }
      if atRoot then s.tryForward x.root n else s
    else s.modPhaser p n fun _ => x
  else if !bit 0 then
    let s := ((s.releaseStalled p n s.agents).modPkg p fun y => y.dropPhaser n).modPhaser p n fun _ => { x with en := false }
    { s with msgs := s.msgs.filter fun m => match m.2 with
        | .change c => !(c.phaser == n && (agentDie c.agent).pkg == p)
        | .arrival a => !(a.phaser == n && weirOf p a.weir)
        | _ => true }
  else
    ((s.modPhaser p n fun _ => x).holdRoot n x (bit 4)).tryForward x.root n

/-- `PHASER_ENTRY_EN_WRITE` (R433): Enabling a phaser zeroes its counts, and disabling it drops registrations and releases
stalled instructions as failed. -/
def execPhaserEntryEnWrite (p : Nat) (n : Nat) (v : DWord) (s : State) : Out := .next (s.writePhaserLow p n v)

/-- `PHASER_HOLD_WRITE` (R436): hold is set or cleared while the phaser is enabled, and clearing it lets the pending phase
complete. -/
def execPhaserHoldWrite (p : Nat) (n : Nat) (v : DWord) (s : State) : Out := .next (s.writePhaserLow p n v)

/-- `WEIR_STANDBY_TAKEOVER` (R441): A package weir whose counts are lost is replaced by its standby copy, or the phaser
fails. -/
def execWeirStandbyTakeover (p : Nat) (n : Nat) (s : State) : Out :=
  if !s.weirLost.contains (p, n, false) then .next s
  else if s.weirLost.contains (p, n, true) then .next (s.failPhaser p n)
  else .next { s with weirLost := s.weirLost.filter fun e => !(e.1 == p && e.2.1 == n && !e.2.2) }

end Sys2Proof.Machine
end

