-- ==== Sys2Proof/Machine/Copy.lean ====
section
/-! DEFINITION. The copy engines of a die (R332 to R341, R362 to R364): descriptors and their checks, the issue of copies,
completion objects and `cwait`. Running an operation is in `Perform`. -/

namespace Sys2Proof.Machine

/-! ## What an issue waits for (R237, R362) -/

/-- Whether an agent has writes that are not acknowledged, fabric writes included, or a full-empty load that its operation is to
read after (R235). -/
def State.unacked (s : State) (u : UnitId) : Bool :=
  match u with
  | .a g =>
    let x := s.gang g
    s.flight.any (fun a => a.gang == g && a.writeOut) || !x.hold.isEmpty || x.pending != 0
  | _ => false

/-- Whether a write that an agent had issued before some name was given is not acknowledged, one that waits for its page included, its
handler's as well (R237, R246). An instruction that issues again once it has its page has not issued (log entry 24). -/
def State.unackedBefore (s : State) (u : UnitId) (n : Nat) : Bool :=
  match u with
  | .a g =>
    let x := s.gang g
    let early (a : Access) : Bool := a.gang == g && decide (a.id < n) && a.writeOut
    s.flight.any early || x.hold.any early || (x.replay.toList ++ x.sreplay.toList).any (fun h => !h.redo && early h.access)
      || s.msgs.any (fun m => decide (m.1 < n) && match m.2 with
        | .remote r => r.gang == g && r.kind != .load
        | .batch b => b.gang == some g
        | _ => false)
      || s.headgates.any fun h => h.2.records.any fun r => r.writer == some g && decide (r.src < n)
  | _ => false

/-! ## Reading a descriptor (R334, R335) -/

/-- The lanes of an access that reads some pieces of sixteen bytes in one lane. -/
def pieceLanes (lane ea : Nat) (n : Nat) : List LaneAccess := (List.range n).map fun i => ⟨lane, ea + 16 * i, none, 0, 0⟩

/-- Pieces of sixteen bytes read by a controller, which has no L1: the first that cannot be read ends it. -/
def State.readPiecesM (s : State) (u : UnitId) (ea : Nat) : Nat → WordReach × List Byte × Bool
  | 0 => (.go s 0, [], false)
  | n + 1 =>
    match s.reachWord u 0 ea 16 .load .none with
    | .go t k =>
      if t.placeWaits k 16 then (.wait, [], false) else
      let (v, m) := t.readAt k 16
      let (r, bs, ms) := t.readPiecesM u (ea + 16) n
      (r, bytesOfNum v 16 ++ bs, m || ms)
    | r => (r, [], false)

/-- Pieces of sixteen bytes read as an ordinary load of the issuing agent: how the reach ended, the bytes and whether any is
marked. -/
def State.readPieces (s : State) (u : UnitId) (ea n : Nat) : WordReach × List Byte × Bool :=
  match u with
  | .a g =>
    let a := { blankAccess s g .load .g 16 0 .b64 .none with lanes := pieceLanes (s.leader u) ea n }
    match s.reach a (s.pc u) 4 true with
    | .fault r => (.fault { r with lanes := s.active u }, [], false)
    | .wait => (.wait, [], false)
    | .held t => (.held t, [], false)
    | .go t a =>
      if !a.lanes.all (t.readable a) then (.wait, [], false)
      else
        let (t, vs) := t.loadLanes a a.lanes
        (.go t 0, vs.foldl (fun bs v => bs ++ bytesOfNum v.val 16) [], vs.any (·.poison))
  | _ => s.readPiecesM u ea n

/-- A number of a descriptor. -/
def descNum (bs : List Byte) (off n : Nat) : Nat := numOf ((bs.drop off).take n)

/-- A 64-bit two's complement number. -/
def signed64 (v : Nat) : Int := (BitVec.ofNat 64 v).toInt

/-! ## Checks (R337, R361) -/

/-- The space of a descriptor's code; code 1 is illegal (R334). -/
def copySpace (c : Nat) : Option Space := if c = 0 then some .g else if c = 2 then some .cl else if c = 3 then some .d else none

/-- The allocation that an agent's `.cl` or `.d` names (R362). -/
def State.agentAlloc (s : State) (u : UnitId) (launch : Nat) (sp : Space) : Option Alloc :=
  let c := UnitClu u
  match sp with
  | .cl => findAlloc launch 0 (s.clu c).allocs
  | .d => findAlloc launch 0 (s.die c.dieId).allocs
  | _ => none

/-- Whether a range of addresses fits its space (R337). -/
def State.rangeFits (s : State) (u : UnitId) (launch : Nat) (sp : Space) (lo hi : Int) : Bool :=
  0 ≤ lo &&
    match sp with
    | .g => hi < 2 ^ 57
    | .c => false
    | _ =>
      match s.agentAlloc u launch sp with
      | some a => hi < (a.size : Int)
      | none => false

/-- The lowest and the highest byte address of one side (R337). -/
def spanOf (base size : Nat) (dims : List (Nat × Int)) : Int × Int :=
  let reach (f : Int → Int) : Int := dims.foldl (fun (x : Int) d => x + f (((d.1 : Int) - 1) * d.2)) base
  (reach fun x => min 0 x, reach (fun x => max 0 x) + size - 1)

/-- The source side of an operation's dimensions. -/
def CopyOp.srcDims (o : CopyOp) : List (Nat × Int) := o.dims.map fun d => (d.count, d.sstep)
/-- The destination side. -/
def CopyOp.dstDims (o : CopyOp) : List (Nat × Int) := o.dims.map fun d => (d.count, d.dstep)

/-- The lowest address of a range that lies outside its space (R361). -/
def State.lowestOut (s : State) (u : UnitId) (launch : Nat) (sp : Space) (lo : Int) : Int :=
  if lo < 0 then lo
  else
    match sp with
    | .g => max lo (2 ^ 57)
    | _ =>
      match s.agentAlloc u launch sp with
      | some a => max lo a.size
      | none => lo

/-- Detail 20: the lowest address that lies outside its space (R361); one below 0 is lower than every other (log entry 13). -/
def State.rangeFault (s : State) (o : CopyOp) : Option Int :=
  let src := spanOf o.sbase o.ssize o.srcDims
  let dst := spanOf o.dbase o.dsize o.dstDims
  let bad := (if s.rangeFits o.agent o.launch o.sspace src.1 src.2 then []
      else [s.lowestOut o.agent o.launch o.sspace src.1])
    ++ (if s.rangeFits o.agent o.launch o.dspace dst.1 dst.2 then []
      else [s.lowestOut o.agent o.launch o.dspace dst.1])
  match bad with
  | [] => none
  | x :: xs => some (xs.foldl min x)

/-- The misaligned values of one side (detail 21). -/
def misaligned (base size : Nat) (dims : List (Nat × Int)) : List Nat :=
  let b : Int := base
  let values : List Int := b :: (dims.filter fun d => 2 ≤ d.1).map fun d => b + d.2
  values.filterMap fun x => if x % (size : Int) = 0 then none else some (BitVec.ofInt 64 x).toNat

/-- The details 20 to 22 of an operation, the lowest first, with info. -/
def State.opFault (s : State) (o : CopyOp) (desc : DWord) : Option (Nat × DWord) :=
  match s.rangeFault o with
  | some x => some (20, BitVec.ofInt 64 x)
  | none =>
    match misaligned o.sbase o.ssize o.srcDims ++ misaligned o.dbase o.dsize o.dstDims with
    | x :: xs => some (21, BitVec.ofNat 64 (xs.foldl min x))
    | [] => if o.total > 2 ^ 48 then some (22, desc) else none

/-- The size in bytes of a format of R284's codes 0 to 5, with its type. -/
def copyFormat (c : Nat) : Option Ty :=
  match c with
  | 0 => some .bf16
  | 1 => some .f16
  | 2 => some .f32
  | 3 => some .f64
  | 4 => some .e4m3
  | 5 => some .e5m2
  | _ => none

/-- An operation with nothing of its own yet. -/
def blankOp (s : State) (u : UnitId) : CopyOp :=
  { id := s.nextId, agent := u, launch := (s.launchOf u).2, ctx := s.ctxOf u, sup := s.mode u != .user
    sspace := .g, dspace := .g, sbase := 0, dbase := 0, ssize := 1, dsize := 1, dims := [], cvt := none, handle := 0
    trig := 0, threshold := 0, done := 0, fault := false, miss := none }

/-- The operation of a copy descriptor (R334); none where a field breaks the table. -/
def linearOp (s : State) (u : UnitId) (bs : List Byte) (src dst : DWord) (armed : Bool) : Option (CopyOp × DWord) :=
  let len := descNum bs 0 8
  let ctl := descNum bs 8 8
  let trig := descNum bs 24 8
  if len = 0 || len ≥ 2 ^ 40 || ctl ≥ 16 || (trig != 0 && !armed) then none
  else
    match copySpace (ctl % 4), copySpace (ctl / 4) with
    | some x, some y =>
      some ({ blankOp s u with
        sspace := x, dspace := y, sbase := src.toNat, dbase := dst.toNat, dims := [⟨len, 1, 1⟩]
        handle := BitVec.ofNat 64 (descNum bs 16 8) }, BitVec.ofNat 64 trig)
    | _, _ => none

/-- The dimension `j` of a tensor descriptor (R335): none where it breaks the table, and no dimension beyond `ndim`. -/
def dimOf (bs : List Byte) (ndim j : Nat) : Option (List Dim) :=
  let o := 0x20 + 24 * j
  let c := descNum bs o 4
  if descNum bs (o + 4) 4 != 0 || (decide (c = 0) != decide (ndim ≤ j)) then none
  else if j < ndim then some [⟨c, signed64 (descNum bs (o + 8) 8), signed64 (descNum bs (o + 16) 8)⟩] else some []

/-- Several dimensions. -/
def dimsOf (bs : List Byte) (ndim : Nat) : List Nat → Option (List Dim)
  | [] => some []
  | j :: js =>
    match dimOf bs ndim j, dimsOf bs ndim js with
    | some x, some xs => some (x ++ xs)
    | _, _ => none

/-- The operation of a tensor descriptor (R335). -/
def tensorOp (s : State) (u : UnitId) (bs : List Byte) (h : DWord) : Option CopyOp :=
  let ndim := descNum bs 0x10 1
  let esz := descNum bs 0x11 1
  let spaces := descNum bs 0x12 1
  let fmt := descNum bs 0x13 1
  let cvt := descNum bs 0x14 1
  let size := 2 ^ esz
  if ndim = 0 || 14 < ndim || 4 < esz || spaces ≥ 16 || descNum bs 0x15 11 != 0 || cvt / 8 % 16 != 0 then none
  else
    let sizes : Option (Nat × Option (Nat × Nat × Nat)) :=
      if cvt / 128 = 0 then (if fmt = 0 && cvt = 0 then some (size, none) else none)
      else
        match copyFormat (fmt % 16), copyFormat (fmt / 16) with
        | some x, some y =>
          if x.bits / 8 = size && cvt % 8 ≤ 4 then some (y.bits / 8, some (fmt % 16, fmt / 16, cvt % 8)) else none
        | _, _ => none
    match copySpace (spaces % 4), copySpace (spaces / 4), sizes, dimsOf bs ndim (List.range 14) with
    | some x, some y, some (dsize, cv), some dims =>
      some { blankOp s u with
        sspace := x, dspace := y, sbase := descNum bs 0 8, dbase := descNum bs 8 8, ssize := size, dsize := dsize
        dims := dims, cvt := cv, handle := h }
    | _, _, _, _ => none

/-! ## Objects (R225, R333) -/

/-- An object that reads with an uncorrectable error written failed, which clears the poison (R333). -/
def State.failObject (s : State) (k : Nat) : State :=
  ({ s with marks := s.marks.filter fun m => !(granules k 8).contains m } : State).writeHome k (bytesOfNum (2 ^ 63) 8) false

/-- The word of an object evaluated at its home: one that reads with an uncorrectable error is written failed, and one where no
memory is reads zero (R333, R375). -/
def State.evalObject (s : State) (k : Nat) : State × Nat :=
  if !isHbm k then (s, (s.readAt k 8).1)
  else if s.markedAt k 8 then (s.failObject k, 2 ^ 63) else (s, s.readNum k 8)

/-! ## Issue (R362, R363) -/

/-- An operation entered into the operation queue or armed, and the instruction retired (R362 steps 3 and 4). -/
def State.issueOp (s : State) (i : Instr) (o : CopyOp) : State :=
  (({ s with nextId := s.nextId + 1 } : State).modDie (UnitClu o.agent).dieId fun x => x.enterOp o).advance i

/-- Operations assigned to the engines of a die (R332), those that the engines run included: an entry of the queue is free again when its
operation's completion is counted (the model's choice, log entry 15). -/
def Die.opCount (x : Die) : Nat := (List.range 4).foldl (fun n e => n + (x.engine e).length) 0

/-- An instruction whose operation is checked: its handle, then the queue (R361, R362). -/
def State.enqueueOp (s t : State) (i : Instr) (o : CopyOp) (desc : DWord) : Out :=
  let u := o.agent
  match t.opFault o desc with
  | some (d, info) => .next (t.raiseAt u causeMemory d info)
  | none =>
    let go (t : State) : Out := if (t.die (UnitClu u).dieId).opCount ≥ 64 then .next s else .next (t.issueOp i o)
    if o.handle = 0 then go t
    else
      match t.reachObject u o.handle .atomic with
      | .fault r => .next (t.raise u r)
      | .wait => .next s
      | .held t => .next t
      | .go t _ => go t

/-- The first address of a descriptor that cannot be an ordinary load of the agent, with its detail (R250): it is raised before the
descriptor's own alignment (R361). -/
def State.descFault (s : State) (u : UnitId) (ea n : Nat) : Option (Nat × Nat) :=
  let g : GangId := match u with
    | .a g => g
    | .c g => g
    | .m c => (c.core 0).slot 0
  let at? (x : Nat) : Option (Nat × Nat) :=
    if x ≥ 2 ^ 57 then some (6, x) else if s.forbids g (s.mode u) (s.ctxOf u) (true, false) x then some (4, x) else none
  ((List.range n).map (fun i => ea + 16 * i) ++ [ea + 16 * n - 1]).findSome? at?

/-- A copy instruction up to its descriptor's bytes: steps 1 and 2 of R362. -/
def copyStart (i : Instr) (pieces : Nat) (d : BitVec 6) (s : State) (k : State → UnitId → DWord → List Byte → Out) : Out :=
  issue i s fun t =>
    let u := t.cur
    if t.active u = 0 then .next (t.advance i)
    else if t.unacked u then .next s
    else
      let desc := leaderValue t u .b64 d.toNat
      if desc.toNat ≥ 2 ^ 57 then .next (t.raiseAt u causeMemory 6 desc)
      else if desc.toNat % (if pieces = 2 then 32 else 16) != 0 then
        match t.descFault u desc.toNat pieces with
        | some (n, x) => .next (t.raiseAt u causeMemory n (BitVec.ofNat 64 x))
        | none => .next (t.raiseAt u causeMemory 19 desc)
      else
        match t.readPieces u desc.toNat pieces with
        | (.fault r, _, _) => .next (t.raise u r)
        | (.wait, _, _) => .next s
        | (.held t, _, _) => .next t
        | (.go t _, bs, m) => if m then .next (t.consumePoison u) else k t u desc bs

/-- `COPY` (R362): Issue a linear copy operation. -/
def execCopy (b : BitVec 6) (a : BitVec 6) (d : BitVec 6) (s : State) : Out :=
  copyStart (.copy b a d) 2 d s fun t u desc bs =>
    match linearOp t u bs (leaderValue t u .b64 a.toNat) (leaderValue t u .b64 b.toNat) false with
    | none => .next (t.raiseAt u causeMemory 19 desc)
    | some (o, _) => s.enqueueOp t (.copy b a d) o desc

/-- `TCOPY` (R362): Issue a tensor copy operation. -/
def execTcopy (a : BitVec 6) (d : BitVec 6) (s : State) : Out :=
  copyStart (.tcopy a d) 23 d s fun t u desc bs =>
    match tensorOp t u bs (leaderValue t u .b64 a.toNat) with
    | none => .next (t.raiseAt u causeMemory 19 desc)
    | some o => s.enqueueOp t (.tcopy a d) o desc

/-- A `copyt` with its trigger's word: it stalls where its die holds 64 armed operations, and otherwise fires at issue or is armed (R339,
R362). -/
def State.armOp (s t : State) (i : Instr) (o : CopyOp) (k : Nat) : Out :=
  let d := (UnitClu o.agent).dieId
  let o := { o with trig := k }
  if (t.die d).armed.length ≥ 64 || t.placeWaits k 8 then .next s
  else
    let (t, w) := t.evalObject k
    match o.fire w with
    | some o =>
      if o.fault then
        .next ((({ t with nextId := t.nextId + 1 } : State).modDie d fun x => x.addOp endedList o).advance i)
      else if (t.die d).opCount ≥ 64 then .next s else .next (t.issueOp i o)
    | none => .next ((({ t with nextId := t.nextId + 1 } : State).modDie d fun x => { x with armed := x.armed ++ [o] }).advance i)

/-- `COPYT` (R363): Arm a copy on a trigger threshold. Of two handles that fail, the completion handle is reported (the model's choice, log
entry 15). -/
def execCopyt (b : BitVec 6) (a : BitVec 6) (d : BitVec 6) (s : State) : Out :=
  copyStart (.copyt b a d) 2 d s fun t u desc bs =>
    match linearOp t u bs (leaderValue t u .b64 a.toNat) (leaderValue t u .b64 b.toNat) true with
    | none => .next (t.raiseAt u causeMemory 19 desc)
    | some (o, trig) =>
      let o := { o with threshold := (leaderValue t u .b64 (d.toNat + 1)).toNat % 2 ^ 48, tva := handleName trig }
      match t.opFault o desc with
      | some (n, info) => .next (t.raiseAt u causeMemory n info)
      | none =>
        let arm (t : State) : Out :=
          match t.reachObject u trig .load with
          | .fault r => .next (t.raise u r)
          | .wait => .next s
          | .held t => .next t
          | .go t k => s.armOp t (.copyt b a d) o k
        if o.handle = 0 then arm t
        else
          match t.reachObject u o.handle .atomic with
          | .fault r => .next (t.raise u r)
          | .wait => .next s
          | .held t => .next t
          | .go t _ => arm t

/-! ## Completion (R333, R338) -/

/-- An operation that has ended leaves its engine. -/
def Die.dropOp (x : Die) (e : Nat) : Die := { x with engines := tset e ((x.engine e).drop 1) x.engines }

/-- One count of a completion object at its home (R333, R435): the count rises, fault is set by a faulted operation, and every
proxy of the object signals. -/
def State.countAt (s : State) (ctx : Nat) (h : DWord) (k : Nat) (fault : Bool) : State :=
  if !isHbm k then s
  else if s.markedAt k 8 then s.failObject k
  else
    let w := s.readNum k 8
    let f := if fault && w / 2 ^ 62 % 2 = 0 then 2 ^ 62 else 0
    (s.writeHome k (bytesOfNum (w / 2 ^ 48 * 2 ^ 48 + (w + 1) % 2 ^ 48 + f) 8) false).countProxies (keyPkg k) ctx h s.agents

/-- The count step of an ended operation at the home of its completion object (R333): it needs the page's read and write permission (the
model's choice, log entry 15). -/
def State.countStep (s : State) (d : DieId) (e : Nat) (o : CopyOp) : State :=
  let drop (s : State) : State := s.modDie d fun x => x.dropOp e
  let va := handleName o.handle
  if o.handle = 0 then drop s
  else
    match (s.die d).tlb.find? fun t => t.covers o.ctx va with
    | none => s.modDie d fun x => { x with engines := tset e ({ o with miss := some (va, 2) } :: (x.engine e).drop 1) x.engines }
    | some t =>
      if !t.permits (if o.sup then .supervisor else .user) (true, true) then drop s
      else
        let k := hbmKey d.pkg (t.pa va)
        if s.placeWaits k 8 then s
        else
          (drop s).countAt o.ctx o.handle k o.fault

/-- Whether an operation has nothing more to write (R338, R339). -/
def CopyOp.ended (o : CopyOp) : Bool := o.fault || o.total ≤ o.done

/-- Whether the first operation of a list of a die can be counted. -/
def State.countable (s : State) (d : DieId) (e : Nat) : Bool :=
  ((s.die d).engine e).head?.any fun o => o.ended && o.miss.isNone && !s.ctxStopped d.pkg o.ctx

/-- `COPY_OP_COMPLETE` (R333): With every write acknowledged, the engine raises the completion object's count. An operation that its
trigger ended is no engine's, and is counted where this engine has none (R339). -/
def execCopyOpComplete (d : DieId) (e : Nat) (s : State) : Out :=
  let e := if s.countable d e then e else endedList
  match (s.die d).engine e with
  | [] => .next s
  | o :: _ => if s.countable d e then .next (s.countStep d e o) else .next s

/-! ## `cwait` (R364) -/

/-- A `cwait` returns, which in a gang is an ambient acquire (R233, R364). -/
def State.endCwait (s : State) (u : UnitId) : State :=
  (match u with
    | .a g => s.ambientAcquire g
    | _ => s).retire u

/-- A waiting `cwait` evaluated: met or failed, it returns. -/
def State.tryCwait (s : State) (u : UnitId) (k : Nat) (h : DWord) (target : Nat) : State :=
  if s.placeWaits k 8 then s.setWait u (some (.cwait k h target))
  else
    let (s, w) := s.evalObject k
    if w / 2 ^ 63 % 2 = 1 || countMet w target then s.endCwait u
    else s.setWait u (some (.cwait k h target))

/-- `CWAIT` (R364): Wait until a completion count meets its target. -/
def execCwait (b : BitVec 6) (a : BitVec 6) (s : State) : Out :=
  issue (.cwait b a) s fun t =>
    let u := t.cur
    if t.active u = 0 then .next (t.advance (.cwait b a))
    else
      let h := leaderValue t u .b64 a.toNat
      let target := (leaderValue t u .b64 b.toNat).toNat % 2 ^ 48
      match t.reachObject u h .load with
      | .fault r => .next (t.raise u r)
      | .wait => .next s
      | .held t => .next t
      | .go t k => .next (t.tryCwait u k h target)

/-- `CWAIT_EVALUATE` (R364): A completion word is evaluated at its home, and a waiting cwait that now meets its target is
released. -/
def execCwaitEvaluate (u : UnitId) (s : State) : Out :=
  match s.waitOf u with
  | some (.cwait k h target) => .next (s.tryCwait u k h target)
  | some .counted => .next (s.endCwait u)
  | _ => .next s

end Sys2Proof.Machine
end

