-- ==== Sys2Proof/Machine/Queue.lean ====
section
/-! DEFINITION. The work queues of a die (R342 to R345, R365 to R369). -/

namespace Sys2Proof.Machine

/-! ## One queue -/

/-- A queue of a die changed. -/
def State.modQueue (s : State) (d : DieId) (n : Nat) (f : WQueue → WQueue) : State :=
  s.modDie d fun x => { x with queues := tset n (f (x.queue n)) x.queues }

/-- The cells of the queue reserve that items hold (R343). -/
def Die.cellsUsed (x : Die) : Nat := x.queues.foldl (fun n q => n + q.2.items.length) 0

/-- Whether a queue can take an item: it holds fewer than `cap`, and the reserve has a free cell (R343). -/
def Die.roomIn (x : Die) (n : Nat) : Bool := decide ((x.queue n).items.length < (x.queue n).cap) && decide (x.cellsUsed < x.qres * 1024)

/-- One lane of a dequeue written: its item and its status (R367). -/
def State.writeLane (s : State) (g : GangId) (d lane : Nat) (v : Val) (status : Nat) : State :=
  let m : Word := s.laneShare g d (laneMask [lane])
  (s.writeMarked (.a g) .b64 d m fun _ => v).writeReg (.a g) .b64 (d + 1) m fun _ => BitVec.ofNat 64 status

/-- The lanes of a dequeue that return no item: 0 and a status (R367). -/
def State.writeStatus (s : State) (g : GangId) (d : Nat) (m : Word) (status : Nat) : State :=
  let m := s.laneShare g d m
  (s.writeReg (.a g) .b64 d m fun _ => 0).writeReg (.a g) .b64 (d + 1) m fun _ => BitVec.ofNat 64 status

/-- A gang no longer waits at a queue. -/
def WQueue.forget (q : WQueue) (g : GangId) : WQueue := { q with deqs := q.deqs.filter (· != g), enqs := q.enqs.filter (· != g) }

/-- A gang's blocked queue instruction retires. -/
def State.retireQueue (s : State) (d : DieId) (n : Nat) (g : GangId) : State := (s.modQueue d n fun q => q.forget g).retire (.a g)

/-- Whether a gang waits to dequeue from a queue of its die. -/
def State.dequeues (s : State) (g : GangId) (n : Nat) : Bool :=
  match (s.gang g).wait with
  | some (.deq q _ _ _) => q == n
  | _ => false

/-- The items of a queue given to its dequeuers, in the order of both (R343). -/
def State.serve (s : State) (d : DieId) (n : Nat) : List (DWord × Bool) → State
  | [] => s
  | item :: rest =>
    match ((s.die d).queue n).deqs.find? fun g => s.dequeues g n with
    | none => s
    | some g =>
      match (s.gang g).wait with
      | some (.deq q lanes r dl) =>
        match lowestLane lanes with
        | none => s
        | some lane =>
          let left := lanes &&& ~~~laneMask [lane]
          let s := s.modQueue d n fun x => { x with items := rest }
          let s := s.writeLane g r lane ⟨item.1, item.2⟩ (if item.2 then 1 else 0)
          let s := if left = 0 then s.retireQueue d n g else s.setWait (.a g) (some (.deq q left r dl))
          s.serve d n rest
      | _ => s

/-- The lanes of an enqueue performed in ascending order while there is room; each item goes to a waiting dequeuer at once. -/
def State.pushLanes (s : State) (d : DieId) (n : Nat) (g : GangId) : List (Nat × Nat × Bool) → State
  | [] => s.retireQueue d n g
  | (lane, v, m) :: rest =>
    if (s.die d).roomIn n then
      let s := s.modQueue d n fun x => { x with items := x.items ++ [(BitVec.ofNat 64 v, m)] }
      (s.serve d n ((s.die d).queue n).items).pushLanes d n g rest
    else
      (s.modQueue d n fun x => if x.enqs.contains g then x else { x with enqs := x.enqs ++ [g] }).setWait (.a g)
        (some (.enq n ((lane, v, m) :: rest)))

/-! ## The instructions -/

/-- The check of a queue number (detail 24): the queue, or the trap. -/
def State.queueCheck (s : State) (g : GangId) (n : DWord) : Option WQueue :=
  let q := (s.die g.dieId).queue n.toNat
  if n.toNat > 255 || !q.en || q.ctx != (s.gang g).ctx then none else some q

/-- `ENQ` (R365): Enqueue one item per active lane. -/
def execEnq (b : BitVec 6) (a : BitVec 6) (s : State) : Out :=
  issue (.enq b a) s fun s =>
    match s.cur with
    | .a g =>
      let act := s.active s.cur
      if act = 0 then .next (s.advance (.enq b a))
      else
        let n := leaderValue s s.cur .b64 a.toNat
        match s.queueCheck g n with
        | none => .next (s.raiseAt s.cur causeMemory 24 n)
        | some q =>
          if q.failed then .next (s.advance (.enq b a))
          else
            let items := (lanesOf act).map fun l =>
              let v := s.readReg s.cur .b64 b.toNat l
              (l, v.bits.toNat, v.poison)
            .next (s.pushLanes g.dieId n.toNat g items)
    | _ => .next s

/-- A dequeue issued (R367, R368): it joins the dequeuers, takes what is there, and with a deadline already reached the other
lanes time out. -/
def dequeue (i : Instr) (a d : BitVec 6) (deadline : State → GangId → Option Nat) (s : State) : Out :=
  issue i s fun s =>
    match s.cur with
    | .a g =>
      let act := s.active s.cur
      if act = 0 then .next (s.advance i)
      else
        let n := leaderValue s s.cur .b64 a.toNat
        match s.queueCheck g n with
        | none => .next (s.raiseAt s.cur causeMemory 24 n)
        | some q =>
          if q.failed then .next ((s.writeStatus g d.toNat act 4).advance i)
          else
            let dl := deadline s g
            let now := (s.pkg g.pkg).time
            let s := s.setWait (.a g) (some (.deq n.toNat act d.toNat dl))
            let s := s.modQueue g.dieId n.toNat fun x => { x with deqs := x.deqs ++ [g] }
            let s := s.serve g.dieId n.toNat q.items
            .next (match (s.gang g).wait with
              | some (.deq _ left _ (some t)) =>
                if t ≤ now then (s.writeStatus g d.toNat left 2).retireQueue g.dieId n.toNat g else s
              | _ => s)
    | _ => .next s

/-- `DEQ` (R367): Dequeue items into lanes. -/
def execDeq (a : BitVec 6) (d : BitVec 6) (s : State) : Out := dequeue (.deq a d) a d (fun _ _ => none) s

/-- `DEQT` (R368): Dequeue with a timeout. -/
def execDeqt (b : BitVec 6) (a : BitVec 6) (d : BitVec 6) (s : State) : Out :=
  dequeue (.deqt b a d) a d
    (fun s g => some (min ((s.pkg g.pkg).time + (leaderValue s (.a g) .b64 b.toNat).toNat) (2 ^ 64 - 1))) s

/-- `ENQ_LANE_RESUME` (R343): A waiting enq lane enqueues once a dequeue frees room. -/
def execEnqLaneResume (g : GangId) (s : State) : Out :=
  match (s.gang g).wait with
  | some (.enq n items) => .next (s.pushLanes g.dieId n g items)
  | _ => .next s

/-- `DEQT_TIMEOUT` (R368): Lanes of deqt not served by the deadline write status 2. -/
def execDeqtTimeout (g : GangId) (s : State) : Out :=
  match (s.gang g).wait with
  | some (.deq n lanes d (some t)) =>
    if t ≤ (s.pkg g.pkg).time then .next ((s.writeStatus g d lanes 2).retireQueue g.dieId n g) else .next s
  | _ => .next s

/-! ## Disabling, failure and configuration (R342, R344, R331) -/

/-- Every operation blocked on a queue released with a status: dequeues write it, enqueues drop their items (R342, R366). -/
def State.releaseBlocked (s : State) (d : DieId) (n status : Nat) : List GangId → State
  | [] => s
  | g :: gs =>
    let s := match (s.gang g).wait with
      | some (.deq _ lanes r _) => s.writeStatus g r lanes status
      | _ => s
    (s.retireQueue d n g).releaseBlocked d n status gs

/-- A queue emptied, and its blocked operations released. -/
def State.emptyQueue (s : State) (d : DieId) (n status : Nat) : State :=
  let q := (s.die d).queue n
  (s.modQueue d n fun x => { x with items := [] }).releaseBlocked d n status (q.deqs ++ q.enqs)

/-- `QUEUE_FAILURE` (R344): An uncorrectable error in a queue's state sets failed, discards its items and releases blocked
operations as failed. -/
def execQueueFailure (d : DieId) (n : Nat) (s : State) : Out :=
  .next ((s.modQueue d n fun x => { x with failed := true }).emptyQueue d n 4)

/-- A queue table entry written (R342). The high word holds nothing that software writes. -/
def State.writeQueueEntry (s : State) (d : DieId) (n : Nat) (high : Bool) (v : DWord) : State :=
  if high || 256 ≤ n then s
  else
    let old := (s.die d).queue n
    let s := s.modQueue d n fun q =>
      let q := if q.en then q else { q with cap := v.toNat / 2 ^ 48, ctx := v.toNat / 2 ^ 16 % 2 ^ 16 }
      { q with failed := q.failed && !v.getLsbD 1, en := v.getLsbD 0 }
    if old.en && !v.getLsbD 0 then s.emptyQueue d n 3 else s

/-- `QUEUE_TABLE_WRITE` (R342): A write to a work-queue entry sets cap, ctx or en; clearing en discards the items and releases
blocked operations as disabled. -/
def execQueueTableWrite (d : DieId) (n : Nat) (high : Bool) (v : DWord) (s : State) : Out :=
  .next (s.writeQueueEntry d n high v)

/-- A queue reserve that the register stores: one above its 2,048 units is a free value in its range (R331, log entry 14). -/
def qresValue (n clock : Nat) : Nat := if n ≤ 2048 then n else Config.choice clock 2049 % 2049

/-- The queue reserve written (R331): ignored while a die group holds scratchpad or a queue is enabled. -/
def Die.writeQres (x : Die) (n : Nat) : Die :=
  if x.allocs.any (fun a => a.size != 0) || x.queues.any (fun q => q.2.en) then x else { x with qres := n }

/-- qres written on a die. -/
def State.writeQres (s : State) (d : DieId) (v : DWord) : State :=
  { s.modDie d fun x => x.writeQres (qresValue (v.toNat % 2 ^ 12) s.clock) with clock := s.clock + 1 }

/-- `QRES_WRITE` (R331): A write to qres sets the die-scratchpad queue reserve, or is ignored. -/
def execQresWrite (d : DieId) (v : DWord) (s : State) : Out := .next (s.writeQres d v)

end Sys2Proof.Machine
end

