-- ==== Sys2Proof/Machine/Mapping.lean ====
section
/-! DEFINITION. Page tables kept by instructions (R242, R370 to R372), TLB invalidation (R299), the first-touch pools (R351) and
the fault buffer's registers (R353). -/

namespace Sys2Proof.Machine

/-! ## TLB invalidation (R291, R299) -/

/-- The pages that a removal reaches: every page of a context, or those given by an address and the base-two logarithm of a
size. -/
abbrev Pages : Type := Option (List (Nat × Nat))

/-- Whether an address lies in one of some pages. -/
def inPages (ps : Pages) (va : Nat) : Bool :=
  match ps with
  | none => true
  | some l => l.any fun p => va / 2 ^ p.2 == p.1 / 2 ^ p.2

/-- Whether a translation is one that a removal takes: it lies in a page, or holds the page's address. -/
def TlbEntry.goes (e : TlbEntry) (ctx : Nat) (ps : Pages) : Bool :=
  e.ctx == ctx &&
    match ps with
    | none => true
    | some l => l.any fun p => e.covers ctx p.1 || (p.1 / 2 ^ p.2 == e.page / 2 ^ p.2)

/-- Whether a pin is one that a removal takes, by a page's size or by the one that it was translated through (R291, R299). -/
def Pin.goes (p : Pin) (ctx : Nat) (ps : Pages) : Bool :=
  p.ctx == ctx && (inPages ps (64 * p.vline) || (match ps with
    | none => true
    | some l => l.any fun q => 64 * p.vline / 2 ^ p.lg == q.1 / 2 ^ p.lg))

/-- The pins of a removed page go, but for those of a k-step that has begun, of which `tpin` holds none any more (R291). -/
def Clu.dropPins (x : Clu) (ctx : Nat) (ps : Pages) : Clu :=
  { x with pins := x.pins.filterMap fun p =>
      if !p.goes ctx ps then some p
      else if x.ctl.begun && p.step.any (· ≤ x.ctl.kstep) then some { p with after := none } else none }

/-- Whether an L1 line is one that a removal takes: it lies in a page, by that page's size or by the one that it was filled
through (R299). -/
def L1Line.goes (y : L1Line) (ctx : Nat) (ps : Pages) : Bool :=
  y.ctx == ctx && (inPages ps (16 * y.vsec) || (match ps with
    | none => true
    | some l => l.any fun p => 16 * y.vsec / 2 ^ y.lg == p.1 / 2 ^ y.lg))

/-- Translations, pins and L1 data lines of a context removed within a scope (R299). -/
def State.tlbRemove (s : State) (dies : DieId → Bool) (clus : CluId → Bool) (ctx : Nat) (ps : Pages) : State :=
  { s with
    dies := s.dies.map fun (p : DieId × Die) =>
      (p.1, if dies p.1 then { p.2 with tlb := p.2.tlb.filter fun e => !e.goes ctx ps } else p.2)
    clus := s.clus.map fun (p : CluId × Clu) =>
      (p.1, if clus p.1 then ({ p.2 with tlb := p.2.tlb.filter fun e => !e.goes ctx ps } : Clu).dropPins ctx ps else p.2)
    cores := s.cores.map fun (p : CoreId × Core) =>
      (p.1, if clus p.1.cluId then { p.2 with l1d := p.2.l1d.filter fun y => !y.goes ctx ps }
            else p.2) }

/-- The pages that hold an address: those of the translations in scope, the one that the tables map now, and the smallest. -/
def State.pagesOf (s : State) (p ctx va : Nat) (dies : DieId → Bool) (clus : CluId → Bool) : List (Nat × Nat) :=
  let held := (s.dies.flatMap fun (x : DieId × Die) => if dies x.1 then x.2.tlb.filter fun e => e.covers ctx va else [])
    ++ s.clus.flatMap fun (x : CluId × Clu) => if clus x.1 then x.2.tlb.filter fun e => e.covers ctx va else []
  let now := match s.walk p ctx va with
    | .mapped e => [(va, e.lg)]
    | .miss _ _ _ => []
  (va, 13) :: now ++ held.map fun e => (va, e.lg)

/-- `TLBINV` (R372): Remove TLB entries within a scope. -/
def execTlbinv (a : BitVec 6) (c : BitVec 3) (s : State) : Out :=
  issue (.tlbinv a c) s fun s =>
    match s.cur with
    | .a g =>
      if s.active s.cur = 0 then .next (s.advance (.tlbinv a c))
      else
        let va := leaderValue s s.cur .b64 a.toNat
        let all := decide (va = BitVec.allOnes 64)
        if !all && va.toNat ≥ 2 ^ 57 then .next (s.raiseAt s.cur causeMemory 6 va)
        else
          let ctx := (s.gang g).ctx
          let dies (d : DieId) : Bool := c ≥ 5 || (c = 4 && d.pkg = g.pkg) || (c = 3 && d = g.dieId)
          let clus (x : CluId) : Bool := dies x.dieId || x = g.cluId
          let ps : Pages := if all then none else some (s.pagesOf g.pkg ctx va.toNat dies clus)
          .next ((s.tlbRemove dies clus ctx ps).advance (.tlbinv a c))
    | _ => .next s

/-! ## Leaves (R348, R370, R371) -/

/-- The physical address of the entry of a walk at a level, every table on the way being valid (R370). -/
def State.leafFrom (s : State) (p va table lvl : Nat) : List (Nat × Nat × Nat) → Option Nat
  | [] => none
  | (l, lo, n) :: rest =>
    let pa := table + 8 * (va / 2 ^ lo % 2 ^ n)
    if l = lvl then some pa
    else
      let (e, marked) := s.readPte p pa
      if marked || pteReserved e || !pteBit e 0 || pteBit e 1 || (l = 3 && pteAddr e % 2 ^ 17 != 0) then none
      else s.leafFrom p va (pteAddr e) lvl rest

/-- The level of a page size (R348). -/
def sizeLevel (size : Nat) : Nat := if size ≤ 1 then 0 else size - 1

/-- The physical addresses of the leaves of a page: eight for 64 KiB. -/
def State.leavesOf (s : State) (p ctx va size : Nat) : Option (List Nat) :=
  match tfind ctx (s.pkg p).contexts with
  | none => none
  | some c =>
    if !c.en then none
    else
      (s.leafFrom p va c.root (sizeLevel size) levels).bind fun pa =>
        let n := if size = 1 then 8 else 1
        if pa + 8 * n ≤ hbmSize then some ((List.range n).map fun i => pa + 8 * i) else none

/-- Whether a frame lies wholly in HBM, or wholly in one control block (R375). -/
def frameFits (b n : Nat) : Bool :=
  b + n ≤ hbmSize ||
    match paKind b with
    | .die _ off => off + n ≤ 0x10000
    | .pkg off => off + n ≤ 0x100000
    | _ => false

/-- A leaf (R370). -/
def leafOf (size frame perms : Nat) : Nat := size * 2 ^ 62 + frame + perms % 8 * 4 + 3

/-- Several page-table entries written at their home. -/
def State.writeLeaves (s : State) (p v : Nat) : List Nat → State
  | [] => s
  | pa :: pas => (s.writeHome (hbmKey p pa) (bytesOfNum v 8) false).writeLeaves p v pas

/-- The pre-checks that both instructions share: detail 6, and detail 25 for a misaligned address. -/
def mapFault (va : DWord) (size : Nat) : Option Nat :=
  if va.toNat ≥ 2 ^ 57 then some 6 else if va.toNat % 2 ^ pageLg size != 0 then some 25 else none

/-- The detail of `mappg`, or its leaves and its frame (R361, R370). -/
def State.mapPlan (s : State) (g : GangId) (size : Nat) (va b perms : DWord) : Nat ⊕ (List Nat × Nat) :=
  let n := 2 ^ pageLg size
  let pool := tget size [] (s.die g.dieId).pools
  match mapFault va size with
  | some d => .inl d
  | none =>
    if b.toNat % n != 0 || b.toNat ≥ 2 ^ 52 || (b != 0 && !frameFits b.toNat n) || perms.toNat ≥ 8 then .inl 25
    else
      match s.leavesOf g.pkg (s.gang g).ctx va.toNat size with
      | none => .inl 25
      | some pas =>
        if pas.any fun pa => pteBit (s.readPte g.pkg pa).1 0 then .inl 25
        else if b != 0 then .inr (pas, b.toNat)
        else
          match pool with
          | [] => .inl 26
          | f :: _ => .inr (pas, f)

/-- The merge entries in state handler that a page covers (R350). -/
def Die.handlersOn (x : Die) (ctx va lg : Nat) : List Nat :=
  x.mergeTags fun m => m.state = .handler && m.ctx == ctx && m.page / 2 ^ max lg m.lg == va / 2 ^ max lg m.lg

/-- Whether an access that was translated before a mapping reaches the page or the frame of that mapping: it has to be performed
first, so that nothing of the frame from before is ever read through it (R242). -/
def State.frameBusy (s : State) (p ctx va frame n : Nat) : Bool :=
  let hits (a : Access) : Bool := a.space == .g && a.gang.pkg == p && a.lanes.any fun l =>
    match l.pa with
    | some k => (hbmKey p frame ≤ k && k < hbmKey p frame + n) || (a.ctx == ctx && l.ea / n == va / n)
    | none => false
  decide (frame + n ≤ hbmSize) && (s.flight.any hits || s.gangs.any fun g => g.2.hold.any hits)

/-- L1 lines of a package that lie in a new mapping's page or hold its frame's old contents removed (R242). -/
def State.dropFrame (s : State) (p ctx va frame n : Nat) : State :=
  { s with cores := s.cores.map fun (c : CoreId × Core) =>
      (c.1, if c.1.pkg = p then
        { c.2 with l1d := c.2.l1d.filter fun y =>
            !((hbmKey p frame ≤ 16 * y.psec && 16 * y.psec < hbmKey p frame + n) || (y.ctx == ctx && 16 * y.vsec / n == va / n)) }
        else c.2) }

/-- `MAPPG` (R370): Write a valid leaf, fence, zero an HBM frame and free a handler merge entry. -/
def execMappg (z : BitVec 2) (b : BitVec 6) (a : BitVec 6) (d : BitVec 6) (s : State) : Out :=
  issue (.mappg z b a d) s fun t =>
    match t.cur with
    | .a g =>
      if t.active t.cur = 0 then .next (t.advance (.mappg z b a d))
      else if t.busy g || t.walkWaits g.pkg (t.gang g).ctx (leaderValue t t.cur .b64 a.toNat).toNat then .next s
      else
        let va := leaderValue t t.cur .b64 a.toNat
        let f := leaderValue t t.cur .b64 b.toNat
        let perms := leaderValue t t.cur .b64 d.toNat
        match t.mapPlan g z.toNat va f perms with
        | .inl n => .next (t.raiseAt t.cur causeMemory n va)
        | .inr (pas, frame) =>
          let n := 2 ^ pageLg z.toNat
          if t.frameBusy g.pkg (t.gang g).ctx va.toNat frame n then .next s
          else
          let t := if f = 0 then
              t.modDie g.dieId fun x => { x with pools := tset z.toNat ((tget z.toNat [] x.pools).drop 1) x.pools }
            else t
          let t := (t.writeLeaves g.pkg (leafOf z.toNat frame perms.toNat) pas).ambientAcquire g
          let t := if frame + n ≤ hbmSize then
              (t.modPkg g.pkg fun x => { x with zeroing := x.zeroing ++ [(frame, n)] }).dropFrame g.pkg (t.gang g).ctx va.toNat frame n
            else t
          let t := t.advance (.mappg z b a d)
          .next (t.freeMerges g.dieId true ((t.die g.dieId).handlersOn (t.gang g).ctx va.toNat (pageLg z.toNat)))
    | _ => .next s

/-- Whether some entries are the valid leaves of a page of a size. -/
def State.leavesValid (s : State) (p size : Nat) (pas : List Nat) : Bool :=
  pas.all fun pa =>
    let (e, m) := s.readPte p pa
    !m && pteBit e 0 && pteBit e 1 && pteSize e == size

/-- `UNMAPPG` (R371): Clear a leaf and remove its TLB entries, L1 lines and pins. -/
def execUnmappg (z : BitVec 2) (a : BitVec 6) (s : State) : Out :=
  issue (.unmappg z a) s fun t =>
    match t.cur with
    | .a g =>
      if t.active t.cur = 0 then .next (t.advance (.unmappg z a))
      else if t.busy g || t.walkWaits g.pkg (t.gang g).ctx (leaderValue t t.cur .b64 a.toNat).toNat then .next s
      else
        let va := leaderValue t t.cur .b64 a.toNat
        let ctx := (t.gang g).ctx
        match mapFault va z.toNat with
        | some n => .next (t.raiseAt t.cur causeMemory n va)
        | none =>
          match t.leavesOf g.pkg ctx va.toNat z.toNat with
          | none => .next (t.raiseAt t.cur causeMemory 25 va)
          | some pas =>
            if !t.leavesValid g.pkg z.toNat pas then .next (t.raiseAt t.cur causeMemory 25 va)
            else
              let t := (t.writeLeaves g.pkg 0 pas).ambientAcquire g
              .next ((t.tlbRemove (fun d => d.pkg == g.pkg) (fun c => c.pkg == g.pkg) ctx
                (some [(va.toNat, pageLg z.toNat)])).advance (.unmappg z a))
    | _ => .next s

/-! ## Zeroing (R242, R379) -/

/-- The zeroing of a frame ends: the zeroes are writes performed at the frame's homes (R242). -/
def State.endZeroing (s : State) (p : Nat) (z : Nat × Nat) : State :=
  let k := hbmKey p z.1
  let s := s.modPkg p fun x => { x with zeroing := x.zeroing.erase z }
  let s := s.clearRange k z.2
  let s := ((s.triggerMonitors k z.2).fireTriggers k z.2 s.dies).meetCwaits k z.2
  s.modPkg p fun x => x.dirtied z.1 z.2

/-- Every zeroing of a package ended, as a migration needs it before it copies (R242, R381). -/
def State.finishZeroing (s : State) (p : Nat) : State := (s.pkg p).zeroing.foldl (fun s z => s.endZeroing p z) s

/-- `FRAME_ZEROING_DONE` (R379): The base die finishes zeroing a newly mapped frame, and accesses waiting on it proceed. -/
def execFrameZeroingDone (p : Nat) (frame : Nat) (s : State) : Out :=
  match (s.pkg p).zeroing.find? fun z => z.1 == frame with
  | none => .next s
  | some z => .next (s.endZeroing p z)

/-! ## Registers of the die's translation (R351, R353) -/

/-- A frame pushed onto a first-touch pool (R351). -/
def Die.pushPool (x : Die) (z : Nat) (v : DWord) : Die :=
  let pool := tget z [] x.pools
  let n := 2 ^ pageLg z
  if v.toNat % n = 0 && v.toNat + n ≤ hbmSize && pool.length < 1024 then { x with pools := tset z (v.toNat :: pool) x.pools } else x

/-- `POOLPUSH` (R351): A write to poolpush pushes an aligned HBM frame onto the first-touch pool of that size, or is ignored. -/
def execPoolpush (d : DieId) (z : BitVec 2) (v : DWord) (s : State) : Out := .next (s.modDie d fun x => x.pushPool z.toNat v)

/-- A capacity of the fault buffer, clamped (R353). -/
def clampLg (n : Nat) : Nat := if n < 3 then 3 else if n > 10 then 10 else n

/-- The fault buffer's configuration written (R353). -/
def Die.writeFbcfg (x : Die) (v : DWord) : Die :=
  { x with ie := v.getLsbD 8, lg := if x.fb.isEmpty then clampLg (v.toNat % 16) else x.lg }

/-- `FBCFG_WRITE` (R353): A write to fbcfg sets ie, and sets the clamped capacity only while the buffer is empty. -/
def execFbcfgWrite (d : DieId) (v : DWord) (s : State) : Out := .next (s.modDie d fun x => x.writeFbcfg v)

/-- The fault buffer's status written: ones clear (R353). -/
def Die.writeFbstat (x : Die) (v : DWord) : Die :=
  { x with dropped := x.dropped && !v.getLsbD 16, empty := x.empty && !v.getLsbD 17 }

/-- `FBSTAT_WRITE` (R353): A write of ones to the dropped or empty bits of fbstat clears them. -/
def execFbstatWrite (d : DieId) (v : DWord) (s : State) : Out := .next (s.modDie d fun x => x.writeFbstat v)

end Sys2Proof.Machine
end

