-- ==== Sys2Proof/Machine/Groups.lean ====
section
/-! DEFINITION. Launches and groups as their ends need them (R273, R329, R357, R388): memory read and written through a context's
mapping, the counting of a completion handle, the freeing of what a group holds, and the renumbering of clusters. -/

namespace Sys2Proof.Machine

/-! ## Memory through a context (R385, R388, R442) -/

/-- A range cut at every multiple of a unit. -/
def cutAt (unit : Nat) : Nat → Nat → Nat → List (Nat × Nat)
  | 0, _, _ => []
  | fuel + 1, va, n => if n = 0 then [] else (va, min n (unit - va % unit)) :: cutAt unit fuel (va + min n (unit - va % unit)) (n - min n (unit - va % unit))

/-- The pieces of a range between multiples of a unit. -/
def piecesOf (unit va n : Nat) : List (Nat × Nat) := cutAt unit (n / unit + 2) va n

/-- The key of an address through a context's mapping on a package, where the translation passes a test and names HBM. -/
def State.virtKey (s : State) (p ctx va : Nat) (ok : TlbEntry → Bool) : Option Nat :=
  if va ≥ 2 ^ 57 then none
  else
    match s.walk p ctx va with
    | .mapped e => if ok e && e.pa va < hbmSize then some (hbmKey p (e.pa va)) else none
    | .miss _ _ _ => none

/-- Where an address lies through a context's mapping on a package, for a write of the package's own: none where no mapping permits
it, and no key where it names no HBM, so that the write is discarded (R375). -/
def State.virtPlace (s : State) (p ctx va : Nat) : Option (Option Nat) :=
  if va ≥ 2 ^ 57 then none
  else
    match s.walk p ctx va with
    | .mapped e => if e.w then some (if e.pa va < hbmSize then some (hbmKey p (e.pa va)) else none) else none
    | .miss _ _ _ => none

/-- The places of some pieces, all of which must be mapped for writing. -/
def State.virtPlaces (s : State) (p ctx : Nat) : List (Nat × Nat) → Option (List (Option Nat × Nat))
  | [] => some []
  | (va, n) :: rest =>
    match s.virtPlace p ctx va, s.virtPlaces p ctx rest with
    | some k, some ks => some ((k, n) :: ks)
    | _, _ => none

/-- The keys of some pieces, all of which must be there. -/
def State.virtKeys (s : State) (p ctx : Nat) (ok : TlbEntry → Bool) : List (Nat × Nat) → Option (List (Nat × Nat))
  | [] => some []
  | (va, n) :: rest =>
    match s.virtKey p ctx va ok, s.virtKeys p ctx ok rest with
    | some k, some ks => some ((k, n) :: ks)
    | _, _ => none

/-- Bytes read through a context's mapping; none where a page is not mapped readable or the memory is poisoned. -/
def State.readVirt (s : State) (p ctx va n : Nat) : Option (List Byte) :=
  match s.virtKeys p ctx (fun e => e.r) (piecesOf 8192 va n) with
  | none => none
  | some ks =>
    if ks.any fun k => s.markedAt k.1 k.2 then none else some (ks.flatMap fun k => s.readBytes k.1 k.2)

/-- Bytes written at some places, where there is memory. -/
def State.writePlaces (s : State) (poison : Bool) : List (Option Nat × Nat) → List Byte → State
  | [], _ => s
  | (none, n) :: ks, bs => s.writePlaces poison ks (bs.drop n)
  | (some k, n) :: ks, bs => (s.writeHome k (bs.take n) poison).writePlaces poison ks (bs.drop n)

/-- Bytes written through a context's mapping; none where a page is not mapped writable. -/
def State.writeVirt (s : State) (p ctx va : Nat) (bs : List Byte) (poison : Bool) : Option State :=
  (s.virtPlaces p ctx (piecesOf 8192 va bs.length)).map fun ks => s.writePlaces poison ks bs

/-- Whether a range that a context maps cannot be accessed just now. -/
def State.virtWaits (s : State) (p ctx va n : Nat) : Bool :=
  (piecesOf 8192 va n).any fun x => (decide (x.1 < 2 ^ 57) && s.walkWaits p ctx x.1) || match s.virtKey p ctx x.1 (fun _ => true) with
    | some k => s.placeWaits k x.2
    | none => false

/-- A completion handle of a context counted by the package; nothing where its word cannot be reached. One that R225 does not admit counts
at the word that its name gives (the model's choice, log entry 18). -/
def State.countHandle (s : State) (p ctx : Nat) (h : DWord) (fault : Bool) : State :=
  if h = 0 then s
  else
    match s.virtKey p ctx (handleName h) (fun e => e.r && e.w) with
    | some k => s.countAt ctx h k fault
    | none => s

/-! ## Requesters that go away (R350) -/

/-- A requester that has gone waits on no merge entry any more. -/
def State.dropWaiters (s : State) (gone : Requester → Bool) : State :=
  { s with dies := s.dies.map fun (d : DieId × Die) =>
      (d.1, { d.2 with merge := d.2.merge.map fun m => (m.1, { m.2 with waiters := m.2.waiters.filter fun r => !gone r }) }) }

/-- The merge entries of a context freed on a package, with nothing reissued (R350, R383). -/
def State.dropMerges (s : State) (p ctx : Nat) : State :=
  { s with dies := s.dies.map fun (d : DieId × Die) =>
      (d.1, if d.1.pkg = p then { d.2 with merge := d.2.merge.filter fun m => m.2.ctx != ctx } else d.2) }

/-! ## Launches -/

/-- A launch of a package changed, where there is one. -/
def State.modLaunch (s : State) (p l : Nat) (f : Launch → Launch) : State :=
  match tfind l (s.pkg p).launches with
  | some x => s.modPkg p fun y => { y with launches := tset l (f x) y.launches }
  | none => s

/-- Whether a launch's controller still runs on a cluster. -/
def State.ctlOf (s : State) (l : Nat) (c : CluId) : Bool := (s.clu c).ctl.inUse && (s.clu c).ctl.launch == l

/-- Whether the cluster group of a launch has ended: its crews and its controller's stream (R273). -/
def State.groupEnded (s : State) (l : Nat) (x : Launch) (c : CluId) : Bool :=
  x.crews.all (fun w => w.core.cluId != c || w.ended) && !s.ctlOf l c

/-- Whether the die group of a launch has ended (R329). -/
def State.dieEnded (s : State) (l : Nat) (x : Launch) (d : DieId) : Bool :=
  x.crews.all (fun w => w.core.cluId.dieId != d || w.ended) && x.ctls.all fun c => c.dieId != d || !s.ctlOf l c

/-- The allocations of the ended groups of a launch freed (R273, R329). -/
def State.freeGroups (s : State) (p l : Nat) : State :=
  match tfind l (s.pkg p).launches with
  | none => s
  | some x =>
    { s with
      clus := s.clus.map fun (c : CluId × Clu) =>
        (c.1, if c.1.pkg = p && s.groupEnded l x c.1 then { c.2 with allocs := c.2.allocs.filter fun a => a.launch != l } else c.2)
      dies := s.dies.map fun (d : DieId × Die) =>
        (d.1, if d.1.pkg = p && s.dieEnded l x d.1 then { d.2 with allocs := d.2.allocs.filter fun a => a.launch != l } else d.2) }

/-! ## Logical clusters (R357, R414) -/

/-- Whether a physical cluster holds a cluster group: a crew, a controller's stream or an allocation, or the crews of a running
collective on its cores (R190). -/
def State.cluBusy (s : State) (c : CluId) : Bool :=
  (s.clu c).ctl.inUse || !(s.clu c).allocs.isEmpty || s.gangs.any (fun g => g.1.cluId = c && g.2.inUse)
    || s.cores.any fun k => k.1.cluId = c && k.2.collective

/-- The logical number of a retired cluster passes on where it can: to the lowest spare, or, with none left, from the cluster of
the highest number, once neither holds a cluster group. The logical field of the retired cluster's own entry keeps the number that it
had (the model's choice, log entry 2). -/
def State.passNumber (s : State) (d : DieId) (p : Nat) : State :=
  let x := s.die d
  let r := x.remapOf p
  let busy (q : Nat) : Bool := s.cluBusy ⟨d.pkg, d.die, q⟩
  if !x.retiring.contains p || busy p then s
  else
    match (List.range 34).find? fun q => (x.remapOf q).spare with
    | some q =>
      s.modDie d fun x =>
        { x with
          retiring := x.retiring.erase p
          remap := tset q { x.remapOf q with active := true, spare := false, logical := r.logical } x.remap }
    | none =>
      let n := ((List.range 34).filter fun q => (x.remapOf q).active).length
      if r.logical ≥ n then s.modDie d fun x => { x with retiring := x.retiring.erase p }
      else
        match (List.range 34).find? fun q => (x.remapOf q).active && decide (n ≤ (x.remapOf q).logical) with
        | some q =>
          if busy q then s
          else
            s.modDie d fun x =>
              { x with
                retiring := x.retiring.erase p
                remap := tset q { x.remapOf q with logical := r.logical } x.remap }
        | none => s

/-- Every number that can pass on does so. -/
def State.passNumbers (s : State) (d : DieId) : List Nat → State
  | [] => s
  | p :: ps => (s.passNumber d p).passNumbers d ps

/-- Every number of a package that can pass on does so. -/
def State.passAll (s : State) (p : Nat) : State :=
  s.dies.foldl (fun s d => if d.1.pkg = p then s.passNumbers d.1 d.2.retiring else s) s

/-- What the end of a group sets off: its allocations are freed, and numbers of retired clusters pass on. -/
def State.settleGroups (s : State) (p l : Nat) : State := (s.freeGroups p l).passAll p

end Sys2Proof.Machine
end

