-- ==== Sys2Proof/Machine/Anvil.lean ====
section
/-! DEFINITION. The anvil controller's instructions for the anvil (R278 to R287, R302 to R313, R322, R323): capture and checks at
issue, the anvil queue, pinning, waiting, and the end of the stream. What the anvil does is in `AnvilRun`. -/

namespace Sys2Proof.Machine

/-! ## Formats (R284) -/

/-- Bytes of an element of a format code; 0 for the TS block formats and for what is illegal. -/
def elemBytes (code : Nat) : Nat :=
  match code with
  | 0 => 2
  | 1 => 2
  | 2 => 4
  | 3 => 8
  | 4 => 1
  | 5 => 1
  | 9 => 1
  | 10 => 4
  | _ => 0

/-- Whether a format code names a TS block format. -/
def isTs (code : Nat) : Bool := code == 6 || code == 7 || code == 8

/-- Bytes of a block (R33), and its magnitude bits (R29). -/
def blockBytes (code : Nat) : Nat := if code = 6 then 6 else if code = 7 then 10 else 16
/-- The magnitude bits of a TS code. -/
def blockBits (code : Nat) : Nat := if code = 6 then 2 else if code = 7 then 4 else 7

/-- Bytes of a row of some columns (R304). -/
def rowBytes (code cols : Nat) : Nat := if isTs code then cols / 16 * blockBytes code else cols * elemBytes code

/-- The k-step depth and the accumulator's format code of a permitted pairing (R278). -/
def pairing (a b : Nat) : Option (Nat × Nat) :=
  let eight (c : Nat) : Bool := c == 4 || c == 5 || c == 8
  if a = b && (a = 0 || a = 1) then some (256, 2)
  else if eight a && eight b then some (512, 2)
  else if a = 9 && b = 9 then some (512, 10)
  else if a = 7 && (b = 7 || b = 6) then some (1024, 2)
  else if a = 6 && b = 6 then some (2048, 2)
  else if a = 2 && b = 2 then some (64, 2)
  else if a = 3 && b = 3 then some (16, 3)
  else none

/-! ## Capture (R282 to R284) -/

/-- A tile descriptor as read: the number that info gives, its place in the order tx, ty, tz, x, and its fields. -/
structure RawTile where
  number : Nat
  rank : Nat
  reserved : Bool
  base : Int
  stride : Nat
  rows : Nat
  cols : Nat
  sp : Bool
deriving DecidableEq, Repr

/-- A format block as read. -/
structure RawBlock where
  number : Nat
  reserved : Bool
  blk : Block
deriving DecidableEq, Repr

/-- The base of a cluster group's allocation and its size, for its controller (R273). -/
def State.cluAlloc (s : State) (c : CluId) : Alloc :=
  (findAlloc (s.clu c).ctl.launch 0 (s.clu c).allocs).getD ⟨0, 0, 0, 0⟩

/-- Bytes of the controller's cluster memory, and whether any is marked. -/
def State.cluBytes (s : State) (c : CluId) (off n : Nat) : List Byte × Bool :=
  let k := cluKey c ((s.cluAlloc c).base + off)
  (s.readBytes k n, s.markedAt k n)

/-- A field of a number. -/
def bitsAt (v lo n : Nat) : Nat := v / 2 ^ lo % 2 ^ n

/-- A tile descriptor (R283), and whether the capture meets poison in it or in its index register. -/
def State.readTile (s : State) (c : CluId) (n rank : Nat) : RawTile × Bool :=
  let (bs, m) := s.cluBytes c (32 * n) 32
  let v := numOf bs
  let x := (s.clu c).ctl.readM (bitsAt v 148 5)
  let xen := bitsAt v 153 1 = 1
  let base : Int := (bitsAt v 0 57 : Nat) + (if xen then x.bits.toInt * (bitsAt v 160 32 : Nat) else 0)
  let reserved := bitsAt v 57 7 != 0 || bitsAt v 96 16 != 0 || bitsAt v 145 3 != 0 || bitsAt v 154 6 != 0 || bitsAt v 192 64 != 0
  (⟨n, rank, reserved, base, bitsAt v 64 32, bitsAt v 112 16 + 1, bitsAt v 128 16 + 1, decide (bitsAt v 144 1 = 1)⟩,
    m || (xen && x.poison))

/-- A format block (R284). -/
def State.readBlock (s : State) (c : CluId) (j : Nat) : RawBlock × Bool :=
  let (bs, m) := s.cluBytes c (512 + 16 * j) 16
  let v := numOf bs
  let blk : Block :=
    { rnd := bitsAt v 97 3, bscale := bitsAt v 40 57, ascale := bitsAt v 16 22, bsp := decide (bitsAt v 12 1 = 1)
      bblen := bitsAt v 10 2, ablen := bitsAt v 8 2, bfmt := bitsAt v 4 4, afmt := bitsAt v 0 4 }
  (⟨j, bitsAt v 13 3 != 0 || bitsAt v 38 2 != 0 || bitsAt v 100 28 != 0, blk⟩, m)

/-- A tile captured. -/
def RawTile.tile (t : RawTile) : Tile := ⟨t.base.toNat, t.stride, t.rows, t.cols, t.sp⟩

/-! ## Checks (R285, R304) -/

/-- A failed check: its detail, its place in the order of R285, and the number for info. -/
abbrev Failed : Type := List (Nat × Nat × Nat)

/-- A failed check where a condition holds. -/
def failIf (b : Bool) (detail rank number : Nat) : Failed := if b then [(detail, rank, number)] else []

/-- Detail 14: a range beyond the allocation, or a `.g` address beyond 57 bits. -/
def spanFails (clsz : Nat) (sp : Bool) (base : Int) (size rank number : Nat) : Failed :=
  let top := base + ((max size 1 : Nat) : Int)
  failIf (decide (base < 0) || (if sp then decide (2 ^ 57 < top) else decide ((clsz : Int) < top))) 14 rank number

/-- The checks of one tile with rows of some bytes and an alignment: details 13 and 14. -/
def RawTile.fails (t : RawTile) (clsz row al : Nat) : Failed :=
  failIf (t.reserved || t.base % (al : Int) != 0 || t.stride % al != 0 || decide (t.stride < row)) 13 t.rank t.number
    ++ spanFails clsz t.sp t.base ((t.rows - 1) * t.stride + row) t.rank t.number

/-- Detail 16: sp on a tile that must lie in cluster memory. -/
def RawTile.spFails (t : RawTile) : Failed := failIf t.sp 16 t.rank t.number

/-- The checks of an operand tile and of its scale array (R279). -/
def operandFails (clsz : Nat) (t : RawTile) (code : Nat) (scale : Nat) (scaleSp : Bool) (b : RawBlock) : Failed :=
  t.fails clsz (rowBytes code t.cols) 16
    ++ (if isTs code then
          failIf (t.cols % 16 != 0) 13 t.rank t.number ++ failIf (scale % 4 != 0) 13 3 b.number
            ++ spanFails clsz scaleSp scale (4 * (t.rows * (t.cols / 16))) 3 b.number
        else [])

/-- Whether a block length does not go with a format (R284). -/
def lenWrong (code len : Nat) : Bool := decide (len ≠ if isTs code then 1 else 0)

/-- The order of R285 on failed checks. -/
def failsBefore (x y : Nat × Nat × Nat) : Bool := x.1 < y.1 || (x.1 == y.1 && x.2.1 < y.2.1)

/-- The failed check that is raised. -/
def worst (fs : Failed) : Option (Nat × Nat × Nat) :=
  match fs with
  | [] => none
  | f :: rest => some (rest.foldl (fun a b => if failsBefore b a then b else a) f)

/-! ## The queue (R286, R287) -/

/-- Whether a queued instruction will write the permutation or estimate register of an index (R281, R307). -/
def AnvilOp.writesIndex (o : AnvilOp) (j : Nat) : Bool :=
  match o with
  | .lup i _ => i == j
  | .chol i _ => i == j
  | .qrh i _ => i == j
  | .trsm i _ _ _ _ => i == j
  | _ => false

/-- Whether the scoreboard of R281 holds an instruction that reads `pmj` or `gej`. -/
def Ctl.indexBusy (x : Ctl) (j : Nat) : Bool := x.queue.any fun e => e.op.writesIndex j

/-- A permutation register: the identity until something writes it (R280). -/
def Ctl.perm (x : Ctl) (j : Nat) : List Nat := tget j (List.range 128) x.pm

/-- An instruction queued (R286). -/
def Ctl.enqueue (x : Ctl) (e : AnvilEntry) : Ctl :=
  { x with queue := x.queue ++ [e], state := if x.queue.isEmpty then 1 else x.state, issued := x.issued + 1 }

/-- An anvil instruction at issue: it stalls on a full queue, consumes poison met by its capture, raises the lowest failed check,
or enters the queue. -/
def anvilIssue (i : Instr) (s : State) (held : Ctl → Bool) (k : State → CluId → Failed × Bool × AnvilEntry) : Out :=
  issue i s fun t =>
    match t.cur with
    | .m c =>
      if (t.clu c).ctl.queue.length ≥ 4 || held (t.clu c).ctl then .next s
      else
        let (fs, poison, e) := k t c
        if poison then .next (t.consumePoison t.cur)
        else
          match worst fs with
          | some (d, _, n) => .next (t.raiseAt t.cur causeMemory d (BitVec.ofNat 64 n))
          | none => .next ((t.modCtl c fun x => x.enqueue e).advance i)
    | _ => .next s

/-- A queue entry of the issuing controller. -/
def anvilEntry (s : State) (c : CluId) (o : AnvilOp) : AnvilEntry :=
  { op := o, pc := (s.clu c).ctl.pc, sup := (s.clu c).ctl.mode != .user }

/-! ## `mma`, `mmaz` (R308) -/

/-- The capture and checks of a multiply. Where the formats have no pairing the shapes are checked with accumulators of four bytes and
with the columns of `ty` against those of `tz` alone (the model's choice, log entry 15). -/
def captureMma (zero : Bool) (t y z : BitVec 4) (x : BitVec 3) (m : BitVec 6) (s : State) (c : CluId) : Failed × Bool × AnvilEntry :=
  let clsz := (s.cluAlloc c).size
  let (tx, p1) := s.readTile c t.toNat 0
  let (ty, p2) := s.readTile c y.toNat 1
  let (tz, p3) := s.readTile c z.toNat 2
  let (fb, p4) := s.readBlock c x.toNat
  let b := fb.blk
  let steps := ((s.clu c).ctl.readM m.toNat).bits.toNat
  let pair := pairing b.afmt b.bfmt
  let acc := match pair with
    | some (_, f) => elemBytes f
    | none => 4
  let depth (t : RawTile) : Bool :=
    match pair with
    | some (kd, _) => steps = 0 || decide (t.cols ≠ steps * kd)
    | none => steps = 0 || decide (ty.cols ≠ tz.cols)
  let fs :=
    failIf (fb.reserved || pair.isNone || lenWrong b.afmt b.ablen || lenWrong b.bfmt b.bblen) 15 3 x.toNat
      ++ failIf (decide (tx.rows ≠ ty.rows) || decide (tx.cols ≠ tz.rows) || decide (128 < tx.rows) || decide (256 < tx.cols)) 13 0
          tx.number
      ++ failIf (depth ty || decide (128 < ty.rows)) 13 1 ty.number
      ++ failIf (depth tz || decide (256 < tz.rows)) 13 2 tz.number
      ++ tx.fails clsz (tx.cols * acc) 64 ++ operandFails clsz ty b.afmt b.ascale false fb
      ++ operandFails clsz tz b.bfmt b.bscale b.bsp fb ++ tx.spFails ++ ty.spFails
  (fs, p1 || p2 || p3 || p4,
    { anvilEntry s c (.mma zero) with x := tx.tile, y := ty.tile, z := tz.tile, blk := b, steps := steps })

/-- `MMA` (R308): Matrix multiply-accumulate over S k-steps. -/
def execMma (t : BitVec 4) (y : BitVec 4) (z : BitVec 4) (x : BitVec 3) (m : BitVec 6) (s : State) : Out :=
  anvilIssue (.mma t y z x m) s (fun _ => false) (captureMma false t y z x m)
/-- `MMAZ` (R308): Matrix multiply with the accumulator zeroed first. -/
def execMmaz (t : BitVec 4) (y : BitVec 4) (z : BitVec 4) (x : BitVec 3) (m : BitVec 6) (s : State) : Out :=
  anvilIssue (.mmaz t y z x m) s (fun _ => false) (captureMma true t y z x m)

/-! ## `azero`, `acvt`, `pmapply` (R310, R311, R322) -/

/-- `AZERO` (R310): Zero an accumulator tile. -/
def execAzero (t : BitVec 4) (s : State) : Out :=
  anvilIssue (.azero t) s (fun _ => false) fun s c =>
    let (tx, p) := s.readTile c t.toNat 0
    (failIf (decide (128 < tx.rows) || decide (512 < tx.cols)) 13 0 tx.number ++ tx.fails (s.cluAlloc c).size (4 * tx.cols) 64
        ++ tx.spFails,
      p, { anvilEntry s c .azero with x := tx.tile })

/-- Whether a code names an accumulator format (R311). -/
def isAcc (code : Nat) : Bool := code == 2 || code == 3 || code == 10

/-- The alignment of a convert-out destination: R33's for a TS format, and otherwise that of its elements (log entry 15). -/
def outAlign (code : Nat) : Nat := if code = 8 then 16 else if isTs code then 2 else max (elemBytes code) 1

/-- `ACVT` (R311): Convert an accumulator tile out to a format. -/
def execAcvt (t : BitVec 4) (y : BitVec 4) (x : BitVec 3) (s : State) : Out :=
  anvilIssue (.acvt t y x) s (fun _ => false) fun s c =>
    let clsz := (s.cluAlloc c).size
    let (tx, p1) := s.readTile c t.toNat 0
    let (ty, p2) := s.readTile c y.toNat 1
    let (fb, p3) := s.readBlock c x.toNat
    let b := fb.blk
    let ts := isTs b.afmt
    let fs :=
      failIf (fb.reserved || !isAcc b.bfmt || decide (10 < b.afmt) || decide (4 < b.rnd) || decide (b.bblen ≠ 0)
          || lenWrong b.afmt b.ablen) 15 3 x.toNat
        ++ failIf (decide (tx.rows ≠ ty.rows) || decide (tx.cols ≠ ty.cols) || decide (128 < tx.rows) || decide (256 < tx.cols)) 13 0
            tx.number
        ++ failIf (ts && ty.cols % 16 != 0) 13 1 ty.number
        ++ tx.fails clsz (tx.cols * elemBytes b.bfmt) 64 ++ ty.fails clsz (rowBytes b.afmt ty.cols) (outAlign b.afmt)
        ++ (if ts then
              failIf (b.ascale % 4 != 0) 13 3 x.toNat ++ spanFails clsz false b.ascale (4 * (tx.rows * (tx.cols / 16))) 3 x.toNat
            else [])
        ++ tx.spFails ++ ty.spFails
    (fs, p1 || p2 || p3, { anvilEntry s c .acvt with x := tx.tile, y := ty.tile, blk := b })

/-- Whether the first entries of a register are a permutation (R322). -/
def isPerm (p : List Nat) (n : Nat) : Bool := (List.range n).all fun i => (p.take n).contains i

/-- `PMAPPLY` (R303, R322): Permute a tile's rows or columns; x[2] is the side. -/
def execPmapply (t : BitVec 4) (x : BitVec 3) (s : State) : Out :=
  let j := x.toNat % 4
  let columns := x.getLsbD 2
  anvilIssue (.pmapply t x) s (fun k => k.indexBusy j) fun s c =>
    let (tx, p) := s.readTile c t.toNat 0
    let ctl := (s.clu c).ctl
    let wide := tget j false ctl.pmw
    let (n, other, most) := if columns then (tx.cols, tx.rows, 128) else (tx.rows, tx.cols, 256)
    (failIf (decide (128 < n) || decide (most < other) || !isPerm (ctl.perm j) n) 13 0 tx.number
        ++ tx.fails (s.cluAlloc c).size (tx.cols * (if wide then 8 else 4)) 16 ++ tx.spFails,
      p, { anvilEntry s c (.pmapply j columns) with x := tx.tile, perm := ctl.perm j, wide := wide })

/-! ## The factorisations (R314 to R321) -/

/-- The checks of a factorisation's n × n tile. -/
def squareFails (s : State) (c : CluId) (t : RawTile) (e : Nat) : Failed :=
  failIf (decide (t.cols ≠ t.rows) || decide (128 < t.rows)) 13 t.rank t.number ++ t.fails (s.cluAlloc c).size (t.cols * e) 16 ++ t.spFails

/-- A factorisation of one tile: x[2] is the precision, binary64 where it is 1, and x[1:0] the index j of `pmj` and `gej` (R303). -/
def factor (i : Instr) (t : BitVec 4) (x : BitVec 3) (op : Nat → Bool → AnvilOp) (s : State) : Out :=
  let wide := x.getLsbD 2
  anvilIssue i s (fun _ => false) fun s c =>
    let (tx, p) := s.readTile c t.toNat 0
    (squareFails s c tx (if wide then 8 else 4), p,
      { anvilEntry s c (op (x.toNat % 4) wide) with x := tx.tile, steps := tx.rows })

/-- A factorisation with a second tile. -/
def factor2 (i : Instr) (t y : BitVec 4) (x : BitVec 3) (op : Nat → Bool → AnvilOp) (ok : RawTile → RawTile → Bool) (s : State) : Out :=
  let wide := x.getLsbD 2
  let e := if wide then 8 else 4
  anvilIssue i s (fun _ => false) fun s c =>
    let (tx, p1) := s.readTile c t.toNat 0
    let (ty, p2) := s.readTile c y.toNat 1
    (squareFails s c tx e ++ failIf (!ok tx ty) 13 1 ty.number ++ ty.fails (s.cluAlloc c).size (ty.cols * e) 16 ++ ty.spFails, p1 || p2,
      { anvilEntry s c (op (x.toNat % 4) wide) with x := tx.tile, y := ty.tile, steps := tx.rows })

/-- `LUP` (R316): LU factorisation with partial pivoting. -/
def execLup (t : BitVec 4) (x : BitVec 3) : State → Out := factor (.lup t x) t x .lup
/-- `CHOL` (R317): Cholesky factorisation. -/
def execChol (t : BitVec 4) (x : BitVec 3) : State → Out := factor (.chol t x) t x .chol
/-- `QRH` (R318): Householder QR factorisation. -/
def execQrh (t : BitVec 4) (y : BitVec 4) (x : BitVec 3) : State → Out :=
  factor2 (.qrh t y x) t y x .qrh fun a b => b.rows == 1 && b.cols == a.cols
/-- `TRSM` (R303, R321): Triangular solve in place. Of f, bit 0 is the right side, bit 1 the upper triangle and bit 2 the unit diagonal. -/
def execTrsm (t : BitVec 4) (y : BitVec 4) (f : BitVec 3) (x : BitVec 3) : State → Out :=
  let right := f.getLsbD 0
  factor2 (.trsm t y f x) t y x (fun j w => .trsm j w (!right) (f.getLsbD 1) (f.getLsbD 2)) fun a b =>
    if right then b.cols == a.rows && b.rows ≤ 128 else b.rows == a.rows && b.cols ≤ 256

/-! ## `tpin`, `awt`, `gerd` (R312, R313, R323) -/

/-- The lines of 64 bytes of a range. -/
def linesOf (base n : Nat) : List Nat := if n = 0 then [] else (List.range ((base + n - 1) / 64 - base / 64 + 1)).map fun i => base / 64 + i

/-- The `.g` lines of some columns of an operand B tile, and of their scale words (R290, R312). -/
def operandLines (z : Tile) (b : Block) (col n : Nat) : List Nat :=
  (List.range z.rows).flatMap fun r =>
    (if z.sp then linesOf (z.base + r * z.stride + rowBytes b.bfmt col) (rowBytes b.bfmt n) else [])
      ++ (if isTs b.bfmt && b.bsp then linesOf (b.bscale + 4 * (r * (z.cols / 16) + col / 16)) (4 * (n / 16)) else [])

/-- A list of lines in ascending order without repeats. -/
def insertLine (l : Nat) : List Nat → List Nat
  | [] => [l]
  | x :: xs => if l < x then l :: x :: xs else if l = x then x :: xs else x :: insertLine l xs
/-- Lines in ascending address order (R312). -/
def sortLines (ls : List Nat) : List Nat := ls.foldr insertLine []

/-- `TPIN` (R312): Hand a tile's lines to the tile fetch unit for pinning. The tile is checked as an operand B (R279), and the format
block is checked as that of an `mma` (log entry 15). -/
def execTpin (t : BitVec 4) (x : BitVec 3) (s : State) : Out :=
  issue (.tpin t x) s fun s =>
    match s.cur with
    | .m c =>
      let (tx, p1) := s.readTile c t.toNat 0
      let (fb, p2) := s.readBlock c x.toNat
      let b := fb.blk
      let fs := failIf (fb.reserved || (pairing b.afmt b.bfmt).isNone || lenWrong b.afmt b.ablen || lenWrong b.bfmt b.bblen) 15 3 x.toNat
        ++ failIf (decide (256 < tx.rows)) 13 0 tx.number ++ operandFails (s.cluAlloc c).size tx b.bfmt b.bscale b.bsp fb
      if p1 || p2 then .next (s.consumePoison s.cur)
      else
        match worst fs with
        | some (d, _, n) => .next (s.raiseAt s.cur causeMemory d (BitVec.ofNat 64 n))
        | none =>
          let lines := if tx.sp then sortLines (operandLines tx.tile b 0 tx.cols) else []
          let sup := (s.clu c).ctl.mode != .user
          .next ((s.modCtl c fun k => { k with tpins := k.tpins ++ lines.map fun l => (l, sup, k.issued) }).advance (.tpin t x))
    | _ => .next s

/-- Whether an `awt` returns (R313). -/
def Ctl.reached (x : Ctl) (v : Nat) : Bool := x.queue.isEmpty || (x.done + 2 ^ 16 - v % 2 ^ 16) % 2 ^ 16 < 2 ^ 15

/-- `AWT` (R313): Wait for anvil progress. -/
def execAwt (m : BitVec 6) (s : State) : Out :=
  issue (.awt m) s fun s =>
    match s.cur with
    | .m c =>
      let x := (s.clu c).ctl
      let v := (x.readM m.toNat).bits.toNat % 2 ^ 16
      if x.reached v then .next (s.advance (.awt m)) else .next (s.setWait s.cur (some (.awt v)))
    | _ => .next s

/-- `AWT_RETURN` (R313): A waiting awt returns once done reaches its value or the anvil queue empties. -/
def execAwtReturn (c : CluId) (s : State) : Out :=
  let x := (s.clu c).ctl
  match x.wait with
  | some (.awt v) => if x.reached v then .next (s.retire (.m c)) else .next s
  | _ => .next s

/-- `GERD` (R323): Read a growth estimate into m. -/
def execGerd (j : BitVec 2) (m : BitVec 6) (s : State) : Out :=
  issue (.gerd j m) s fun t =>
    match t.cur with
    | .m c =>
      let x := (t.clu c).ctl
      if x.indexBusy j.toNat then .next s
      else
        .next ((t.writeReg t.cur .b64 m.toNat 1 fun _ => (tget j.toNat 0 x.ge).zeroExtend 64).advance (.gerd j m))
    | _ => .next s

/-! ## Pins (R291, R312) -/

/-- The pins that `tpin` holds; those held for the k-steps of a head that has ended go (R291). -/
def Clu.tpinsOnly (x : Clu) : List Pin := (x.pins.filter fun p => p.after.isSome).map fun p => { p with step := none }

/-! ## The end of a stream (R173, R296) -/

/-- A controller's stream stopped: its queue and what it waits for are dropped and every pin is released. -/
def State.haltController (s : State) (c : CluId) : State :=
  (s.modClu c fun x =>
    { x with pins := [], ctl := { x.ctl with
        ended := true, queue := [], seen := [], applying := none, region := none, trap := none, aaddr := none, afault := none, miss := none
        fetchMiss := none, wait := none, tpins := [], mode := .user, state := 0, kstep := 0, col := 0, row := 0 } }).dropWaiters
      fun r => r == .ctrl c || r == .tileFetch c

/-- A stopped controller freed: its registrations leave, and the anvil is free for the next group. -/
def State.freeController (s : State) (c : CluId) : State :=
  ((s.endRegistrations (.m c)).modCtl c fun x => { x with inUse := false, ended := false }).settleGroups c.pkg (s.clu c).ctl.launch

/-- The end of a controller's stream. -/
def State.endController (s : State) (c : CluId) : State := (s.haltController c).freeController c

/-- `EXIT` (R173): End the fragment's lanes, the c-slice, or the controller's stream once its anvil queue is empty and its leaves need not
wait (R438, R463). -/
def execExit (s : State) : Out :=
  issue .exit s fun t =>
    match t.cur with
    | .a g => .next ((t.modGang g fun x => x.endFragment).checkDeadlock g)
    | .c g => popRecord .exit t g fun _ s => s.modGang g fun x => { x.popDq with cEnd := true }
    | .m c => if (t.clu c).ctl.queue.isEmpty && !t.leaveWaits (.m c) then .next (t.endController c) else .next s

end Sys2Proof.Machine
end

