-- ==== Sys2Proof/Machine/AnvilRun.lean ====
section
/-! DEFINITION. What the anvil and the tile fetch unit do (R38 to R40, R288 to R291, R295, R297, R307 to R322): k-steps, columns
and queued operations, each applied whole or not at all. -/

namespace Sys2Proof.Machine

/-! ## The head of the queue (R287, R288, R292, R295) -/

/-- The head completes (R287). -/
def Ctl.finish (x : Ctl) : Ctl :=
  { x with
    done := (x.done + 1) % 2 ^ 16, queue := x.queue.drop 1, kstep := 0, col := 0, row := 0
    state := if (x.queue.drop 1).isEmpty then 0 else 1 }

/-- The head, where the anvil is not stopped by a fault. A pre-emption stops it between its steps (R288, R289). -/
def Ctl.head (x : Ctl) : Option AnvilEntry := if x.inUse && (!x.preempted || x.begun) && x.state != 3 then x.queue.head? else none

/-- A fault of the head: state 3, and a trap that awaits delivery (R292, R293). A trap of the controller's own goes first. -/
def State.anvilFault (s : State) (c : CluId) (e : AnvilEntry) (cause detail : Nat) (info : DWord) : State :=
  let r : Raised := ⟨cause, detail, info, 1, false, 4⟩
  s.modCtl c fun x =>
    if x.trap.isSome then { x with afault := some (r, e.pc), state := 3 } else { x with trap := some r, aaddr := some e.pc, state := 3 }

/-- Poison consumed by the anvil (R295): the region restarts up to three times, and otherwise cause 10 is raised. -/
def State.anvilPoison (s : State) (c : CluId) (e : AnvilEntry) : State :=
  match (s.clu c).ctl.region with
  | some (pc, n) => if n < 3 then s.restartCtl c pc n else s.anvilFault c e causePoison 0 0
  | none => s.anvilFault c e causePoison 0 0

/-- A cluster flagged and reported after a repeated mismatch (R297, R396). -/
def State.flagCluster (s : State) (c : CluId) : State :=
  (s.modDie c.dieId fun x => { x with remap := tset c.clu { x.remapOf c.clu with flagged := true } x.remap }).interrupt c.pkg 80

/-- The comparison of R297 around what a step would apply. -/
def State.anvilChecked (s : State) (c : CluId) (e : AnvilEntry) (k : State → State) : State :=
  if s.glitch ≥ 2 then ({ s with glitch := s.glitch - 2 }.flagCluster c).anvilFault c e causeSilent 0 0
  else if s.glitch = 1 then k (s.mismatchOnce (.m c))
  else k s

/-! ## Reading and writing tiles -/

/-- The pin of a line. -/
def Clu.pin (x : Clu) (ctx vline : Nat) : Option Pin := x.pins.find? fun p => p.ctx == ctx && p.vline == vline

/-- Bytes of an operand: from cluster memory, or from the pinned lines as they stand now (R291). -/
def State.operandBytes (s : State) (c : CluId) (g : Bool) (addr n : Nat) : List Byte × Bool :=
  if g then
    let x := s.clu c
    let key (a : Nat) : Option Nat := (x.pin x.ctl.ctx (a / 64)).map fun p => p.pline * 64 + a % 64
    ((List.range n).map fun i => match key (addr + i) with
        | some k => s.readByte k
        | none => 0,
      (granules addr n).any fun gr => match key (16 * gr) with
        | some k => s.marks.contains (k / 16) || decide (keyRegion k = 0 ∧ paKind (keyPa k) = .nothing)
        | none => false)
  else s.cluBytes c addr n

/-- The exact value of an element of a format that is no TS block format (R15, R24). -/
def elemValue (code bits : Nat) : FV :=
  let t : Option Ty := if code = 9 then some .i8 else if code = 10 then some .i32 else none
  match t with
  | some t => let v := intOf t bits; .fin (v < 0) v.natAbs 0
  | none =>
    match copyFormat code with
    | some t => (Fmt.ofTy t).value bits
    | none => .nan

/-- The integer of an exact value. -/
def FV.toInt : FV → Int
  | .fin neg m x => let v : Int := (m * 2 ^ x.toNat : Nat); if neg then -v else v
  | _ => 0

/-- An accumulator element with a k-step's exact sum added and rounded once by `.rne` (R38, R275, R308), which keeps within R39's bound
(log entry 35). -/
def accumulate (acc : Nat) (fresh : Bool) (old : Nat) (p : FV) : Nat :=
  if acc = 10 then bitsOfInt .i32 ((if fresh then 0 else (old : Int)) + p.toInt)
  else
    let F := if acc = 3 then Fmt.f64 else Fmt.f32
    F.ofValue .rne ((if fresh then .fin false 0 0 else F.value old).add .rne p)

/-- The elements of some bytes. -/
def elemsOf (code n : Nat) (bs : List Byte) : List FV :=
  let e := elemBytes code
  (List.range n).map fun i => elemValue code (numOf ((bs.drop (e * i)).take e))

/-- The elements of some TS blocks with their scale words (R30, R33). -/
def blocksOf (code n : Nat) (bs sc : List Byte) : List FV :=
  let k := blockBits code
  (List.range n).flatMap fun j =>
    let v := numOf ((bs.drop (blockBytes code * j)).take (blockBytes code))
    let w : Word := BitVec.ofNat 32 (numOf ((sc.drop (4 * j)).take 4))
    (List.range 16).map fun i => tsValue k w i (v / 2 ^ ((k + 1) * i) % 2 ^ (k + 1))

/-- The kd elements of one row of an operand for one k-step, and whether any of it is marked. -/
def State.operandRow (s : State) (c : CluId) (t : Tile) (code scale : Nat) (scaleG : Bool) (kd step r : Nat) : List FV × Bool :=
  let (bs, p1) := s.operandBytes c t.sp (t.base + r * t.stride + rowBytes code (step * kd)) (rowBytes code kd)
  if isTs code then
    let (sc, p2) := s.operandBytes c scaleG (scale + 4 * (r * (t.cols / 16) + step * kd / 16)) (4 * (kd / 16))
    (blocksOf code (kd / 16) bs sc, p1 || p2)
  else (elemsOf code kd bs, p1)

/-- An element of a tile in cluster memory. -/
def State.tileElem (s : State) (c : CluId) (t : Tile) (e r j : Nat) : Nat × Bool :=
  let (bs, p) := s.cluBytes c (t.base + r * t.stride + j * e) e
  (numOf bs, p)

/-- One adder operation (R275): each element's sum is added to what the element holds at that moment, in a single step. A mark that has
come to its granule since the k-step began stays (log entry 15). -/
def State.addAt (s : State) (k acc : Nat) (sums : List FV) : State :=
  let size := elemBytes acc
  sums.zipIdx.foldl (fun s p =>
    let a := k + size * p.2
    s.rawWrite a (bytesOfNum (accumulate acc false (numOf (s.readBytes a size)) p.1) size) false) s

/-- A write of a step performed. -/
def State.put (s : State) : Put → State
  | .write lo k bs => { s with mem := memPuts k bs s.mem, marks := marksAfter lo (k + bs.length - lo) false s.marks }
  | .add k acc sums => s.addAt k acc sums

/-- Several writes of a step performed, oldest first. -/
def State.puts (s : State) (ws : List Put) : State := ws.foldl State.put s

/-- The key of an offset in a cluster group's memory. -/
def State.cluPlace (s : State) (c : CluId) (off : Nat) : Nat := cluKey c ((s.cluAlloc c).base + off)

/-- A write of bytes in a cluster group's memory. -/
def State.cluPut (s : State) (c : CluId) (off : Nat) (bs : List Byte) : Put := .write (s.cluPlace c off) (s.cluPlace c off) bs

/-- The writes of elements of a tile, each named by its row and column. -/
def State.putElems (s : State) (c : CluId) (t : Tile) (e : Nat) (vs : List (Nat × Nat × Nat)) : List Put :=
  vs.map fun v => s.cluPut c (t.base + v.1 * t.stride + v.2.1 * e) (bytesOfNum v.2.2 e)

/-- A row of a tile from its first column on, as one write, which clears the mark of every granule that it replaces (R197). -/
def State.putRow (s : State) (c : CluId) (t : Tile) (e r : Nat) (vs : List Nat) : Put :=
  s.cluPut c (t.base + r * t.stride) (vs.flatMap fun v => bytesOfNum v e)

/-- A list in parts of some length. -/
def partsOf {α : Type} (n : Nat) (xs : List α) : List (List α) :=
  (List.range ((xs.length + n - 1) / n)).map fun j => (xs.drop (n * j)).take n

/-- A row of an accumulator, 64 bytes in each write (R275): started afresh, or added to what it holds. -/
def State.putSums (s : State) (c : CluId) (t : Tile) (acc r : Nat) (fresh : Bool) (ps : List FV) : List Put :=
  (partsOf (64 / elemBytes acc) ps).zipIdx.map fun p =>
    let off := t.base + r * t.stride + 64 * p.2
    if fresh then s.cluPut c off (p.1.flatMap fun v => bytesOfNum (accumulate acc true 0 v) (elemBytes acc))
    else .add (s.cluPlace c off) acc p.1

/-- The rows and columns of a rectangle. -/
def cells (rows cols : Nat) : List (Nat × Nat) := (List.range rows).flatMap fun r => (List.range cols).map fun j => (r, j)

/-! ## The steps of the anvil (R286, R288, R305, R306)

A step of the head reads the sectors of what it works on, each at a moment of its own, computes on what it has read, and then writes
its results one after another; with the last of them it is done. -/

/-- Whether an instruction is no multiply and no factorisation. -/
def AnvilEntry.queued (e : AnvilEntry) : Bool :=
  match e.op with
  | .azero => true
  | .acvt => true
  | .pmapply _ _ => true
  | _ => false

/-- Whether an instruction goes row by row, each read in full after the rows before it are written (R311, R322). -/
def AnvilEntry.byRow (e : AnvilEntry) : Bool :=
  match e.op with
  | .acvt => true
  | .pmapply _ columns => columns
  | _ => false

/-- The tiles in cluster memory that an instruction's step reads before it writes; an accumulator is read as it is added to (R275). -/
def AnvilEntry.readTiles (e : AnvilEntry) : List Tile :=
  match e.op with
  | .mma _ => [e.y, e.z].filter fun t => !t.sp
  | .azero => []
  | .trsm _ _ _ _ _ => [e.x, e.y]
  | _ => [e.x]

/-- The lines that hold the operand of a k-step outside cluster memory. -/
def AnvilEntry.linesAt (e : AnvilEntry) (step : Nat) : List Nat :=
  match e.op, pairing e.blk.afmt e.blk.bfmt with
  | .mma _, some (kd, _) => if step < e.steps then operandLines e.z e.blk (step * kd) kd else []
  | _, _ => []

/-- The sectors of the tiles, of the scales and of the pinned lines that the head's step works on: of an instruction that goes row by row,
those of its next row. -/
def State.sectors (s : State) (c : CluId) (e : AnvilEntry) : List Nat :=
  let x := s.clu c
  let at_ (off n : Nat) : List Nat := if n = 0 then [] else granules (cluKey c ((s.cluAlloc c).base + off)) n
  let scales (code addr : Nat) (t : Tile) : List Nat := if isTs code then at_ addr (4 * (t.rows * (t.cols / 16))) else []
  e.readTiles.flatMap (fun t => if e.byRow then at_ (t.base + x.ctl.row * t.stride) t.stride else at_ t.base (t.rows * t.stride))
    ++ (match e.op with
      | .mma _ => scales e.blk.afmt e.blk.ascale e.y ++ if e.blk.bsp then [] else scales e.blk.bfmt e.blk.bscale e.z
      | _ => [])
    ++ (e.linesAt x.ctl.kstep).flatMap fun l => match x.pin x.ctl.ctx l with
      | some p => (List.range 4).map (4 * p.pline + ·)
      | none => []

/-- The sectors that are still to be read. -/
def State.unread (s : State) (c : CluId) (e : AnvilEntry) : List Nat :=
  (s.sectors c e).filter fun g => !(s.clu c).ctl.seen.any fun x => x.1 == g

/-- A free choice of some of them read now, as they stand. -/
def State.readSectors (s : State) (c : CluId) (e : AnvilEntry) : State :=
  let todo := s.unread c e
  let now := (todo.zipIdx.filter fun g => Config.choice (s.clock + g.2) 2 % 2 = 1).map (·.1)
  { s.modCtl c fun x => { x with seen := x.seen ++ now.map fun g => (g, s.readBytes (16 * g) 16, s.marks.contains g) } with
    clock := s.clock + todo.length }

/-- The machine as the head's step has read it. -/
def State.view (s : State) (c : CluId) : State :=
  (s.clu c).ctl.seen.foldl (fun s x => s.rawWrite (16 * x.1) x.2.1 x.2.2) s

/-- What a step of the head comes to: nothing of it is applied (R288, R315, R320), or what it writes. -/
inductive StepEnd where
  | poison
  | fault (detail : Nat) (info : DWord)
  | apply (a : Applying)

/-- What the head's step has computed, once it has read all: it stops the head, or what it writes is to be applied, for a k-step and a
column after the comparison of R297. After poison an instruction that goes row by row begins again at its first row (log entry 15). -/
def State.endStep (s : State) (c : CluId) (e : AnvilEntry) (z : StepEnd) : State :=
  let s := s.modCtl c fun x => { x with seen := [] }
  match z with
  | .poison => (s.modCtl c fun x => { x with row := 0 }).anvilPoison c e
  | .fault d v => s.anvilFault c e causeMemory d v
  | .apply a =>
    let go (s : State) : State := s.modCtl c fun x => { x with applying := some a }
    if e.queued then go s else s.anvilChecked c e go

/-! ## The tile fetch unit (R290, R291) -/

/-- Whether a pin serves an instruction: one whose page was checked for supervisor mode alone serves no other (R288, R290). -/
def Pin.serves (p : Pin) (e : AnvilEntry) : Bool := !p.sup || e.sup

/-- The first line of a k-step that is not pinned for it; one that is pinned for an earlier step or by `tpin` counts (R291). -/
def Clu.lineWanted (x : Clu) (e : AnvilEntry) (step : Nat) : Option Nat :=
  (e.linesAt step).find? fun l => !(x.pin x.ctl.ctx l).any fun p => p.serves e

/-- The pins of a k-step's lines held for it (R291). -/
def Clu.claimPins (x : Clu) (e : AnvilEntry) (step : Nat) : Clu :=
  let ls := e.linesAt step
  { x with pins := x.pins.map fun p =>
      if p.ctx == x.ctl.ctx && ls.contains p.vline then { p with step := some (max step (p.step.getD 0)) } else p }

/-- How many anvil instructions were issued before the head. -/
def Ctl.headIndex (x : Ctl) : Nat := x.issued - x.queue.length

/-- The pins after a k-step (R291, R312): what was held for it is released, and a `tpin` pin of a line that it read where the head is
later than the `tpin`. -/
def Clu.releasePins (x : Clu) (e : AnvilEntry) (step : Nat) : List Pin :=
  let ls := e.linesAt step
  x.pins.filterMap fun p =>
    let read := p.ctx == x.ctl.ctx && ls.contains p.vline
    let after := if read && p.after.any (· ≤ x.ctl.headIndex) then none else p.after
    let held := if p.step.any (· ≤ step) then none else p.step
    if after.isNone && held.isNone then none else some { p with step := held, after := after }

/-- Room for one more pin (R291): a full budget gives up its oldest `tpin` pin. The lines of the next k-step alone may go beyond
it (log entry 15). -/
def Clu.pinRoom (x : Clu) (next : Bool) (step : Nat) : Option Clu :=
  if x.pins.length < 4096 then some x
  else
    match x.pins.find? fun p => p.step.isNone with
    | some p => some { x with pins := x.pins.erase p }
    | none => if next && x.pins.all (fun p => p.step == some step) then some x else none

/-- What the translation of a line gives. -/
inductive LineEnd where
  | miss
  | denied
  | at (k lg : Nat)
deriving DecidableEq, Repr

/-- A `.g` line translated at the cluster TLB or the die TLB (R290). -/
def State.lineTranslate (s : State) (c : CluId) (l : Nat) (sup : Bool) : LineEnd :=
  match s.tlbLookup c (s.clu c).ctl.ctx (64 * l) with
  | none => .miss
  | some e => if e.permits (if sup then .supervisor else .user) (true, false) then .at (hbmKey c.pkg (e.pa (64 * l))) e.lg else .denied

/-- A line pinned, in place of a pin of it that did not serve; what `tpin` held of that stays held. -/
def Clu.addPin (x : Clu) (l k lg : Nat) (sup : Bool) (step after : Option Nat) : Clu :=
  let held := (x.pin x.ctl.ctx l).bind (·.after)
  { x with pins := (x.pins.filter fun p => !(p.ctx == x.ctl.ctx && p.vline == l))
      ++ [⟨x.ctl.ctx, l, k / 64, step, if held.isSome then held else after, sup, lg⟩] }

/-- The pins of the lines of every k-step from the next one to another held for them, so that none gives way to a fetch ahead (R291). -/
def Clu.claimTo (x : Clu) (e : AnvilEntry) (step : Nat) : Clu :=
  ((List.range 3).map (x.ctl.kstep + ·)).foldl (fun x n => if n ≤ step then x.claimPins e n else x) x

/-- A line of a k-step fetched. A fault counts only where the line's k-step is the next one. A fault's info and a miss's address are those
of the line (the model's choice, log entry 15). -/
def State.fetchFor (s : State) (c : CluId) (e : AnvilEntry) (step l : Nat) (next : Bool) : State :=
  match s.lineTranslate c l e.sup with
  | .miss => s.modCtl c fun x => { x with fetchMiss := some (64 * l, 3) }
  | .denied => if next then s.anvilFault c e causeMemory 4 (BitVec.ofNat 64 (64 * l)) else s
  | .at k lg =>
    if s.placeWaits k 64 then s
    else
      match ((s.clu c).claimTo e step).pinRoom next step with
      | some x => s.modClu c fun _ => x.addPin l k lg e.sup (some step) none
      | none => s

/-- A line of a `tpin` tile (R312): skipped where it cannot be translated, and left where there is no room. One that an earlier `tpin`
still holds stays that one's (the model's choice, log entry 15). -/
def State.fetchTpin (s : State) (c : CluId) : State :=
  match (s.clu c).ctl.tpins with
  | [] => s
  | (l, sup, n) :: rest =>
    let x := s.clu c
    if x.pins.length ≥ 4096 then s.modCtl c fun k => { k with tpins := [] }
    else
      let t := s.modCtl c fun k => { k with tpins := rest }
      let found := match s.lineTranslate c l sup with
        | .miss =>
          match s.walk c.pkg x.ctl.ctx (64 * l) with
          | .mapped e => if e.permits (if sup then .supervisor else .user) (true, false) then some (hbmKey c.pkg (e.pa (64 * l)), e.lg) else none
          | .miss _ _ _ => none
        | .at k lg => some (k, lg)
        | .denied => none
      match found with
      | some (k, lg) =>
        if s.placeWaits k 64 then s
        else
          match x.pin x.ctl.ctx l with
          | some p => t.modClu c fun x => { x with pins := x.pins.map fun q => if q = p then { q with after := some (q.after.getD n) } else q }
          | none => t.modClu c fun x => x.addPin l k lg sup none (some n)
      | none => t

/-- `TILE_FETCH_LINE` (R290): The tile fetch unit translates, reads and pins an operand-B line, or meets a fault that stops the
anvil. It works at most two k-steps ahead. -/
def execTileFetchLine (c : CluId) (s : State) : Out :=
  let x := s.clu c
  if x.ctl.fetchMiss.isSome then .next s
  else
    match x.ctl.head with
    | none => .next (s.fetchTpin c)
    | some e =>
      let k := x.ctl.kstep
      match [k, k + 1, k + 2].filterMap fun n => (x.lineWanted e n).map fun l => (n, l) with
      | (n, l) :: _ => .next (s.fetchFor c e n l (n == k))
      | [] => .next (s.fetchTpin c)

/-! ## A k-step (R308, R38 to R40) -/

/-- The exact sum of the products of two rows (R38); an exact zero sum is -0 only where every product is (R23). -/
def dotExact (a b : List FV) : FV :=
  match List.zipWith FV.mul a b with
  | [] => .fin false 0 0
  | p :: ps => ps.foldl (fun x y => x.add .rne y) p

/-- The rows of an operand for one k-step, and whether any is marked. -/
def State.operandRows (s : State) (c : CluId) (t : Tile) (code scale : Nat) (scaleG : Bool) (kd step : Nat) : List (List FV) × Bool :=
  let rows := (List.range t.rows).map fun r => s.operandRow c t code scale scaleG kd step r
  (rows.map (·.1), rows.any (·.2))

/-- Whether an element of a row of a tile is marked. -/
def State.rowMarked (s : State) (c : CluId) (t : Tile) (e r : Nat) : Bool := (s.cluBytes c (t.base + r * t.stride) (t.cols * e)).2

/-- Whether any element of a tile is marked. -/
def State.tileMarked (s : State) (c : CluId) (t : Tile) (e : Nat) : Bool :=
  (List.range t.rows).any fun r => s.rowMarked c t e r

/-- One k-step of a multiply on what it has read of its operands: what it adds to the accumulator, or poison met there or in the
accumulator as it stands (R308). An `mmaz` that a handler sets back to k-step 0 starts from +0 there again (the model's choice, log
entry 15). -/
def State.kstep (s : State) (c : CluId) (e : AnvilEntry) (zero : Bool) (kd acc : Nat) (accMarked : Bool) : StepEnd :=
  let step := (s.clu c).ctl.kstep
  let b := e.blk
  let (as, p1) := s.operandRows c e.y b.afmt b.ascale false kd step
  let (bs, p2) := s.operandRows c e.z b.bfmt b.bscale b.bsp kd step
  let fresh := zero && step == 0
  if p1 || p2 || (!fresh && accMarked) then .poison
  else
    .apply { writes := (List.range e.x.rows).flatMap fun r =>
      s.putSums c e.x acc r fresh ((List.range e.x.cols).map fun j => dotExact (as.getD r []) (bs.getD j [])) }

/-- Whether the page that the tile fetch unit misses awaits a replay (R287, R290). -/
def State.awaitsReplay (s : State) (c : CluId) : Bool :=
  (s.die c.dieId).merge.any fun m => m.2.waiters.contains (.tileFetch c) && (m.2.state == .buffered || m.2.state == .dropped)

/-- The head's step done (R287, R311, R315, R322): the next k-step, column or row follows, or the head completes. -/
def State.stepDone (s : State) (c : CluId) (e : AnvilEntry) (a : Applying) : State :=
  s.modClu c fun x =>
    let k := { x.ctl with applying := none }
    match e.op, a.column with
    | .mma _, _ =>
      { x with
        pins := x.releasePins e x.ctl.kstep
        ctl := if k.kstep + 1 ≥ e.steps then k.finish else { k with kstep := k.kstep + 1, state := 1 } }
    | _, some (j, p, g, growth) =>
      let k := { k with ge := tset j g k.ge, pm := tset j p k.pm }
      { x with ctl := if k.col + 1 ≥ e.steps then k.finish
                      else { k with col := k.col + 1, queue := { e with growth := some growth } :: k.queue.drop 1 } }
    | _, none => { x with ctl := if e.byRow && k.row + 1 < e.x.rows then { k with row := k.row + 1 } else k.finish }

/-- A free number of the writes of the head's step performed, at least one where there is one; after the last the step is done. -/
def State.applySome (s : State) (c : CluId) (e : AnvilEntry) (a : Applying) : State :=
  let n := a.writes.length
  let k := if n = 0 then 0 else 1 + Config.choice s.clock n % n
  let s := { s with clock := s.clock + 1 }.puts (a.writes.take k)
  let b := { a with writes := a.writes.drop k }
  if b.writes.isEmpty then s.stepDone c e b else s.modCtl c fun x => { x with applying := some b }

/-- An event of a step that is not being written yet: some of its sectors are read, or it is computed on what has been read. -/
def State.anvilStep (s : State) (c : CluId) (e : AnvilEntry) (f : State → StepEnd) : State :=
  if (s.unread c e).isEmpty then s.endStep c e (f (s.view c)) else s.readSectors c e

/-- `ANVIL_KSTEP` (R288): One k-step runs with its lines pinned, is checked by checksums and applied once, and a head that finishes
completes. Without its lines, and with the fetch of one waiting for a replay, the anvil waits in state 2. -/
def execAnvilKstep (c : CluId) (s : State) : Out :=
  let x := s.clu c
  match x.ctl.head with
  | none => .next s
  | some e =>
    match e.op, pairing e.blk.afmt e.blk.bfmt, x.ctl.applying with
    | .mma _, some _, some a => .next (s.applySome c e a)
    | .mma zero, some (kd, acc), none =>
      if x.ctl.kstep ≥ e.steps then .next (s.modClu c fun x => { x with ctl := x.ctl.finish, pins := x.tpinsOnly })
      else
        match x.lineWanted e x.ctl.kstep with
        | some _ => .next (s.modCtl c fun k => { k with state := if s.awaitsReplay c then 2 else k.state })
        | none =>
          if (e.linesAt x.ctl.kstep).any fun l => (x.pin x.ctl.ctx l).any fun p => s.placeWaits (64 * p.pline) 64 then .next s
          else .next ((s.modClu c fun x => x.claimPins e x.ctl.kstep).anvilStep c e fun v => v.kstep c e zero kd acc (s.tileMarked c e.x (elemBytes acc)))
    | _, _, _ => .next s

/-! ## Queued operations (R310, R311, R322) -/

/-- An accumulator element converted (R311). -/
def convertOut (acc out : Nat) (r : Rnd) (bits : Nat) : Nat :=
  if acc = 10 && out = 10 then bits
  else
    let v := elemValue acc bits
    if out = 9 || out = 10 then
      let t : Ty := if out = 9 then .i8 else .i32
      if acc = 10 then
        let (lo, hi) := intRange t
        bitsOfInt t (max lo (min hi (intOf .i32 bits)))
      else bitsOfInt t (floatToInt (if acc = 3 then Fmt.f64 else Fmt.f32) t r bits)
    else
      match copyFormat out with
      | some t => (Fmt.ofTy t).ofValue r v
      | none => 0

/-- Element fields packed into a block (R33). -/
def packBlock (code : Nat) (fs : List Nat) : List Byte :=
  let w := blockBits code + 1
  bytesOfNum ((fs.zipIdx.map fun p => p.1 * 2 ^ (w * p.2)).foldl (· + ·) 0) (blockBytes code)

/-- The writes of one row of `acvt`, in their order: of a TS format each block and its scale word in turn, of which the last block to reach
a granule that the row's blocks replace between them clears its mark. -/
def State.acvtRow (s : State) (c : CluId) (e : AnvilEntry) (r : Nat) : List Put :=
  let b := e.blk
  let row := (List.range e.x.cols).map fun j => (s.tileElem c e.x (elemBytes b.bfmt) r j).1
  if isTs b.afmt then
    (partsOf 16 row).zipIdx.flatMap fun p =>
      let v := tsEncode (blockBits b.afmt) (Rnd.code b.rnd) (p.1.map (elemValue b.bfmt))
      let first := e.y.base + r * e.y.stride
      [.write (s.cluPlace c first) (s.cluPlace c (first + p.2 * blockBytes b.afmt)) (packBlock b.afmt v.2),
        s.cluPut c (b.ascale + 4 * (r * (e.x.cols / 16) + p.2)) (bytesOfNum v.1.toNat 4)]
  else [s.putRow c e.y (elemBytes b.afmt) r (row.map (convertOut b.bfmt b.afmt (Rnd.code b.rnd)))]

/-- The writes of a row of a `pmapply` of columns: element c is the old element that the permutation names (R322). -/
def State.permRow (s : State) (c : CluId) (e : AnvilEntry) (size r : Nat) : List Put :=
  s.putElems c e.x size ((List.range e.x.cols).map fun j => (r, j, (s.tileElem c e.x size r (e.perm.getD j 0)).1))

/-- What a queued operation that is no multiply and no factorisation writes, or poison met: an `acvt` or a `pmapply` of columns its next
row, and any other all that it has. -/
def State.queuedOp (s : State) (c : CluId) (e : AnvilEntry) : StepEnd :=
  let size := if e.wide then 8 else 4
  let r := (s.clu c).ctl.row
  let run (marked : Bool) (ws : List Put) : StepEnd := if marked then .poison else .apply { writes := ws }
  match e.op with
  | .azero => run false ((List.range e.x.rows).map fun r => s.cluPut c (e.x.base + r * e.x.stride) (bytesOfNum 0 (4 * e.x.cols)))
  | .acvt => run (s.rowMarked c e.x (elemBytes e.blk.bfmt) r) (s.acvtRow c e r)
  | .pmapply _ true => run (s.rowMarked c e.x size r) (s.permRow c e size r)
  | .pmapply _ false =>
    run (s.tileMarked c e.x size) (s.putElems c e.x size ((cells e.x.rows e.x.cols).map fun q =>
      (q.1, q.2, (s.tileElem c e.x size (e.perm.getD q.1 0) q.2).1)))
  | _ => .apply {}

/-- `ANVIL_QUEUED_OPERATION` (R286): The anvil performs a queued azero, acvt or pmapply at the head of the anvil queue, writes its
tile, row by row where its pseudocode does (R311, R322), and completes it, raising done. -/
def execAnvilQueuedOperation (c : CluId) (s : State) : Out :=
  match (s.clu c).ctl.head with
  | none => .next s
  | some e =>
    if !e.queued then .next s
    else
      match (s.clu c).ctl.applying with
      | some a => .next (s.applySome c e a)
      | none => .next (s.anvilStep c e fun s => s.queuedOp c e)

/-! ## Factorisations (R314 to R321) -/

/-- A tile's elements as bits. -/
abbrev Mat : Type := List (List Nat)
/-- An element. -/
def Mat.at (a : Mat) (i j : Nat) : Nat := (a.getD i []).getD j 0
/-- A matrix from its elements. -/
def Mat.mk (rows cols : Nat) (f : Nat → Nat → Nat) : Mat := (List.range rows).map fun i => (List.range cols).map fun j => f i j

/-- The format of a factorisation. -/
def factFmt (wide : Bool) : Fmt := if wide then Fmt.f64 else Fmt.f32
/-- A value with its sign inverted. -/
def Fmt.flip (F : Fmt) (b : Nat) : Nat := F.signed (!F.neg b) (F.mag b)
/-- Whether some bits are a zero. -/
def Fmt.isZero (F : Fmt) (b : Nat) : Bool := F.mag b == 0

/-- A magnitude as an exact value. -/
def FV.abs : FV → FV
  | .nan => .nan
  | .inf _ => .inf false
  | .fin _ m x => .fin false m x

/-- Whether a magnitude exceeds another; neither is a NaN. -/
def FV.exceeds : FV → FV → Bool
  | .inf _, .inf _ => false
  | .inf _, _ => true
  | .fin _ a x, .fin _ b y => decide (a * 2 ^ (x - min x y).toNat > b * 2 ^ (y - min x y).toNat)
  | _, _ => false

/-- The larger of two magnitudes; one that has met a NaN stays one (R319). -/
def FV.larger (a b : FV) : FV :=
  match a, b with
  | .nan, _ => .nan
  | _, .nan => .nan
  | _, _ => if b.exceeds a then b else a

/-- The largest magnitude of some bits. -/
def maxMag (F : Fmt) (bs : List Nat) : FV := bs.foldl (fun m b => m.larger (F.value b).abs) (.fin false 0 0)

/-- The growth estimate (R319): the quotient rounded once to FP32. -/
def growthBits (amax gmax : FV) : Nat :=
  match amax, gmax with
  | .nan, _ => Fmt.f32.nan
  | _, .nan => Fmt.f32.nan
  | .inf _, .inf _ => Fmt.f32.nan
  | .inf _, _ => 0
  | _, .inf _ => Fmt.f32.infBits
  | .fin _ a x, .fin _ g y => if g = 0 then 0 else if a = 0 then Fmt.f32.infBits else Fmt.f32.round .rne false g a (y - x)

/-- What a column does: a fault's detail, or what it writes in the order of its pseudocode, each by row, column and value (R305, R306),
the maximum it adds, and for `qrh` tau and for `lup` the row swapped. -/
inductive ColumnEnd where
  | fault (detail : Nat)
  | done (ws : List (Nat × Nat × Nat)) (g : FV) (tau : Option Nat) (swap : Nat)

/-- One column of `lup` (R316). -/
def lupColumn (F : Fmt) (a : Mat) (n k : Nat) : ColumnEnd :=
  let beats (i p : Nat) : Bool :=
    !F.isNaN (a.at p k) && (F.isNaN (a.at i k) || decide (F.mag (a.at i k) > F.mag (a.at p k)))
  let p := ((List.range n).filter (k < ·)).foldl (fun p i => if beats i p then i else p) k
  if F.isZero (a.at p k) then .fault 17
  else
    let b := Mat.mk n n fun i j => a.at (if i = k then p else if i = p then k else i) j
    let l := Mat.mk n n fun i j => if k < i && j = k then F.div .rne (b.at i k) (b.at k k) else b.at i j
    let u := Mat.mk n n fun i j => if k < i && k < j then F.fma .rne (F.flip (l.at i k)) (l.at k j) (l.at i j) else l.at i j
    let below := (List.range n).filter (k < ·)
    .done ((if p = k then [] else (List.range n).flatMap fun j => [(k, j, b.at k j), (p, j, b.at p j)])
        ++ below.map (fun i => (i, k, l.at i k)) ++ below.flatMap fun i => below.map fun j => (i, j, u.at i j))
      (maxMag F (((List.range n).filter (k ≤ ·)).map fun j => u.at k j)) none p

/-- One column of `chol` (R317). -/
def cholColumn (F : Fmt) (a : Mat) (n k : Nat) : ColumnEnd :=
  let d := a.at k k
  if F.isNaN d || F.isZero d || F.neg d then .fault 18
  else
    let r := F.sqrt .rne d
    let l := Mat.mk n n fun i j => if j = k then (if i = k then r else if k < i then F.div .rne (a.at i k) r else a.at i j) else a.at i j
    let u := Mat.mk n n fun i j => if k < j && j ≤ i then F.fma .rne (F.flip (l.at i k)) (l.at j k) (l.at i j) else l.at i j
    let g := maxMag F (((List.range n).filter (k ≤ ·)).map fun i => u.at i k)
    let below := (List.range n).filter (k < ·)
    .done ((k, k, r) :: below.map (fun i => (i, k, l.at i k))
        ++ below.flatMap fun j => (below.filter (j ≤ ·)).map fun i => (i, j, u.at i j)) (g.mul g) none k

/-- One column of `qrh` (R318). -/
def qrhColumn (F : Fmt) (a : Mat) (n k : Nat) : ColumnEnd :=
  let below := (List.range n).filter (k < ·)
  let sg := below.foldl (fun x i => F.fma .rne (a.at i k) (a.at i k) x) 0
  let gOf (m : Mat) : FV := maxMag F (((List.range n).filter (k ≤ ·)).map fun j => m.at k j)
  if F.isZero sg then .done [] (gOf a) (some 0) k
  else
    let al := a.at k k
    let nm := F.sqrt .rne (F.fma .rne al al sg)
    let be := if F.neg al then nm else F.flip nm
    let tau := F.div .rne (F.sub .rne be al) be
    let dv := F.sub .rne al be
    let v := Mat.mk n n fun i j => if j = k then (if i = k then be else if k < i then F.div .rne (a.at i k) dv else a.at i j) else a.at i j
    let w (j : Nat) : Nat := F.mul .rne (below.foldl (fun x i => F.fma .rne (v.at i k) (v.at i j) x) (v.at k j)) tau
    let ws := (List.range n).map w
    let u := Mat.mk n n fun i j =>
      if k < j then
        if i = k then F.sub .rne (v.at k j) (ws.getD j 0)
        else if k < i then F.fma .rne (F.flip (v.at i k)) (ws.getD j 0) (v.at i j) else v.at i j
      else v.at i j
    .done (below.map (fun i => (i, k, v.at i k)) ++ (k, k, be) :: below.flatMap fun j => (k :: below).map fun i => (i, j, u.at i j))
      (gOf u) (some tau) k

/-- One step of `trsm` (R321) for some columns or rows of the right-hand tile, each written before the next is read (R305): the solution
index i of every one, its terms j in ascending order, what the step has written and its maximum, and whether it meets a mark. -/
def State.trsmStep (s : State) (c : CluId) (e : AnvilEntry) (w left unit : Bool) (i : Nat) (js : List Nat) :
    List Nat → List (Nat × Nat × Nat) → FV → ColumnEnd × Bool
  | [], ws, g => (.done ws g none i, false)
  | o :: os, ws, g =>
    let F := factFmt w
    let size := if w then 8 else 4
    let t (j : Nat) : Nat × Bool := if left then s.tileElem c e.x size i j else s.tileElem c e.x size j i
    let b (j : Nat) : Nat × Bool := if left then s.tileElem c e.y size j o else s.tileElem c e.y size o j
    let dv := t i
    if (b i).2 || js.any (fun j => (t j).2 || (b j).2) || (!unit && dv.2) then (.fault 17, true)
    else if !unit && F.isZero dv.1 then (.fault 17, false)
    else
      let x := js.foldl (fun x j => F.fma .rne (F.flip (t j).1) (b j).1 x) (b i).1
      let x := if unit then x else F.div .rne x dv.1
      let p := if left then (i, o, x) else (o, i, x)
      (s.puts (s.putElems c e.y size [p])).trsmStep c e w left unit i js os (ws ++ [p]) (g.larger (F.value x).abs)

/-- A tile read, and whether a part of it that is read is marked. -/
def State.readMat (s : State) (c : CluId) (t : Tile) (e : Nat) (used : Nat → Nat → Bool) : Mat × Bool :=
  (Mat.mk t.rows t.cols fun r j => if used r j then (s.tileElem c t e r j).1 else 0,
    (cells t.rows t.cols).any fun q => used q.1 q.2 && (s.tileElem c t e q.1 q.2).2)

/-- The parts of a factorisation: its index, width, format bytes, the tile it changes, and what amax is taken over (R319). -/
def AnvilEntry.factor (e : AnvilEntry) : Option (Nat × Bool × Tile × (Nat → Nat → Bool)) :=
  match e.op with
  | .lup j w => some (j, w, e.x, fun _ _ => true)
  | .chol j w => some (j, w, e.x, fun r c => c ≤ r)
  | .qrh j w => some (j, w, e.x, fun _ _ => true)
  | .trsm j w _ _ _ => some (j, w, e.y, fun _ _ => true)
  | _ => none

/-- The start of a factorisation at column 0 (R307, R319): the registers of its index set, and amax formed of the tile as it has been
read. Poison met in it leaves those registers as they were (the model's choice, log entry 15). -/
def State.startFactor (s : State) (c : CluId) (e : AnvilEntry) (j : Nat) (w : Bool) (t : Tile) (inAmax : Nat → Nat → Bool) : State :=
  let (a, marked) := (s.view c).readMat c t (if w then 8 else 4) inAmax
  if marked then s.endStep c e .poison
  else
    let e := { e with growth := some (maxMag (factFmt w) a.flatten, .fin false 0 0) }
    s.modCtl c fun x => { x with
      pm := tset j (List.range 128) x.pm, pmw := tset j w x.pmw, ge := tset j 0 x.ge, queue := e :: x.queue.drop 1 }

/-- Whether a column reads an element of the tile that it factors (R315 to R318): of `lup` also the rows that it swaps. -/
def columnReads (op : AnvilOp) (col swap : Nat) (i j : Nat) : Bool :=
  match op with
  | .lup _ _ => col ≤ i && (col ≤ j || (swap != col && (i == col || i == swap)))
  | .chol _ _ => col ≤ j && j ≤ i
  | .qrh _ _ => col ≤ i && col ≤ j
  | _ => false

/-- Whether a column that ends so reads an element (R315 to R318): a zero pivot ends `lup` after the search in its column, a failed
test `chol` after its diagonal, and a zero sum leaves `qrh` with the rest of its column and the row that its estimate is taken over. -/
def columnUses (op : AnvilOp) (col : Nat) (z : ColumnEnd) (i j : Nat) : Bool :=
  match op, z with
  | .lup _ _, .fault _ => decide (col ≤ i) && j == col
  | .chol _ _, .fault _ => i == col && j == col
  | .qrh _ _, .done _ _ tau _ =>
    if tau = some 0 then (j == col && decide (col < i)) || (i == col && decide (col ≤ j)) else columnReads op col 0 i j
  | _, .done _ _ _ swap => columnReads op col swap i j
  | _, .fault _ => columnReads op col 0 i j

/-- Whether some elements of a tile are marked. -/
def State.cellsMarked (s : State) (c : CluId) (t : Tile) (e : Nat) (used : Nat → Nat → Bool) : Bool :=
  (cells t.rows t.cols).any fun q => used q.1 q.2 && (s.tileElem c t e q.1 q.2).2

/-- What a column computes from the tiles, and whether what it reads is marked. -/
def State.columnOf (s : State) (c : CluId) (e : AnvilEntry) (col : Nat) : ColumnEnd × Bool :=
  let n := e.steps
  let one (w : Bool) (f : Fmt → Mat → Nat → Nat → ColumnEnd) : ColumnEnd × Bool :=
    let size := if w then 8 else 4
    let z := f (factFmt w) (s.readMat c e.x size fun _ _ => true).1 n col
    (z, s.cellsMarked c e.x size (columnUses e.op col z))
  match e.op with
  | .lup _ w => one w lupColumn
  | .chol _ w => one w cholColumn
  | .qrh _ w => one w qrhColumn
  | .trsm _ w left upper unit =>
    let ascending := left != upper
    let i := if ascending then col else n - 1 - col
    let js := (List.range n).filter fun j => if ascending then j < i else i < j
    s.trsmStep c e w left unit i js (List.range (if left then e.y.cols else e.y.rows)) [] (.fin false 0 0)
  | _ => (.fault 0, false)

/-- A column of a factorisation (R315): its fault, the poison that it meets, or what it writes and leaves in the registers. -/
def State.column (s : State) (c : CluId) (e : AnvilEntry) (j : Nat) (w : Bool) (t : Tile) : StepEnd :=
  let size := if w then 8 else 4
  let k := (s.clu c).ctl
  let col := k.col
  match s.columnOf c e col with
  | (_, true) => .poison
  | (.fault d, _) => .fault d (BitVec.ofNat 64 col)
  | (.done ws g tau swap, _) =>
    let (am, gm) := e.growth.getD (.fin false 0 0, .fin false 0 0)
    let gm := gm.larger g
    let p := k.perm j
    let p := match e.op with
      | .lup _ _ => (p.set col (p.getD swap 0)).set swap (p.getD col 0)
      | _ => p
    let taus := match tau with
      | some v => [s.cluPut c (e.y.base + col * size) (bytesOfNum v size)]
      | none => []
    .apply { writes := s.putElems c t size ws ++ taus, column := some (j, p, BitVec.ofNat 32 (growthBits am gm), am, gm) }

/-- `ANVIL_COLUMN` (R315): One factorisation column or trsm step is applied whole, gej is updated, or a zero-pivot or definiteness
fault stops it. -/
def execAnvilColumn (c : CluId) (s : State) : Out :=
  let x := (s.clu c).ctl
  match x.head with
  | none => .next s
  | some e =>
    match e.factor, x.applying with
    | none, _ => .next s
    | some _, some a => .next (s.applySome c e a)
    | some (j, w, t, inAmax), none =>
      if x.col ≥ e.steps then .next (s.modCtl c fun k => k.finish)
      else if e.growth.isNone && (s.unread c e).isEmpty then .next (s.startFactor c e j w t inAmax)
      else .next (s.anvilStep c e fun s => s.column c e j w t)

end Sys2Proof.Machine
end

