-- ==== Sys2Proof/Machine/Launch.lean ====
section
/-! DEFINITION. The launch sequencer (R89 to R93, R384 to R392): submission queues, the checks of a packet, the start of a launch,
the ends of gangs and launches, the skew monitor, and `lend`. -/

namespace Sys2Proof.Machine

/-! ## Submission queues (R384, R387) -/

/-- A submission queue of a package changed. -/
def Pkg.modSubq (x : Pkg) (n : Nat) (f : SubQ → SubQ) : Pkg := { x with subqs := tset n (f (tget n {} x.subqs)) x.subqs }

/-- A write of the notify register (R384, R387). -/
def SubQ.notify (q : SubQ) (tail : Word) : SubQ :=
  if !q.en || (tail - q.tail).toNat ≥ 2 ^ 31 then q
  else if (tail - q.head).toNat > 2 ^ q.lg then { q with ovr := true }
  else { q with tail := tail }

/-- A ring size out of range stores the nearest bound (R384). -/
def clampRing (n : Nat) : Nat := if n < 4 then 4 else if n > 12 then 12 else n

/-- A write of qcfg (R384). -/
def SubQ.writeCfg (q : SubQ) (v : DWord) : SubQ :=
  let q := { q with ovr := q.ovr && !v.getLsbD 1 }
  let q := if q.en then q else { q with lg := clampRing (v.toNat / 2 ^ 32 % 16), ctx := v.toNat / 2 ^ 16 % 2 ^ 16 }
  if v.getLsbD 0 then { q with en := true } else { q with en := false, head := 0, tail := 0, stopped := false }

/-- A write of qbase, which takes effect while the queue is disabled (R384). -/
def SubQ.writeBase (q : SubQ) (v : DWord) : SubQ := if q.en then q else { q with base := v.toNat % 2 ^ 52 }

/-- `SUBMISSION_NOTIFY` (R384): A write to a queue's notify register advances its tail, or is ignored and sets ovr when it
overruns the ring. -/
def execSubmissionNotify (p : Nat) (n : Nat) (tail : Word) (s : State) : Out :=
  if n < 64 then .next (s.modPkg p fun x => x.modSubq n fun q => q.notify tail) else .next s

/-- `QCFG_WRITE` (R384): A write to qcfg sets the queue's configuration; clearing en stops reading and resets head and tail to
0. -/
def execQcfgWrite (p : Nat) (n : Nat) (v : DWord) (s : State) : Out :=
  if n < 64 then .next (s.modPkg p fun x => x.modSubq n fun q => q.writeCfg v) else .next s

/-! ## The kernel image (R89, R91, R92) -/

/-- A patch table entry checked (R91, R92): its offsets, or none. -/
def patchOf (e len psize last : Nat) (word : Option (List Byte)) : Option (Nat × Nat) :=
  let ioff := e % 2 ^ 32
  let poff := e / 2 ^ 32 % 2 ^ 16
  let op := match word with
    | some (b :: _) => b.toNat
    | _ => 0
  if e / 2 ^ 48 != 0 || ioff < last || ioff % 2 != 0 || ioff + 4 > len || poff % 2 != 0 || poff + 2 > psize
      || op % 2 = 0 || op / 2 < 0x30 || 0x34 < op / 2 then none
  else some (ioff, poff)

/-- The entries of a patch table, in strictly ascending order of their offsets. -/
def State.patchesOf (s : State) (p ctx image len psize : Nat) : Nat → List Byte → Nat → Option (List (Nat × Nat))
  | 0, _, _ => some []
  | n + 1, bs, last =>
    let e := descNum bs 0 8
    match patchOf e len psize last (s.readVirt p ctx (image + e % 2 ^ 32) 1) with
    | none => none
    | some x => (s.patchesOf p ctx image len psize n (bs.drop 8) (x.1 + 1)).map fun xs => x :: xs

/-- Whether an entry offset is even and lies in the image. -/
def entryOk (o len : Nat) : Bool := o % 2 = 0 && o < len

/-- The image that a header names, without its parameters, and the size of the parameter block; none for a launch rejected with
code 1. An image at an address that is no multiple of 16 is rejected so too, and a length below that of the header is accepted
where the entries fit (log entry 37). -/
def State.imageAt (s : State) (p ctx image : Nat) : Option (Image × Nat) :=
  match s.readVirt p ctx image 64 with
  | none => none
  | some h =>
    let n (o k : Nat) : Nat := descNum h o k
    let flags := n 6 2
    let len := n 8 4
    let pcount := n 0x1C 2
    let psize := n 0x1E 2
    let bad :=
      image % 16 != 0 || n 0 4 != 0x3034395A || n 4 2 != 1 || flags > 1 || n 0x21 3 != 0 || n 0x30 16 != 0
        || n 0x18 4 % 8 != 0 || pcount > 4096 || psize % 8 != 0 || psize > 4096 || n 0x20 1 = 0 || n 0x20 1 > 16
        || n 0x24 4 % 16 != 0 || n 0x24 4 > 262144 || n 0x28 4 % 64 != 0 || n 0x28 4 > 4194304 || n 0x2C 4 % 16 != 0
        || n 0x2C 4 > 33554432 || !entryOk (n 0xC 4) len || !entryOk (n 0x10 4) len
        || (if flags = 1 then !entryOk (n 0x14 4) len || decide (n 0x28 4 < 640) else n 0x14 4 != 0)
        || (pcount != 0 && decide (len < n 0x18 4 + 8 * pcount))
    if bad then none
    else
      match s.readVirt p ctx (image + n 0x18 4) (8 * pcount) with
      | none => none
      | some bs =>
        (s.patchesOf p ctx image len psize pcount bs 0).map fun ps =>
          ({ base := image, anvil := decide (flags = 1), length := len, aent := n 0xC 4, cent := n 0x10 4, ment := n 0x14 4
             crew := n 0x20 1, csz := n 0x24 4, clsz := n 0x28 4, dsz := n 0x2C 4, patches := ps }, psize)

/-! ## The placement table (R389) -/

/-- The entries of a table, by number. -/
def entriesOf : Nat → Nat → List Byte → List (Nat × Nat)
  | 0, _, _ => []
  | n + 1, i, bs => (i, descNum bs 0 8) :: entriesOf n (i + 1) (bs.drop 8)

/-- The package of an entry. -/
def entryPkg (e : Nat) : Nat := e % 2 ^ 10
/-- The die, logical cluster and core of an entry. -/
def entryPlace (e : Nat) : Nat × Nat × Nat := (e / 2 ^ 10 % 16, e / 2 ^ 14 % 32, e / 2 ^ 19 % 8)

/-- Whether a list has no repeats. -/
def distinct : List Nat → Bool
  | [] => true
  | x :: xs => !xs.contains x && distinct xs

/-- Whether an entry has a reserved bit set, or names a die that no package has. -/
def entryBad (e : Nat) : Bool := e ≥ 2 ^ 22 || decide (11 < (entryPlace e).1)

/-- The die, logical cluster and core that an entry names on a package: a number beyond its die's clusters is folded (R357); none on a
die without a cluster. -/
def State.foldOf (s : State) (p : Nat) (place : Nat × Nat × Nat) : Option (Nat × Nat × Nat) :=
  let n := (s.die ⟨p, place.1⟩).activeCount
  if n = 0 then none else some (place.1, place.2.1 % n, place.2.2)

/-- The core that an entry names on a package, if its number has passed to a physical cluster (R357). -/
def State.coreOf (s : State) (p : Nat) (place : Nat × Nat × Nat) : Option CoreId :=
  (s.foldOf p place).bind fun e => ((s.die ⟨p, e.1⟩).physical e.2.1).map fun c => ⟨p, e.1, c, e.2.2⟩

/-- The entries of the placement table, if it can be read. -/
def State.tableAt (s : State) (p ctx va : Nat) : Option (List (Nat × Nat)) :=
  match s.readVirt p ctx va 8 with
  | none => none
  | some c =>
    let n := descNum c 0 8
    if n = 0 || n > 2 ^ 22 then none else (s.readVirt p ctx (va + 8) (8 * n)).map fun bs => entriesOf n 0 bs

/-- Whether the demands of an image exceed what the units that some entries name supply (R92): a die group below the queue reserve,
and on each core, where several entries may come to lie by R357, slots and core scratchpad for every crew, also where the cluster's
number has still to pass to a physical one. -/
def State.overDemand (s : State) (p : Nat) (im : Image) (es : List Nat) : Bool :=
  let cores := es.filterMap fun e => s.foldOf p (entryPlace e)
  let crews (c : Nat × Nat × Nat) : Nat := (cores.filter fun x => x == c).length
  (es.any fun e => decide (33554432 < im.dsz + (s.die ⟨p, (entryPlace e).1⟩).qres * 16384))
    || cores.any fun c => decide (16 < crews c * im.crew) || decide (262144 < crews c * im.csz)

/-- Whether the demands of a crew cannot be met on the unit that its entry names: its core is full, its cluster takes no new
cluster group (R297), or its die has no cluster (R389, R413): code 3, where R92 alone would give 1 (log entry 18). -/
def State.unitRefuses (s : State) (p : Nat) (e : Nat) : Bool :=
  match s.coreOf p (entryPlace e) with
  | some c => (s.core c).full || ((s.die c.cluId.dieId).remapOf c.clu).flagged
  | none => (s.die ⟨p, (entryPlace e).1⟩).activeCount == 0

/-- The placement table checked, or none for code 3 (R389). -/
def State.placementAt (s : State) (p ctx va : Nat) : Option (List (Nat × Nat)) :=
  match s.tableAt p ctx va with
  | none => none
  | some es =>
    if es.any (fun e => entryBad e.2) || !distinct (es.map fun e => e.2 % 2 ^ 22)
        || es.any (fun e => entryPkg e.2 == p && s.unitRefuses p e.2) then none
    else some es

/-! ## The collective descriptor (R442) -/

/-- The bytes of an element of a collective's type code (R77); 0 for a code that is not allowed. -/
def collSize (t : Nat) : Nat :=
  match t with
  | 2 => 4
  | 3 => 8
  | 6 => 4
  | 7 => 8
  | 8 => 2
  | 9 => 2
  | 10 => 4
  | 11 => 8
  | 12 => 1
  | 13 => 1
  | _ => 0

/-- A field of the op word of a descriptor. -/
def collOp (desc : List Byte) (lo n : Nat) : Nat := bitsAt (descNum desc 0x20 4) lo n

/-- Whether a descriptor breaks R442 for a launch with some ranks, whose die groups on this package lie on some dies. -/
def collBad (desc : List Byte) (addr ranks dsz : Nat) (dies : List Nat) : Bool :=
  let kind := collOp desc 0 4
  let red := collOp desc 4 3
  let t := collOp desc 7 4
  let cb := descNum desc 0x10 8
  let pc := descNum desc 0x24 4
  let fl := descNum desc 0x28 8
  let span := if kind = 0 then 16 * ranks else 16
  let integer := t == 2 || t == 3 || t == 6 || t == 7
  addr % 64 != 0 || kind > 2 || descNum desc 0x20 4 ≥ 2 ^ 14 || cb % 64 != 0 || cb < 64 || cb > 2 ^ 32 || descNum desc 0x18 8 % 16 != 0
    || pc = 0 || pc > 16 || descNum desc 0x31 15 != 0 || red > 5 || collOp desc 11 3 > 4
    || (kind = 1 && (collSize t = 0 || cb % collSize t != 0 || (decide (3 ≤ red) && !integer)))
    || (fl != 2 ^ 64 - 1 && (fl % 16 != 0 || decide (dsz < fl + span) || !dies.contains (descNum desc 0x30 1)))
    || descNum desc 0x30 1 > 11

/-- The cores of a package that no entry names, from the highest number down (R443), each by its logical cluster (R357). -/
def State.unnamedCores (s : State) (p : Nat) (named : List CoreId) : List CoreId :=
  ((List.range (12 * 32 * 8)).reverse.filterMap fun n =>
    let place := (n / 256, n / 8 % 32, n % 8)
    if (s.die ⟨p, place.1⟩).activeCount ≤ place.2.1 then none else s.coreOf p place).filter fun c => !named.contains c

/-- Whether two launches are repeats of one: they share their context, image, descriptor address and ranks. -/
def Launch.likeness (x y : Launch) : Bool :=
  x.ctx == y.ctx && x.image.base == y.image.base &&
    match x.coll, y.coll with
    | some a, some b => a.addr == b.addr && a.ranks == b.ranks
    | _, _ => false

/-- Whether two launches on different packages are one: they are of one round (log entry 16). -/
def sameLaunch (x y : Launch) : Bool := x.likeness y && x.coll.map (·.round) == y.coll.map (·.round)

/-- The launch of another package that is one with a launch of this one. -/
def State.sibling (s : State) (x : Launch) (q : Nat) : Option (Nat × Launch) := (s.pkg q).launches.find? fun y => sameLaunch x y.2

/-- The collective of an accepted launch. -/
def State.collOf (s : State) (p : Nat) (desc : List Byte) (addr : Nat) (es : List (Nat × Nat)) : Coll :=
  let named := es.filterMap fun e => if entryPkg e.2 = p then s.coreOf p (entryPlace e.2) else none
  { addr := addr, desc := desc, ranks := es.map fun e => entryPkg e.2
    part := (s.unnamedCores p named).take (descNum desc 0x24 4) }

/-! ## A packet (R385, R388) -/

/-- The status record of a launch (R388). -/
def statusRecord (code : Nat) (rp : Bool) (tend spread lost : Nat) (trap : List Byte) : List Byte :=
  bytesOfNum code 4 ++ bytesOfNum (bitNum rp 0) 4 ++ bytesOfNum tend 8 ++ bytesOfNum spread 8 ++ bytesOfNum lost 4
    ++ List.replicate 36 0 ++ (trap ++ List.replicate 64 0).take 64

/-- The spread that is reported (R391, R415). -/
def Launch.spread (x : Launch) : Nat := if x.ended < 2 || x.skewb = 0 then 0 else x.latest - x.earliest

/-- The end of a launch told: the record, where it is to be written, then the count of comp, then the interrupt (R388, R396). -/
def State.report (s : State) (p : Nat) (x : Launch) (record : Bool) : State :=
  let bs := statusRecord x.code x.replan (s.pkg p).time x.spread (x.lost % 2 ^ 32) (if x.code = 4 then x.trap else [])
  let (s, written) := match (if record then s.writeVirt p x.ctx x.status.toNat bs false else none) with
    | some s => (s, true)
    | none => (s, false)
  (s.countHandle p x.ctx x.comp (x.code != 0 || !written)).interrupt p (12 + x.queue)

/-- A packet's own fields that break R385. -/
def packetBad (k : List Byte) : Bool :=
  let flags := descNum k 0x30 4
  let comp := BitVec.ofNat 64 (descNum k 0x20 8)
  flags ≥ 32 || descNum k 0x40 184 != 0 || descNum k 0xF8 8 ≥ 2 ^ 16 || descNum k 0x28 8 % 64 != 0
    || (comp != 0 && objectBad comp) || (flags / 16 = 0 && descNum k 0x38 8 != 0)

/-- A packet checked (R388): the launch, with the lowest code that applies. -/
def State.checkPacket (s : State) (p ctx : Nat) (k : List Byte) : Nat × Launch :=
  let flags := descNum k 0x30 4
  let bit (n : Nat) : Bool := decide (flags / 2 ^ n % 2 = 1)
  let image := s.imageAt p ctx (descNum k 0 8)
  let x : Launch :=
    { ctx := ctx, start := BitVec.ofNat 64 (descNum k 0x18 8), comp := BitVec.ofNat 64 (descNum k 0x20 8)
      status := BitVec.ofNat 64 (descNum k 0x28 8), checked := bit 0, chkLock := bit 1, durable := bit 2, persistent := bit 3
      skewb := descNum k 0x34 4 }
  match image with
  | none => (1, x)
  | some (im, psize) =>
    let table := descNum k 0x10 8
    let place := s.placementAt p ctx table
    let own := ((s.tableAt p ctx table).getD []).filter fun e => entryPkg e.2 == p && decide ((entryPlace e.2).1 ≤ 11)
    let mine := own.map fun e => (e.1, (entryPlace e.2))
    if s.overDemand p im (own.map (·.2)) then (1, x)
    else
      match packetBad k, s.readVirt p ctx (descNum k 8 8) psize with
      | false, some ps =>
        let x := { x with image := { im with params := ps }, places := mine }
        if bit 4 then
          match s.readVirt p ctx (descNum k 0x38 8) 64 with
          | none => (2, x)
          | some desc =>
            match place with
            | none => (if collBad desc (descNum k 0x38 8) 1 33554432 (List.range 12) then 2 else 3, x)
            | some es =>
              if collBad desc (descNum k 0x38 8) es.length im.dsz (mine.map fun e => e.2.1) then (2, x)
              else (0, { x with coll := some (s.collOf p desc (descNum k 0x38 8) es) })
        else (if place.isNone then 3 else 0, x)
      | _, _ => (2, x)

/-- The rounds of the launches like one, on its other packages, to which no launch of a package belongs or has belonged. -/
def State.openRounds (s : State) (p : Nat) (x : Launch) : List Nat :=
  let mine (r : Nat) : Bool := (s.pkg p).launches.any fun y => y.2.coll.any fun c => c.round == r
  match x.coll with
  | none => []
  | some c => (dedup c.ranks).flatMap fun q => if q = p then [] else
      (s.pkg q).launches.filterMap fun y => if !x.likeness y.2 then none
        else (y.2.coll.filter fun d => !d.peers.contains p && !mine d.round).map (·.round)

/-- The round that a launch with a collective joins where a package accepts it (log entry 16): the oldest open one, or else a new one. -/
def State.roundOf (s : State) (p : Nat) (x : Launch) : Nat :=
  match s.openRounds p x with
  | [] => s.nextId
  | r :: rs => rs.foldl min r

/-- An accepted launch entered. One with a collective joins its round (log entry 16). -/
def State.acceptLaunch (s : State) (p : Nat) (l : Launch) : State :=
  let n := (s.pkg p).nextLaunch
  let l := { l with origin := (p, n), coll := l.coll.map fun c => { c with round := s.roundOf p l } }
  ({ s with nextId := s.nextId + 1 } : State).modPkg p fun x =>
    { x with launches := tset n l x.launches, nextLaunch := n + 1, launched := true }

/-- A packet taken (R388): rejected with its record, or accepted. One that reads marked is rejected with code 2, and what tells its end
is not used where that reads marked (R327; log entry 18). -/
def State.takePacket (s : State) (p n ctx : Nat) (k : List Byte) (marked lost : Bool) : State :=
  let (code, x) := s.checkPacket p ctx k
  let x := { x with queue := n, firmware := (s.pkg p).mgmtQueues.contains n }
  if lost then s.report p { x with code := 2, comp := 0 } false
  else
    let reach := (s.virtPlaces p ctx (piecesOf 8192 x.status.toNat 128)).isSome
    if !reach then s.report p { x with code := 2 } false
    else if marked then s.report p { x with code := 2 } true
    else if code != 0 then s.report p { x with code := code } true
    else s.acceptLaunch p x

/-- Whether some structure of a packet, or what tells its end, cannot be accessed just now (R379, R381). -/
def State.packetWaits (s : State) (p ctx : Nat) (k : List Byte) : Bool :=
  let n (o : Nat) : Nat := descNum k o 8
  let flags := descNum k 0x30 4
  s.virtWaits p ctx (n 0) 64 || s.virtWaits p ctx (n 0x10) 8 || s.virtWaits p ctx (n 0x28) 128
    || (n 0x20 != 0 && s.virtWaits p ctx (handleName (BitVec.ofNat 64 (n 0x20))) 8)
    || (flags / 16 % 2 = 1 && s.virtWaits p ctx (n 0x38) 64)
    || (match s.readVirt p ctx (n 0) 64 with
      | some h => s.virtWaits p ctx (n 0) (descNum h 8 4) || s.virtWaits p ctx (n 8) (descNum h 0x1E 2)
      | none => false)
    || match s.readVirt p ctx (n 0x10) 8 with
      | some c => decide (descNum c 0 8 ≤ 2 ^ 22) && s.virtWaits p ctx (n 0x10 + 8) (8 * descNum c 0 8)
      | none => false

/-- `LAUNCH_PACKET_STAMP_READ` (R386): The sequencer reads a packet's stamp and rereads it every 200 ns or less until the
generation matches, then reads the packet. A stamp that reads marked does not match (R327; log entry 18). A queue whose last launch
has not started waits (R388), as does one of a context that is being saved or restored (R399; log entry 11), and a package that has not
booted reads nothing (R403). -/
def execLaunchPacketStampRead (p : Nat) (n : Nat) (s : State) : Out :=
  let x := s.pkg p
  let q : SubQ := tget n {} x.subqs
  let slot := q.base + 256 * (q.head.toNat % 2 ^ q.lg)
  let gen (i : Nat) : Nat := (i / 2 ^ q.lg + 1) % 2 ^ 16
  if !x.booted || n ≥ 64 || !q.en || q.stopped || q.head = q.tail || slot + 256 > hbmSize || s.placeWaits (hbmKey p slot) 256
      || x.launches.any (fun l => l.2.queue == n && l.2.state == LaunchState.accepted) || x.saving.any (fun v => v.ctx == q.ctx)
      || x.restoring.any (fun v => v.image.ctx == q.ctx) || s.markedAt (hbmKey p (slot + 0xF0)) 16 then .next s
  else
    let stamp := s.readNum (hbmKey p (slot + 0xF8)) 2
    if stamp = gen q.head.toNat then
      let k := s.readBytes (hbmKey p slot) 256
      if s.packetWaits p q.ctx k then .next s
      else .next ((s.modPkg p fun x => x.modSubq n fun q => { q with head := q.head + 1 }).takePacket p n q.ctx k
        (s.markedAt (hbmKey p slot) 256) (s.markedAt (hbmKey p (slot + 0x20)) 16))
    else if stamp = gen (q.head.toNat + 2 ^ q.lg) then
      .next ((s.modPkg p fun x => x.modSubq n fun q => { q with ovr := true, stopped := true }).interrupt p (12 + n))
    else .next s

/-! ## The start of a launch (R97, R187, R273, R329, R388, R390) -/

/-- A number rounded up to a multiple. -/
def roundUp (n m : Nat) : Nat := (n + m - 1) / m * m

/-- A base for some bytes among allocations: the lowest that fits below a bound. -/
def baseFor (as : List Alloc) (size al top : Nat) : Option Nat :=
  if size = 0 then some 0
  else
    ((0 :: as.map fun a => roundUp (a.base + a.size) al).filter fun b =>
      decide (b + size ≤ top) && as.all fun a => a.size = 0 || decide (b + size ≤ a.base) || decide (a.base + a.size ≤ b)).foldl
        (fun o b => match o with
          | some c => some (min b c)
          | none => some b) none

/-- The free slots of a core, lowest first. -/
def State.freeSlots (s : State) (c : CoreId) : List Nat := (List.range 16).filter fun n => !(s.gang (c.slot n)).inUse

/-- The gang that a launch starts in a slot (R97); what the slot's window last recorded stays there. -/
def startGang (old : Gang) (l entry : Nat) (x : Launch) (hold : Bool) : Gang :=
  { inUse := true, launch := l, crew := entry, ctx := x.ctx, mode := if x.firmware then .firmware else .user, checked := x.checked, chkLock := x.chkLock, holdStart := hold
    apc := BitVec.ofNat 57 (x.image.base + x.image.aent), cpc := BitVec.ofNat 57 (x.image.base + x.image.cent)
    record := old.record, ft := old.ft }

/-- A crew placed on its core (R187, R389), if the core has room. -/
def State.placeCrew (s : State) (p l : Nat) (x : Launch) (hold : Bool) (e : Nat × Nat × Nat × Nat) : Option (State × Crew) :=
  match s.coreOf p (e.2.1, e.2.2.1, e.2.2.2) with
  | none => none
  | some c =>
    let k := s.core c
    let slots := (s.freeSlots c).take x.image.crew
    match baseFor k.allocs x.image.csz 16 262144 with
    | none => none
    | some base =>
      if k.full || k.collective || decide (slots.length < x.image.crew) then none
      else
        let s := slots.foldl (fun s n => s.modGang (c.slot n) fun g => startGang g l e.1 x hold) s
        let s := s.modCore c fun k => { k with allocs := ⟨l, e.1, base, x.image.csz⟩ :: k.allocs }
        some (s.clearRange (coreKey c base) x.image.csz, { entry := e.1, core := c, slots := slots, ended := false })

/-- Every crew placed. -/
def State.placeCrews (s : State) (p l : Nat) (x : Launch) (hold : Bool) : List (Nat × Nat × Nat × Nat) → Option (State × List Crew)
  | [] => some (s, [])
  | e :: es =>
    match s.placeCrew p l x hold e with
    | none => none
    | some (s, w) => (s.placeCrews p l x hold es).map fun r => (r.1, w :: r.2)

/-- The controller of a cluster group as a launch starts it (R280, R287). -/
def startCtl (l : Nat) (x : Launch) (hold : Bool) : Ctl :=
  { inUse := true, launch := l, ctx := x.ctx, pc := BitVec.ofNat 57 (x.image.base + x.image.ment), holdStart := hold }

/-- A cluster group placed (R273), if its memory and, for an anvil stream, its anvil are free and it is not flagged (R297). -/
def State.placeGroup (s : State) (l : Nat) (x : Launch) (hold : Bool) (c : CluId) : Option State :=
  let k := s.clu c
  match baseFor k.allocs x.image.clsz 16384 4194304 with
  | none => none
  | some base =>
    if ((s.die c.dieId).remapOf c.clu).flagged || (x.image.anvil && k.ctl.inUse) then none
    else
      let s := s.modClu c fun k => { k with
        allocs := ⟨l, 0, base, x.image.clsz⟩ :: k.allocs
        ctl := if x.image.anvil then startCtl l x hold else k.ctl }
      some (s.clearRange (cluKey c base) x.image.clsz)

/-- A die group placed (R329), below the queue reserve. -/
def State.placeDie (s : State) (l : Nat) (x : Launch) (d : DieId) : Option State :=
  let k := s.die d
  match baseFor k.allocs x.image.dsz 65536 (33554432 - k.qres * 16384) with
  | none => none
  | some base =>
    some ((s.modDie d fun k => { k with allocs := ⟨l, 0, base, x.image.dsz⟩ :: k.allocs }).clearRange (dieKey d base) x.image.dsz)

/-- Things placed one after another, if all can be. -/
def placeAll {α : Type} (f : State → α → Option State) : State → List α → Option State
  | s, [] => some s
  | s, x :: xs =>
    match f s x with
    | some t => placeAll f t xs
    | none => none

/-- The clusters of some crews, without repeats. -/
def clustersOf (ws : List Crew) : List CluId :=
  ws.foldl (fun cs w => if cs.contains w.core.cluId then cs else cs ++ [w.core.cluId]) []
/-- The dies of some clusters, without repeats. -/
def diesOf (cs : List CluId) : List DieId := cs.foldl (fun ds c => if ds.contains c.dieId then ds else ds ++ [c.dieId]) []

/-- Whether a core can join a collective partition (R443): nothing is placed there. -/
def State.coreFree (s : State) (c : CoreId) : Bool :=
  (s.freeSlots c).length = 16 && !(s.core c).full && !(s.core c).collective

/-- A launch started, if every unit that its placement names is free for it (R388). -/
def State.startLaunch (s : State) (p l : Nat) (x : Launch) : Option State :=
  let hold := decide (x.start != 0 && (s.pkg p).time < x.start.toNat)
  match s.placeCrews p l x hold x.places with
  | none => none
  | some (s, ws) =>
    let cs := clustersOf ws
    match placeAll (fun s c => s.placeGroup l x hold c) s cs with
    | none => none
    | some s =>
      match placeAll (fun s d => s.placeDie l x d) s (diesOf cs) with
      | none => none
      | some s =>
        let part := match x.coll with
          | some k => k.part
          | none => []
        let want := match x.coll with
          | some k => descNum k.desc 0x24 4
          | none => 0
        if decide (part.length < want) || part.any (fun c => !s.coreFree c) then none
        else
          let s := part.foldl (fun s c => s.modCore c fun k => { k with collective := true }) s
          some (s.modLaunch p l fun x => { x with
            state := if hold then .holding else .running, crews := ws, ctls := if x.image.anvil then cs else [] })

/-- Whether a launch is being saved or restored, or lies in an image: it stays as it is until the restore is done (R399, R410). -/
def State.inImage (s : State) (p : Nat) (x : Launch) : Bool :=
  x.saved || (s.pkg p).saving.any (fun v => v.ctx == x.ctx) || (s.pkg p).restoring.any fun v => v.image.ctx == x.ctx

/-- `LAUNCH_START` (R388): An accepted launch starts once every unit its placement names is free, and its crews are placed. -/
def execLaunchStart (p : Nat) (l : Nat) (s : State) : Out :=
  match tfind l (s.pkg p).launches with
  | none => .next s
  | some x =>
    if x.state != .accepted || x.code != 0 || (s.pkg p).stopped || s.inImage p x then .next s
    else .next ((s.startLaunch p l x).getD s)

/-- `START_TIME_REACHED` (R390): A unit's time base reaches the launch's start time and the held crews issue their first
instruction. -/
def execStartTimeReached (p : Nat) (l : Nat) (s : State) : Out :=
  match tfind l (s.pkg p).launches with
  | none => .next s
  | some x =>
    if x.state != .holding || decide ((s.pkg p).time < x.start.toNat) then .next s
    else
      let s := x.crews.foldl (fun s w => w.slots.foldl (fun s n => s.modGang (w.core.slot n) fun g => { g with holdStart := false }) s) s
      let s := x.ctls.foldl (fun s c => s.modCtl c fun k => { k with holdStart := false }) s
      .next (s.modLaunch p l fun x => { x with state := .running })

/-! ## The ends (R132, R173, R391, R415, R416, R444) -/

/-- Whether a launch has been stopped, so that no image brings it back (R292, R392, R399). -/
def Launch.stopped (x : Launch) : Bool := x.code != 0 && x.code != 4

/-- A re-plan request (R416): the registers, the launch's mark and the interrupt. -/
def State.requestReplan (s : State) (p l : Nat) (h : DWord) : State :=
  ((s.modLaunch p l fun x => { x with replan := true }).modPkg p fun y => { y with rpaddr := h, rpcount := y.rpcount + 1 }).interrupt p 76

/-- A crew's end taken by the skew monitor (R391). -/
def Launch.noteEnd (x : Launch) (now : Nat) : Launch :=
  { x with
    earliest := if x.ended = 0 then now else min x.earliest now
    latest := if x.ended = 0 then now else max x.latest now
    ended := x.ended + 1 }

/-- The chunk of a crew read as the crew left it (R444): in pieces of sixteen bytes, with their marks. -/
def State.readChunk (s : State) (p ctx rank va n : Nat) : Chunk :=
  match s.virtKeys p ctx (fun e => e.r) (piecesOf 16 va n) with
  | none => { rank := rank, lost := true }
  | some ks => { rank := rank, pieces := ks.map fun k => (s.readBytes k.1 k.2, s.markedAt k.1 k.2) }

/-- A crew's exit fires its chunk; a crew that a kill or the runtime has ended contributes nothing (log entry 16). -/
def State.fireChunk (s : State) (p l rank : Nat) : State :=
  match tfind l (s.pkg p).launches with
  | none => s
  | some x =>
    match x.coll with
    | none => s
    | some c =>
      let cb := descNum c.desc 0x10 8
      let lost := x.stopped || x.crews.any fun w => w.entry == rank && w.killed
      let k := if lost then { rank := rank, lost := true } else s.readChunk p x.ctx rank (descNum c.desc 0 8 + rank * cb) cb
      s.modLaunch p l fun x => { x with coll := some { c with chunks := c.chunks ++ [k] } }

/-- Whether the chunk that a crew's exit fires cannot be read just now (R379, R381). -/
def State.chunkWaits (s : State) (p l rank : Nat) : Bool :=
  (tfind l (s.pkg p).launches).any fun x => x.coll.any fun c =>
    let cb := descNum c.desc 0x10 8
    s.virtWaits p x.ctx (descNum c.desc 0 8 + rank * cb) cb

/-- Whether a crew has ended: none of its slots still runs it. -/
def State.crewGone (s : State) (l : Nat) (w : Crew) : Bool :=
  w.slots.all fun n => let g := s.gang (w.core.slot n)
    !(g.inUse && g.launch == l && g.crew == w.entry)

/-- A crew's end (R187, R391). -/
def State.endCrew (s : State) (p l : Nat) (w : Crew) : State :=
  let s := s.modLaunch p l fun x =>
    ({ x with crews := x.crews.map fun v => if v.entry = w.entry then { v with ended := true } else v } : Launch).noteEnd (s.pkg p).time
  let s := s.modCore w.core fun k => { k with allocs := k.allocs.filter fun a => !(a.launch == l && a.crew == w.entry) }
  let s := match tfind l (s.pkg p).launches with
    | some x =>
      if x.skewb != 0 && !x.persistent && !x.skewed && decide (x.skewb < x.spread) then
        (s.requestReplan p l x.status).modLaunch p l fun x => { x with skewed := true }
      else s
    | none => s
  s.fireChunk p l w.entry

/-- Whether a gang still has something of its own under way (R132, R456). -/
def State.gangBusy (s : State) (g : GangId) : Bool :=
  s.busy g || (s.gang g).pending != 0 || s.leaveWaits (.a g)
    || s.msgs.any fun m => match m.2 with
      | .remote r => r.gang == g
      | .batch b => b.gang == some g
      | _ => false

/-- `GANG_END` (R132): A gang ends once the c-slice has popped the end record and every memory access is acknowledged; queue
leftovers are discarded and the slot is freed. The slot's gang status block reads zero from then on (the model's choice, log entry 36). -/
def execGangEnd (g : GangId) (s : State) : Out :=
  let x := s.gang g
  if !x.inUse || !x.aEnd || !x.cEnd || x.preempted || s.gangBusy g || s.chunkWaits g.pkg x.launch x.crew then .next s
  else
    let s := ((s.endRegistrations (.a g)).setGang g { record := x.record, ft := x.ft }).dropWaiters fun r => r == .gang g || r == .handler g
    match (s.launch g.pkg x.launch).crews.find? fun w => w.entry == x.crew && !w.ended with
    | none => .next s
    | some w =>
      if s.crewGone x.launch w then .next ((s.endCrew g.pkg x.launch w).settleGroups g.pkg x.launch) else .next s

/-! ## The end of a launch (R173, R388, R392) -/

/-- Whether an operation belongs to a launch of a package. -/
def CopyOp.ofLaunch (o : CopyOp) (p l : Nat) : Bool := (UnitClu o.agent).pkg == p && o.launch == l

/-- The armed operations of a launch disarmed: each has nothing to write and is counted with fault (R173, R392). -/
def State.disarmCopies (s : State) (p l : Nat) : State :=
  { s with dies := s.dies.map fun (d : DieId × Die) =>
      if d.1.pkg != p then d
      else
        let mine := d.2.armed.filter fun o => o.ofLaunch p l
        (d.1, (mine.map fun o => { o with fault := true }).foldl (fun (x : Die) o => x.addOp endedList o)
          { d.2 with armed := d.2.armed.filter fun o => !o.ofLaunch p l }) }

/-- An engine whose running operation belongs to a launch. -/
def State.engineRuns (s : State) (p l : Nat) (r : Requester) : Bool :=
  match r with
  | .engine d e => d.pkg == p && ((s.die d).engine e).head?.any fun o => o.ofLaunch p l
  | _ => false

/-- The running and queued operations of a launch stopped (R392). -/
def State.stopCopies (s : State) (p l : Nat) : State :=
  let s := s.dropWaiters (s.engineRuns p l)
  { s with dies := s.dies.map fun (d : DieId × Die) =>
      if d.1.pkg != p then d
      else (d.1, { d.2 with engines := d.2.engines.map fun e =>
        (e.1, e.2.map fun o => if o.ofLaunch p l then { o with fault := true, miss := none } else o) }) }

/-- Whether an engine still has an operation of a launch. -/
def State.copiesLeft (s : State) (p l : Nat) : Bool :=
  s.dies.any fun d => d.1.pkg == p && d.2.engines.any fun e => e.2.any fun o => o.ofLaunch p l

/-- Whether an operation of a launch is armed. -/
def State.armedLeft (s : State) (p l : Nat) : Bool := s.dies.any fun d => d.1.pkg == p && d.2.armed.any fun o => o.ofLaunch p l

/-- Whether the collective of a launch keeps it (R442, R446): it must have finished in every package. -/
def Coll.keeps (c : Coll) (p : Nat) (dead : Nat → Bool) : Bool :=
  !c.finished || c.ranks.any fun q => q != p && !c.peers.contains q && !dead q

/-- Whether a package counts another as dead (R424). -/
def Pkg.deadPkg (x : Pkg) (q : Nat) : Bool := (tget q ({} : Route) x.paths).dead

/-- Whether a launch can end: its crews, streams, copies and collective are done, and a stopped one has no registration in an image. -/
def State.launchDone (s : State) (p l : Nat) (x : Launch) : Bool :=
  (x.state != LaunchState.accepted || x.code != 0) && x.crews.all (·.ended) && x.ctls.all (fun c => !s.ctlOf l c) && !s.copiesLeft p l
    && !s.virtWaits p x.ctx x.status.toNat 128 && !s.virtWaits p x.ctx (handleName x.comp) 8
    && !(x.stopped && s.savedLeft p l)
    && (x.stopped || match x.coll with
      | some c => !c.keeps p (s.pkg p).deadPkg
      | none => true)

/-- What a closing launch of a package leaves to the other packages of its collective: its fired chunks, and for ranks that have
not fired, that they are lost (R446). -/
def Coll.legacy (c : Coll) (p : Nat) : List Chunk :=
  c.chunks ++ ((List.range c.ranks.length).filter fun r =>
    c.ranks.getD r p == p && !c.chunks.any fun k => k.rank == r).map fun r => { rank := r, lost := true }

/-- Chunks handed to the other packages of a collective, which wait for this one no more. -/
def State.handChunks (s : State) (p : Nat) (x : Launch) (c : Coll) : List Nat → State
  | [] => s
  | q :: qs =>
    let s := if q = p then s
      else
        match s.sibling x q with
        | none => s
        | some (m, _) => s.modLaunch q m fun y => { y with coll := y.coll.map fun d =>
            { d with
              chunks := d.chunks ++ (c.legacy p).filter fun k => !d.chunks.any fun j => j.rank == k.rank
              peers := p :: d.peers } }
    s.handChunks p x c qs

/-- A launch that has ended or been stopped: no image brings it back (log entry 11). -/
def State.endOrigin (s : State) (o : Nat × Nat) : State :=
  let close (v : Saved) : Saved := { v with launches := v.launches.map fun l => if l.launch.origin = o then { l with closed := true } else l }
  { s with pkgs := s.pkgs.map fun (p : Nat × Pkg) => (p.1, { p.2 with images := p.2.images.map close, saving := p.2.saving.map close }) }

/-- A launch told and removed, and its partition given back; numbers of retired clusters that its groups held pass on (R414). -/
def State.closeLaunch (s : State) (p l : Nat) (x : Launch) : State :=
  let s := match x.coll with
    | some c =>
      let s := if x.state = LaunchState.accepted then s else c.part.foldl (fun s c => s.modCore c fun k => { k with collective := false }) s
      s.handChunks p x c c.ranks
    | none => s
  let s := (s.settleGroups p l).endOrigin x.origin
  (s.modPkg p fun y => { y with launches := tdel l y.launches }).report p x true

/-- A stopped controller of a launch whose leaves need wait no more. -/
def State.freeable (s : State) (l : Nat) (x : Launch) : Option CluId :=
  x.ctls.find? fun c => s.ctlOf l c && (s.clu c).ctl.ended && !s.leaveWaits (.m c)

/-- `LAUNCH_END` (R173): A launch ends when its crews, anvil streams and copies are done; armed copyt operations are disarmed and
the status record and comp are written. A stopped controller that its leaves have held is freed first, and the registrations that a stopped
launch has in an image leave. -/
def execLaunchEnd (p : Nat) (l : Nat) (s : State) : Out :=
  match tfind l (s.pkg p).launches with
  | none => .next s
  | some x =>
    if !s.launchDone p l x then .next (match s.freeable l x with
      | some c => s.freeController c
      | none => if x.stopped then s.leaveImage p l else s)
    else if !x.stopped && s.inImage p x then .next s
    else if s.armedLeft p l then .next (s.disarmCopies p l)
    else .next (s.closeLaunch p l x)

/-! ## `lend` (R392) -/

/-- The controllers of a launch stopped; one whose leaves have to wait is freed later (R438, R463). -/
def State.stopCtls (s : State) (l : Nat) : List CluId → State
  | [] => s
  | c :: cs => (if !s.ctlOf l c then s else if s.leaveWaits (.m c) then s.haltController c else s.endController c).stopCtls l cs

/-- The gangs of a launch stopped: what they hold and wait for is withdrawn (R392). -/
def State.stopGangs (s : State) (p l : Nat) : List GangId → State
  | [] => s
  | g :: gs =>
    let x := s.gang g
    (if g.pkg = p && x.inUse && x.launch = l && !(x.aEnd && x.cEnd) then
        (s.withdraw g).modGang g fun x => { x.killed with preempted := false }
      else s).stopGangs p l gs

/-- A launch ended by an event (R292, R392, R399): its code is set, whatever gang was killed before, its agents and copies stop, and
nothing is saved. -/
def State.stopLaunch (s : State) (p l code : Nat) (trap : List Byte) : State :=
  match tfind l (s.pkg p).launches with
  | none => s
  | some x =>
    let s := s.modLaunch p l fun x => if x.code = 0 || (x.code = 4 && code != 4) then { x with code := code, trap := trap } else x
    let s := s.stopGangs p l (s.gangs.map (·.1))
    let s := s.modLaunch p l fun y => { y with crews := y.crews.map fun w => if s.crewGone l w then { w with ended := true } else w }
    let s := s.stopCtls l x.ctls
    ((s.stopCopies p l).disarmCopies p l).endOrigin x.origin

/-- A write of lend. -/
def State.lend (s : State) (p : Nat) (v : DWord) : State :=
  match (s.pkg p).launches.find? fun x => x.2.status == v with
  | some x => s.stopLaunch p x.1 7 []
  | none => s

/-- `LEND_WRITE` (R392): A write of a status-record address to lend stops that launch's agents and copies, drops its
registrations and writes status code 7. -/
def execLendWrite (p : Nat) (v : DWord) (s : State) : Out := .next (s.lend p v)

end Sys2Proof.Machine
end

