-- ==== Sys2Proof/Machine/Controller.lean ====
section
/-! DEFINITION. Exceptions of the anvil controller (R292, R293) and the return from them (R294), with `rft` of both units. -/

namespace Sys2Proof.Machine

/-- The controller's trap record as it stands in `m24` to `m27` (R293). -/
def ctlRecord (r : Raised) (cause : Nat) (rpc : VAddr) (aaddr : Option VAddr) : List DWord :=
  [BitVec.ofNat 64 (cause + r.detail * 2 ^ 8 + (if 5 ≤ cause && cause ≤ 7 then 2 ^ 16 else 0)), rpc.zeroExtend 64, r.info,
    (aaddr.getD 0).zeroExtend 64]

/-- Taking an exception, the controller's part (R292): the record is written into the supervisor bank, and the handler entered. An
anvil fault found meanwhile awaits delivery next. -/
def Ctl.enter (x : Ctl) (r : Raised) (rec : List DWord) (addr : DWord) : Ctl :=
  { x with
    trap := x.afault.map (·.1), aaddr := x.afault.map (·.2), afault := none, wait := none, mode := .supervisor, pc := addr.truncate 57, trapLen := r.len
    sm := (List.range 4).foldl (fun t i => tset (24 + i) ⟨rec.getD i 0, false⟩ t) x.sm }

/-- The delivery of a controller's trap: to the handler, or to the runtime, which ends the launch on the package (R292). -/
def State.deliverCtl (s : State) (c : CluId) (r : Raised) : State :=
  let x := (s.clu c).ctl
  let cause := if x.mode != .user then causeDouble else r.cause
  let tr := ctlRecord r cause x.pc x.aaddr
  let toRuntime := s.stopLaunch c.pkg x.launch 4 (tr.flatMap fun v => bytesOfNum v.toNat 8)
  if runtimeCause cause then toRuntime
  else
    match (s.core (c.core 0)).vector cause with
    | none => toRuntime
    | some v => s.modCtl c fun x => x.enter r tr v

/-- `CONTROLLER_TRAP_DELIVERY` (R292): A controller trap is delivered at its next boundary: double fault, runtime end of the
launch, or supervisor entry. A waiting `awt` is a boundary, since nothing else would end it (log entry 17). -/
def execControllerTrapDelivery (c : CluId) (s : State) : Out :=
  let x := (s.clu c).ctl
  match x.trap with
  | none => .next s
  | some r =>
    let boundary := match x.wait with
      | none => true
      | some (.awt _) => true
      | some _ => false
    if !x.inUse || x.preempted || !boundary || x.miss.isSome then .next s else .next (s.deliverCtl c r)

/-- `rft` of a controller (R294). -/
def Ctl.resume (x : Ctl) : Ctl :=
  let rpc : VAddr := (tget 25 ({} : Val) x.sm).bits.truncate 57
  let skip := (tget 24 ({} : Val) x.sm).bits.getLsbD 16
  let y := { x with mode := .user, pc := rpc }
  if (tget 27 ({} : Val) x.sm).bits = 0 then { y with pc := if skip then rpc + BitVec.ofNat 57 x.trapLen else rpc }
  else if x.state != 3 then y
  else if skip then y.finish
  else { y with state := 1 }

/-- `RFT` (R180): Return from a supervisor entry. -/
def execRft (s : State) : Out :=
  issue .rft s fun s =>
    match s.cur with
    | .a g => .next (s.gangReturn g)
    | .c _ => .next s
    | .m c =>
      .next (s.modClu c fun x =>
        { x with ctl := x.ctl.resume, pins := if x.ctl.resume.done = x.ctl.done then x.pins else x.tpinsOnly })

end Sys2Proof.Machine
end

