-- ==== Sys2Proof/Machine/Context.lean ====
section
/-! DEFINITION. Contexts (R212 to R214, R289, R341, R345, R369, R383, R397 to R399, R410, R411, R447, R470): pre-emption, capture,
images and restore. -/

namespace Sys2Proof.Machine

/-! ## The stop of a context (R212, R397) -/

/-- The gangs of a context on a package. -/
def State.ctxGangs (s : State) (p ctx : Nat) : List GangId :=
  (s.gangs.filter fun g => g.1.pkg = p && g.2.inUse && g.2.ctx = ctx).map (·.1)
/-- The controllers of a context on a package. -/
def State.ctxCtls (s : State) (p ctx : Nat) : List CluId :=
  (s.clus.filter fun c => c.1.pkg = p && c.2.ctl.inUse && c.2.ctl.ctx = ctx).map (·.1)

/-- Issue of a context's agents stopped, or allowed again. -/
def State.setPreempted (s : State) (p : Nat) (ctx : Nat → Bool) (v : Bool) : State :=
  { s with
    gangs := s.gangs.map fun (g : GangId × Gang) => (g.1, if g.1.pkg = p && ctx g.2.ctx then { g.2 with preempted := v } else g.2)
    clus := s.clus.map fun (c : CluId × Clu) =>
      (c.1, if c.1.pkg = p && ctx c.2.ctl.ctx then { c.2 with ctl := { c.2.ctl with preempted := v } } else c.2) }

/-- Whether a live launch of a context on a package set durable pre-emption (R398). -/
def Pkg.durable (x : Pkg) (ctx : Nat) : Bool := x.launches.any fun l => l.2.ctx == ctx && l.2.durable

/-! ## Capture (R212, R213) -/

/-- Whether an access in flight cannot complete before an earlier one does: it is held back by it, a `gsync` stands between them, or
both push into one queue. -/
def stuckBy (f a : Access) : Bool :=
  holdsBack a f || (f.gang == a.gang && (decide (f.era < a.era) || (a.dest == f.dest && match a.dest with
    | .queue _ => true
    | _ => false)))

/-- The accesses in flight that wait for a full bit, or that a `gsync` keeps behind a store still in the hold, which takes no data while its
gang is stopped (R106, R257), and those that cannot complete before one of these does (R196, R212). -/
def State.stuck (s : State) : List Access → List Access → List Access
  | done, [] => done
  | done, a :: as =>
    let first := a.unserved || (s.gang a.gang).hold.any fun h => decide (h.era < a.era)
    s.stuck (if first || done.any (fun f => stuckBy f a) then done ++ [a] else done) as

/-- Whether every access that a gang has sent is complete, but for full-empty accesses that wait, what waits behind them, and what waits
behind the store hold (R212, R245, R257). -/
def State.gangQuiet (s : State) (g : GangId) : Bool :=
  s.flight.all (fun a => a.gang != g || (s.stuck [] s.flight).contains a) && (s.gang g).pending = 0
    && s.msgs.all fun m => match m.2 with
      | .remote r => r.gang != g
      | .batch b => b.gang != some g
      | _ => true

/-- The fragments of a gang as its image keeps them: a fragment parked at `mwait` issues it again (R212). -/
def Gang.unpark (x : Gang) : List Nat → Gang
  | [] => x
  | e :: es => (if (x.frag e).state = .parked then x.makeReady e (x.frag e) else x).unpark es

/-- A lane that has still to be translated. -/
def LaneAccess.untranslated (l : LaneAccess) : LaneAccess := { l with pa := none }
/-- A held access that is issued again in full, its lanes translated and a load's data read anew (R131, R257). -/
def Held.untranslated (h : Held) : Held :=
  { h with access := { h.access with lanes := h.access.lanes.map LaneAccess.untranslated, got := [] } }

/-- What is left of a wait in an image. -/
def Wait.saved (w : Wait) : Option Wait :=
  match w with
  | .enq n items => some (.enq n items)
  | .phwait n q true => some (.phwait n q true)
  | _ => none

/-- A gang as its image keeps it (R212, R213, R369, R366, R470): what waited at a rendezvous, for an event or for a page is issued
again; an enqueue keeps its remaining lanes, and a `phsw` that has signalled its wait. -/
def Gang.saved (x : Gang) : Gang :=
  let y := if x.entry = .none then { x.cancelWaits with stopC := false } else { x.cancelWaits with stopC := x.entry = .trap }
  let y := { y with
    monitors := [], waitA := 0, waitC := 0, lockedA := 0, lockedC := 0, replay := x.replay.map Held.untranslated, sreplay := none
    wait := x.wait.bind Wait.saved }
  (y.unpark fragIdx).select

/-- The items that a waiting dequeue has taken, in lane order (R369). -/
def State.takenItems (s : State) (g : GangId) (lanes : Word) (d : Nat) : List (DWord × Bool) :=
  (lanesOf (s.active (.a g) &&& ~~~lanes)).map fun n =>
    let v := (s.gang g).readA d n
    (v.bits, v.poison)

/-- The waiting queue instruction of a gang withdrawn (R343, R369). -/
def State.withdrawQueue (s : State) (g : GangId) : State :=
  match (s.gang g).wait with
  | some (.deq n lanes d _) =>
    s.modQueue g.dieId n fun q => { q.forget g with items := s.takenItems g lanes d ++ q.items }
  | some (.enq n _) => s.modQueue g.dieId n fun q => q.forget g
  | _ => s

/-- The bytes of a range as an image keeps them, by offset. -/
def savedBytes (k n : Nat) (m : List Host.Cell) : List (Nat × Byte) :=
  (m.filter fun c => k ≤ c.1 && c.1 < k + n).map fun c => (c.1 - k, c.2)
/-- Granules of a range, by number from its start. -/
def savedGranules (k n : Nat) (gs : List Nat) : List Nat := (gs.filter fun g => k ≤ 16 * g && 16 * g < k + n).map fun g => g - k / 16

/-- An allocation as an image keeps it. -/
def State.saveAlloc (s : State) (unit kind k : Nat) (a : Alloc) : SavedAlloc :=
  { launch := a.launch, unit := unit, kind := kind, size := a.size, bytes := savedBytes k a.size s.mem
    full := savedGranules k a.size s.full, marks := savedGranules k a.size s.marks }

/-- The allocations of some launches on a package. -/
def State.saveAllocs (s : State) (p : Nat) (ls : List Nat) : List SavedAlloc :=
  (s.cores.flatMap fun c => if c.1.pkg != p then [] else
    (c.2.allocs.filter fun a => ls.contains a.launch).map fun a => s.saveAlloc a.crew 2 (coreKey c.1 a.base) a)
  ++ (s.clus.flatMap fun c => if c.1.pkg != p then [] else
    (c.2.allocs.filter fun a => ls.contains a.launch).map fun a =>
      s.saveAlloc (c.1.die * 64 + ((s.die c.1.dieId).remapOf c.1.clu).logical) 3 (cluKey c.1 a.base) a)
  ++ (s.dies.flatMap fun d => if d.1.pkg != p then [] else
    (d.2.allocs.filter fun a => ls.contains a.launch).map fun a => s.saveAlloc d.1.die 4 (dieKey d.1 a.base) a)

/-- The key of a slot's save area (R194). -/
def areaKey (g : GangId) : Nat := winKey g.coreId (0x1000 + 1024 * g.slot)

/-- The gangs of a launch, each with its number in its crew. -/
def State.saveGangs (s : State) (l : Nat) (x : Launch) : List SavedGang :=
  x.crews.flatMap fun w => (w.slots.zip (List.range w.slots.length)).filterMap fun n =>
    let g := w.core.slot n.1
    let k := s.gang g
    if k.inUse && k.launch = l && k.crew = w.entry then
      some ⟨w.entry, n.2, k.saved, savedBytes (areaKey g) 1024 s.mem,
        s.flight.filter fun a => a.gang == g⟩
    else none

/-- The operations of some launches, with a saved launch's number kept in each. -/
def State.saveCopies (s : State) (p : Nat) (ls : List Nat) : List SavedCopy :=
  let mine (o : CopyOp) : Bool := ls.any fun l => o.ofLaunch p l
  let clu (d : DieId) (o : CopyOp) : Nat := ((s.die d).remapOf (UnitClu o.agent).clu).logical
  s.dies.flatMap fun d =>
    ((List.range 6).flatMap fun e => ((d.2.engine e).filter mine).map fun o =>
        ⟨d.1.die, clu d.1 o, false, { o with miss := none, before := if e = firedList then o.before else 0 }⟩)
      ++ (d.2.armed.filter mine).map fun o => ⟨d.1.die, clu d.1 o, true, o⟩

/-- A controller as its image keeps it (R289, R292): its waits are issued again, and its pins are gone. -/
def Ctl.saved (x : Ctl) : Ctl :=
  { x with
    miss := none
    wait := x.wait.bind Wait.saved }

/-- The state of a context's agents on a package (R213, R289, R341, R345, R397, R447). -/
def State.capture (s : State) (p : Nat) (sv : Saved) : Saved :=
  let ls := (s.pkg p).launches.filter fun l => l.2.ctx == sv.ctx
  let ns := ls.map (·.1)
  { sv with
    launches := ls.map fun l => ⟨l.1, l.2, false⟩
    gangs := ls.flatMap fun l => s.saveGangs l.1 l.2
    ctls := (s.ctxCtls p sv.ctx).map fun c => ⟨c.die, ((s.die c.dieId).remapOf c.clu).logical, (s.clu c).ctl.saved⟩
    copies := s.saveCopies p ns
    queues := s.dies.flatMap fun d => if d.1.pkg != p then [] else
      (d.2.queues.filter fun q => q.2.ctx == sv.ctx).map fun q => ⟨d.1.die, q.1, { q.2 with deqs := [], enqs := [] }⟩
    allocs := s.saveAllocs p ns
    bindings := s.bindingsOf sv.ctx
    order := (s.flight.filter fun a => (s.ctxGangs p sv.ctx).contains a.gang).map (·.id)
    next := s.nextId }

/-- The sections of an image: kind and unit (R397). -/
def Saved.sections (sv : Saved) : List (Nat × Nat) :=
  sv.gangs.map (fun g => (1, g.crew * 16 + g.index))
    ++ (sv.allocs.filter fun a => a.kind == 2).map (fun a => (2, a.unit))
    ++ (sv.allocs.filter fun a => a.kind == 3).map (fun a => (3, a.unit))
    ++ (sv.allocs.filter fun a => a.kind == 4).map (fun a => (4, a.unit))
    ++ [(5, 0), (6, 0), (7, 0)] ++ sv.launches.map (fun l => (8, l.number)) ++ [(9, 0)]

/-- The rows of its own contents of a section, as many as the 32 bits of its length admit (R397). -/
def sectionRows (x : Nat × Nat) : Nat := Config.sectionRows x.1 x.2 % (2 ^ 28 - 2)

/-- The length of a section: its head, a row that names the state, and rows of its own. -/
def sectionLen (x : Nat × Nat) : Nat := 32 + 16 * sectionRows x

/-- The length of an image (R397). -/
def Saved.imageLen (sv : Saved) : Nat := sv.sections.foldl (fun n x => n + sectionLen x) 128

/-- Where the second copy of an image starts (R398). -/
def secondCopy (addr len : Nat) : Nat := addr + roundUp len 196608 + 16384

/-- Whether an image breaks detail 27: its address, and how far it reaches. -/
def saveFault (a len : Nat) (durable : Bool) : Bool :=
  a % 8192 != 0 || decide (hbmSize < a + len) || (durable && decide (hbmSize < secondCopy a len + len))

/-- The length of the image that a save of a context begun now has (R410). -/
def State.lengthNow (s : State) (p ctx : Nat) : Nat := (s.capture p { ctx := ctx }).imageLen

/-- A save begun (R212, R350, R397): ctxstat reads saving, the length is fixed, the context's agents stop issuing, and its merge entries
are freed. An address that an image does not fit has no effect (log entry 18). -/
def State.startSave (s : State) (p ctx addr : Nat) : State :=
  let dur := (s.pkg p).durable ctx
  let len := s.lengthNow p ctx
  if saveFault addr len dur then s
  else
    ((s.modPkg p fun x => { x with
      cstate := 1, cctx := ctx
      saving := some { ctx := ctx, addr := addr, durable := dur, length := len, second := if dur then secondCopy addr len else 0 } }).setPreempted
      p (fun c => c == ctx) true).dropMerges p ctx

/-- A pre-emption asked for by a write of preempt (R397): it starts, or is held behind the save or restore in progress and the
writes held before it. A number that names no context has no effect (log entry 18). -/
def State.preempt (s : State) (p ctx : Nat) (addr : DWord) : State :=
  let x := s.pkg p
  let named := (x.cstate = 1 && x.cctx = ctx) || x.heldPre.any fun h => h.1 == ctx
  if ctx = 0 || ctx > 4095 || named then s
  else if x.cstate = 1 || x.cstate = 3 || !x.heldPre.isEmpty then s.modPkg p fun x => { x with heldPre := x.heldPre ++ [(ctx, addr)] }
  else s.startSave p ctx addr.toNat

/-- `PREEMPT_WRITE` (R397): A write of a context number to preempt starts its pre-emption with the image at imgaddr, or is held
while another save or restore runs. -/
def execPreemptWrite (p : Nat) (v : DWord) (s : State) : Out := .next (s.preempt p (v.toNat % 2 ^ 16) (s.pkg p).imgaddr)

/-- `PREEMPT_HELD_START` (R397): A held preempt write takes effect when the previous save or restore ends. -/
def execPreemptHeldStart (p : Nat) (s : State) : Out :=
  let x := s.pkg p
  match x.heldPre with
  | [] => .next s
  | h :: hs =>
    if x.cstate = 1 || x.cstate = 3 then .next s
    else .next ((s.modPkg p fun x => { x with heldPre := hs }).startSave p h.1 h.2.toNat)

/-- The bytes of a section with some bytes of padding. -/
def sectionBytes (id : Nat) (x : Nat × Nat) (pad : Nat) : List Byte :=
  bytesOfNum x.1 4 ++ bytesOfNum (sectionLen x + pad) 4 ++ bytesOfNum x.2 8 ++ bytesOfNum id 16
    ++ (List.range (16 * sectionRows x + pad)).map (Config.sectionByte id x.1 x.2)

/-- The header of an image (R397). -/
def imageHeader (sv : Saved) (now : Nat) (complete : Bool) : List Byte :=
  bytesOfNum 0x45584943 4 ++ bytesOfNum 1 2 ++ bytesOfNum sv.ctx 2 ++ bytesOfNum sv.length 8
    ++ bytesOfNum (bitNum sv.durable 0 + bitNum complete 1) 4 ++ bytesOfNum 0 4 ++ bytesOfNum now 8 ++ bytesOfNum sv.second 8
    ++ List.replicate 88 0

/-- The bytes of an image behind its header: the last section, the fabric state, fills the length that was fixed at the request. -/
def Saved.body (sv : Saved) : List Byte :=
  sv.sections.flatMap fun x => sectionBytes sv.id x (if x = (9, 0) then sv.length - sv.imageLen else 0)

/-- Whether a copy of an image cannot be accessed just now (R379, R381). -/
def State.imageWaits (s : State) (p : Nat) (sv : Saved) : Bool :=
  s.placeWaits (hbmKey p sv.addr) sv.length || (sv.second != 0 && s.placeWaits (hbmKey p sv.second) sv.length)

/-- Lines of an image marked. -/
def State.markLines (s : State) (p addr : Nat) (ls : List Nat) : State :=
  { s with marks := ls.foldl (fun ms i => marksAfter (hbmKey p (addr + 64 * i)) 64 true ms) s.marks }

/-- The sections of an image written behind a header, with the lines that are stored poisoned (R398). -/
def State.writeSections (s : State) (p : Nat) (sv : Saved) (addr : Nat) : State :=
  (s.writeHome (hbmKey p (addr + 128)) sv.body false).markLines p addr sv.poisoned

/-- Whether a gang holds a poisoned word (R213). -/
def Gang.poisoned (x : Gang) : Bool :=
  let rows (t : Table Nat (List Val)) : Bool := t.any fun r => r.2.any (·.poison)
  let entries (es : List QEntry) : Bool := es.any fun e => e.words.any (·.poison)
  rows x.a || rows x.sa || x.s.any (·.2.poison) || x.ss.any (·.2.poison) || x.v.any (fun r => r.2.any (·.poison))
    || x.lq.any (fun q => entries q.2) || x.sq.any (fun q => entries q.2) || entries x.fq

/-- Whether the captured state of a context holds poison anywhere. -/
def Saved.hasPoison (sv : Saved) : Bool :=
  sv.gangs.any (fun g => g.gang.poisoned) || sv.allocs.any (fun a => !a.marks.isEmpty)
    || sv.queues.any (fun q => q.queue.items.any (·.2)) || sv.ctls.any fun c => c.ctl.m.any (·.2.poison) || c.ctl.sm.any (·.2.poison)

/-- The lines of an image's sections that are written poisoned: only where what they hold is, and which ones is the device's own
(log entry 11). -/
def Saved.poisonedLines (sv : Saved) (clock : Nat) : List Nat :=
  if sv.hasPoison then (List.range (sv.length / 64)).filter fun i => decide (2 ≤ i) && Config.choice (clock + i) 2 % 2 == 1 else []

/-- Every waiting queue instruction of some gangs withdrawn. -/
def State.withdrawQueues (s : State) : List GangId → State
  | [] => s
  | g :: gs => (s.withdrawQueue g).withdrawQueues gs

/-- What a gang leaves in its slot once it is in an image: its place in its launch and its records. -/
def Gang.husk (x : Gang) : Gang :=
  { inUse := true, launch := x.launch, crew := x.crew, ctx := x.ctx, preempted := true, record := x.record, ft := x.ft }
/-- What a controller leaves once it is in an image. -/
def Ctl.husk (x : Ctl) : Ctl := { inUse := true, launch := x.launch, ctx := x.ctx, preempted := true }

/-- The agents of a captured context, which act no more: what they wait for, hold and have withdrawn is the image's (R212, R447,
R470). -/
def State.shed (s : State) (gs : List GangId) (cs : List CluId) : State :=
  let agent (u : UnitId) : Bool := match u with
    | .a g => gs.contains g
    | .c _ => false
    | .m c => cs.contains c
  { s with
    gangs := s.gangs.map fun (g : GangId × Gang) => (g.1, if gs.contains g.1 then g.2.husk else g.2)
    clus := s.clus.map fun (c : CluId × Clu) => (c.1, if cs.contains c.1 then { c.2 with ctl := c.2.ctl.husk } else c.2)
    flight := s.flight.filter fun a => !gs.contains a.gang
    msgs := s.msgs.filter fun m => match m.2 with
      | .change c => !agent c.agent
      | _ => true }

/-- `CONTEXT_CAPTURE` (R212): Once every sent access of the context is complete, its gangs, controllers, engines and queues are
captured into the image. -/
def execContextCapture (p : Nat) (s : State) : Out :=
  match (s.pkg p).saving with
  | none => .next s
  | some sv =>
    let gs := s.ctxGangs p sv.ctx
    if sv.id != 0 || !gs.all s.gangQuiet || (s.ctxCtls p sv.ctx).any (fun c => (s.clu c).ctl.begun) || s.imageWaits p sv then .next s
    else
      let s := s.withdrawQueues gs
      let sv := { s.capture p sv with id := s.nextId + 1 }
      let sv := { sv with poisoned := sv.poisonedLines s.clock }
      let s : State := { s with clock := s.clock + sv.length / 64 }.shed gs (s.ctxCtls p sv.ctx)
      let s := s.writeSections p sv sv.addr
      let s := if sv.durable then s.writeSections p sv sv.second else s
      .next ({ s with nextId := s.nextId + 1 }.modPkg p fun x => { x with saving := some sv })

/-! ## The image is complete (R398, R410) -/

/-- The units of a saved context freed. -/
def State.freeUnits (s : State) (p : Nat) (sv : Saved) : State :=
  let ns := sv.launches.map (·.number)
  let gs := s.ctxGangs p sv.ctx
  let cs := s.ctxCtls p sv.ctx
  let mine (o : CopyOp) : Bool := ns.any fun l => o.ofLaunch p l
  let free (as : List Alloc) : List Alloc := as.filter fun a => !ns.contains a.launch
  { s with
    gangs := s.gangs.map fun (g : GangId × Gang) => (g.1, if gs.contains g.1 then { record := g.2.record, ft := g.2.ft } else g.2)
    flight := s.flight.filter fun a => !gs.contains a.gang
    cores := s.cores.map fun (c : CoreId × Core) => (c.1, if c.1.pkg = p then
      { c.2 with
        allocs := free c.2.allocs
        l1d := c.2.l1d.filter fun y => y.ctx != sv.ctx
        l1i := c.2.l1i.filter fun y => y.ctx != sv.ctx } else c.2)
    clus := s.clus.map fun (c : CluId × Clu) => (c.1, if c.1.pkg = p then
      { c.2 with
        allocs := free c.2.allocs
        pins := c.2.pins.filter fun y => y.ctx != sv.ctx
        ctl := if cs.contains c.1 then {} else c.2.ctl } else c.2)
    dies := s.dies.map fun (d : DieId × Die) => (d.1, if d.1.pkg = p then
      { d.2 with
        allocs := free d.2.allocs
        engines := d.2.engines.map fun e => (e.1, e.2.filter fun o => !mine o)
        armed := d.2.armed.filter fun o => !mine o
        queues := d.2.queues.filter fun q => q.2.ctx != sv.ctx } else d.2) }

/-- Collective cores of a package given back or taken for some launches. -/
def State.setPartition (s : State) (v : Bool) : List Launch → State
  | [] => s
  | x :: xs =>
    (match x.coll with
      | some c => if x.state = LaunchState.accepted then s else c.part.foldl (fun s c => s.modCore c fun k => { k with collective := v }) s
      | none => s).setPartition v xs

/-- `CONTEXT_IMAGE_COMPLETE` (R398): The image header (both headers if durable) is written complete; ctxstat reads saved, the
units are freed and source 79 fires. -/
def execContextImageComplete (p : Nat) (s : State) : Out :=
  match (s.pkg p).saving with
  | none => .next s
  | some sv =>
    if sv.id = 0 || s.imageWaits p sv then .next s
    else
      let h := imageHeader sv (s.pkg p).time true
      let s := s.writeHome (hbmKey p sv.addr) h false
      let s := if sv.durable then s.writeHome (hbmKey p sv.second) h false else s
      let s := ((s.freeUnits p sv).setPartition false (sv.launches.map (·.launch))).passAll p
      let s := s.modPkg p fun x => { x with launches := x.launches.map fun (l : Nat × Launch) =>
        (l.1, if l.2.ctx == sv.ctx then { l.2 with saved := true } else l.2) }
      .next ((s.modPkg p fun x => { x with cstate := 2, saving := none, images := x.images ++ [sv] }).interrupt p 79)

/-! ## Restore (R214, R289, R345, R399, R411) -/

/-- The name of the captured state that the first section of an image gives, in its third line: from the lines that the restore has
read, or while it has not read that one from memory. -/
def State.imageName (s : State) (p : Nat) (r : Restore) : Nat :=
  let a := if r.second then r.image.second else r.image.addr
  if r.line ≤ 2 then s.readNum (hbmKey p (a + 144)) 16 else descNum r.bytes 144 16

/-- Whether the next line of a restore has an uncorrectable error in the copy that it is read from (R399). A line that was saved
poisoned has none: the captured state that the image names tells it. -/
def State.lineBad (s : State) (p : Nat) (r : Restore) : Bool :=
  let a := if r.second then r.image.second else r.image.addr
  s.markedAt (hbmKey p (a + 64 * r.line)) 64
    && !s.pkgs.any fun q => q.2.images.any fun x => x.id == s.imageName p r && x.ctx == r.image.ctx && x.poisoned.contains r.line

/-- The next line of a restore read from its copy: its bytes join those read before. -/
def State.readLine (s : State) (p : Nat) (r : Restore) : Restore :=
  let a := if r.second then r.image.second else r.image.addr
  { r with line := r.line + 1, second := false, bytes := r.bytes ++ s.readBytes (hbmKey p (a + 64 * r.line)) 64 }

/-- The section heads of an image (R399): the names that their contents give, or none where a head breaks R397. -/
def sectionsOf : Nat → List Byte → Option (List Nat)
  | 0, _ => none
  | fuel + 1, bs =>
    if bs.isEmpty then some []
    else
      let kind := descNum bs 0 4
      let len := descNum bs 4 4
      if kind = 0 || 9 < kind || len % 16 != 0 || len < 16 || bs.length < len then none
      else (sectionsOf fuel (bs.drop len)).map fun xs => descNum bs 16 16 :: xs

/-- The captured state that the sections of an image name, kept by the package that wrote it. -/
def State.imageState (s : State) (sv : Saved) (ids : List Nat) : Option Saved :=
  match ids with
  | [] => none
  | id :: rest =>
    if rest.any fun j => j != id then none
    else (s.pkgs.flatMap fun p => p.2.images.filter fun x => x.id == id && x.ctx == sv.ctx).head?

/-- An access under a new name. -/
def Access.shift (n : Nat) (a : Access) : Access := { a with id := a.id + n }
/-- A gang of an image with its accesses under new names. -/
def SavedGang.shift (n : Nat) (x : SavedGang) : SavedGang :=
  { x with
    waiting := x.waiting.map (Access.shift n)
    gang := { x.gang with
      hold := x.gang.hold.map (Access.shift n)
      replay := x.gang.replay.map fun h => { h with access := h.access.shift n } } }
/-- A copy operation of an image under a new name, still behind the accesses that it came behind (R237). -/
def SavedCopy.shift (n : Nat) (x : SavedCopy) : SavedCopy :=
  { x with op := { x.op with id := x.op.id + n, before := if x.op.before = 0 then 0 else x.op.before + n } }
/-- An image with its accesses and operations under names that nothing else bears. -/
def Saved.shift (n : Nat) (sv : Saved) : Saved :=
  { sv with gangs := sv.gangs.map (SavedGang.shift n), copies := sv.copies.map (SavedCopy.shift n), order := sv.order.map (· + n) }
/-- Accesses in the order in which they were sent before the image was taken, whichever gang each is of (R245). -/
def Saved.inOrder (sv : Saved) (as : List Access) : List Access := sv.order.filterMap fun n => as.find? fun a => a.id == n

/-- A saved allocation's contents put at a key. -/
def State.fillAlloc (s : State) (k : Nat) (a : SavedAlloc) : State :=
  let s := s.clearRange k a.size
  { s with
    mem := a.bytes.foldl (fun m b => memPut (k + b.1) b.2 m) s.mem
    full := s.full ++ a.full.map fun g => k / 16 + g
    marks := s.marks ++ a.marks.map fun g => k / 16 + g }

/-- A gang of an image placed in a slot (R214). -/
def State.placeSaved (s : State) (m : Nat) (g : GangId) (x : SavedGang) : State :=
  let k := { x.gang with launch := m, preempted := false }
  let s := s.setGang g { k with replay := k.replay.map fun h => { h with access := { h.access with gang := g } } }
  let s := { s with mem := x.area.foldl (fun mm (b : Nat × Byte) => memPut (areaKey g + b.1) b.2 mm) (memZero (areaKey g) 1024 s.mem) }
  let s := s.modGang g fun k => { k with hold := k.hold.map (s.retarget g) }
  { s with flight := s.flight ++ x.waiting.map (s.retarget g) }

/-- The gangs of a crew placed in the free slots of its core. -/
def State.placeSlots (s : State) (m : Nat) (c : CoreId) : List (SavedGang × Nat) → State
  | [] => s
  | (x, n) :: rest => (s.placeSaved m (c.slot n) x).placeSlots m c rest

/-- The saved allocation of a unit. -/
def Saved.alloc (sv : Saved) (l unit kind : Nat) : Option SavedAlloc :=
  sv.allocs.find? fun a => a.launch == l && a.unit == unit && a.kind == kind

/-- Some of a list of free slots, which ones being the implementation's choice (R214). -/
def pickSlots (clock : Nat) : Nat → List Nat → List Nat
  | 0, _ => []
  | n + 1, xs =>
    if xs.isEmpty then []
    else
      let i := Config.choice (clock + n) xs.length % xs.length
      xs.getD i 0 :: pickSlots clock n (xs.eraseIdx i)

/-- Every cached line of a context given up by a core (R214, R245). -/
def State.emptyL1 (s : State) (c : CoreId) (ctx : Nat) : State :=
  s.modCore c fun x => { x with l1d := x.l1d.filter fun y => y.ctx != ctx, l1i := x.l1i.filter fun y => y.ctx != ctx }

/-- The gangs of a crew in an image, in the order in which they take its slots. -/
def Saved.crewGangs (sv : Saved) (l entry : Nat) : List SavedGang := sv.gangs.filter fun g => g.gang.launch == l && g.crew == entry

/-- A crew of an image placed on the core that its entry names, where it takes crews (R413); issue starts with no line of the context
in its L1 (R214, R245). -/
def State.restoreCrew (s : State) (p m : Nat) (sv : Saved) (l : SavedLaunch) (w : Crew) : Option (State × Crew) :=
  if w.ended then some (s, w)
  else
    match (l.launch.places.find? fun e => e.1 == w.entry).bind fun e => s.coreOf p (e.2.1, e.2.2.1, e.2.2.2) with
    | none => none
    | some c =>
      let gs := sv.crewGangs l.number w.entry
      let slots := pickSlots s.clock gs.length (s.freeSlots c)
      let s := { s with clock := s.clock + gs.length }
      let a := sv.alloc l.number w.entry 2
      let size := match a with | some a => a.size | none => 0
      match baseFor (s.core c).allocs size 16 262144 with
      | none => none
      | some base =>
        if (s.core c).full || decide (slots.length < gs.length) then none
        else
          let s := (s.emptyL1 c sv.ctx).modCore c fun k => { k with allocs := ⟨m, w.entry, base, size⟩ :: k.allocs }
          let s := match a with | some a => s.fillAlloc (coreKey c base) a | none => s
          some (s.placeSlots m c (gs.zip slots), { w with core := c, slots := slots })

/-- Every crew of a launch of an image placed. -/
def State.restoreCrews (s : State) (p m : Nat) (sv : Saved) (l : SavedLaunch) : List Crew → Option (State × List Crew)
  | [] => some (s, [])
  | w :: ws =>
    match s.restoreCrew p m sv l w with
    | none => none
    | some (s, w) => (s.restoreCrews p m sv l ws).map fun r => (r.1, w :: r.2)

/-- The allocation of a cluster group or a die group of an image placed; a flagged cluster takes none (R297). -/
def State.restoreAlloc (s : State) (p m : Nat) (a : SavedAlloc) : Option State :=
  if a.kind = 3 then
    let d : DieId := ⟨p, a.unit / 64⟩
    match (s.die d).physical (a.unit % 64) with
    | none => none
    | some n =>
      let c : CluId := ⟨p, a.unit / 64, n⟩
      if ((s.die d).remapOf n).flagged then none
      else
        (baseFor (s.clu c).allocs a.size 16384 4194304).map fun base =>
          (s.modClu c fun k => { k with allocs := ⟨m, 0, base, a.size⟩ :: k.allocs }).fillAlloc (cluKey c base) a
  else if a.kind = 4 then
    let d : DieId := ⟨p, a.unit⟩
    (baseFor (s.die d).allocs a.size 65536 (33554432 - (s.die d).qres * 16384)).map fun base =>
      (s.modDie d fun k => { k with allocs := ⟨m, 0, base, a.size⟩ :: k.allocs }).fillAlloc (dieKey d base) a
  else some s

/-- A controller of an image placed (R289). -/
def State.restoreCtl (s : State) (p m : Nat) (x : SavedCtl) : Option State :=
  match (s.die ⟨p, x.die⟩).physical x.clu with
  | none => none
  | some n =>
    let c : CluId := ⟨p, x.die, n⟩
    if (s.clu c).ctl.inUse || ((s.die ⟨p, x.die⟩).remapOf n).flagged then none else some (s.modCtl c fun _ => { x.ctl with launch := m, preempted := false })

/-- Where the gang that issued a copy is after a restore, by its place in its crew; none where no such gang is restored. -/
def Saved.movedAgent (sv : Saved) (l : SavedLaunch) (new : List Crew) (u : UnitId) : Option UnitId :=
  match u with
  | .a g =>
    match l.launch.crews.find? fun w => w.core == g.coreId && w.slots.contains g.slot with
    | none => none
    | some w =>
      let i := (sv.crewGangs l.number w.entry).findIdx fun x => x.index == w.slots.idxOf g.slot
      (new.find? fun v => v.entry == w.entry && !v.ended).bind fun v => (v.slots[i]?).map fun n => .a (v.core.slot n)
  | _ => none

/-- A copy operation or armed trigger of an image taken up again (R341): an operation enters the queue and goes to the engine that R332
gives, one that had not entered it yet still behind its agent's writes before its firing (R237). The trigger word is found and evaluated
anew, since what was written to it meanwhile armed nothing; a trigger whose page is gone completes with fault (log entry 11). The restore
waits while a die holds 64 armed operations (R339). -/
def State.restoreCopy (s : State) (p m : Nat) (sv : Saved) (l : SavedLaunch) (new : List Crew) (x : SavedCopy) : Option State :=
  let d : DieId := ⟨p, x.die⟩
  let o := { x.op with launch := m, agent := (sv.movedAgent l new x.op.agent).getD (.m ⟨p, x.die, ((s.die d).physical x.clu).getD 0⟩) }
  if x.armed && (decide (64 ≤ (s.die d).armed.length) || s.virtWaits p o.ctx o.tva 8) then none
  else if x.armed then some <|
    match s.virtKey p o.ctx o.tva (fun _ => true) with
    | some k =>
      let o := { o with trig := k }
      let (s, w) := s.evalObject k
      match o.fire w with
      | some f => s.modDie d fun y => y.fired { f with before := s.nextId }
      | none => s.modDie d fun y => { y with armed := y.armed ++ [o] }
    | none => s.modDie d fun y => y.addOp endedList { o with fault := true }
  else some (s.modDie d fun y => y.addOp (if o.ended then endedList else firedList) o)

/-- A work queue of an image taken up again (R345): its number must be disabled there. -/
def State.restoreQueue (s : State) (p : Nat) (x : SavedQueue) : Option State :=
  let d : DieId := ⟨p, x.die⟩
  if ((s.die d).queue x.number).en || decide ((s.die d).qres * 1024 < (s.die d).cellsUsed + x.queue.items.length) then none
  else some (s.modQueue d x.number fun _ => x.queue)

/-- The places that a launch held in the tables of the packages while it was in an image, given up. -/
def State.dropSaved (s : State) (o : Nat × Nat) : State :=
  { s with pkgs := s.pkgs.map fun (q : Nat × Pkg) =>
      (q.1, { q.2 with launches := q.2.launches.filter fun y => !(y.2.saved && y.2.origin == o) }) }

/-- A launch of an image placed, under a new number. -/
def State.restoreLaunch (s : State) (p : Nat) (sv : Saved) (l : SavedLaunch) : Option State :=
  let m := (s.pkg p).nextLaunch
  let x := l.launch
  let s := (s.dropSaved x.origin).modPkg p fun y => { y with nextLaunch := m + 1 }
  let mine := sv.allocs.filter fun a => a.launch == l.number && a.kind != 2
  match placeAll (fun s a => s.restoreAlloc p m a) s mine with
  | none => none
  | some s =>
    match s.restoreCrews p m sv l x.crews with
    | none => none
    | some (s, ws) =>
      let cts := sv.ctls.filter fun c => c.ctl.launch == l.number
      match placeAll (fun s c => s.restoreCtl p m c) s cts with
      | none => none
      | some s =>
        let ctls := cts.map fun c => (⟨p, c.die, ((s.die ⟨p, c.die⟩).physical c.clu).getD 0⟩ : CluId)
        match placeAll (fun s o => s.restoreCopy p m sv l ws o) s (sv.copies.filter fun o => o.op.launch == l.number) with
        | none => none
        | some s =>
          let x := { x with crews := ws, ctls := ctls }
          some ((s.modPkg p fun y => { y with launches := tset m x y.launches }).setPartition true [x])

/-- What a restored agent waits for looked at again: its reissued access, its place among a queue's enqueuers, and its phasers. -/
def State.resettle (s : State) (u : UnitId) : State :=
  let s := match u with
    | .a g =>
      let s := match (s.gang g).wait with
        | some (.enq n _) => s.modQueue g.dieId n fun q => { q with enqs := q.enqs ++ [g] }
        | _ => s
      s.reissueGang g
    | _ => s
  (s.regsOf u).foldl (fun s r => s.settlePhaser r.phaser [u]) s

/-- The units of an image placed, if all can be (R214, R289, R345, R399). A launch that has ended since its save is not brought back. What
was withdrawn is sent again in the order in which it was sent before, across the context's gangs (R245). -/
def State.placeImage (s : State) (p : Nat) (sv : Saved) : Option State :=
  let sv := sv.shift s.nextId
  let n := s.flight.length
  match placeAll (fun s x => s.restoreQueue p x) ({ s with nextId := s.nextId + sv.next } : State) sv.queues with
  | none => none
  | some s =>
    match placeAll (fun s l => s.restoreLaunch p sv l) s (sv.launches.filter fun l => !l.closed) with
    | none => none
    | some s =>
      let s : State := { s with
        bindings := tset sv.ctx sv.bindings s.bindings
        flight := s.flight.take n ++ sv.inOrder (s.flight.drop n) }
      some ((s.ctxGangs p sv.ctx).map UnitId.a ++ (s.ctxCtls p sv.ctx).map UnitId.m |>.foldl (fun s u => s.resettle u) s)

/-- The launches of a context that packages still have, each with its package. -/
def launchesOf (ctx : Nat) (ps : Table Nat Pkg) : List (Nat × Nat) :=
  ps.flatMap fun q => (q.2.launches.filter fun l => l.2.ctx == ctx).map fun l => (q.1, l.1)

/-- A context that is lost (R399): every launch of it ends with code 5, on whichever package, since a context carries its number on
each (R383). -/
def State.loseContext (s : State) (p ctx : Nat) : State :=
  let s := (launchesOf ctx s.pkgs).foldl (fun s l => s.stopLaunch l.1 l.2 5 []) s
  (s.modPkg p fun x => { x with cstate := 5, restoring := none }).interrupt p 79

/-- The last line of an image read: the sections that its bytes give are checked and its units placed. -/
def State.endRestore (s : State) (p : Nat) (r : Restore) : State :=
  match sectionsOf (r.image.length + 1) ((r.bytes.take r.image.length).drop 128) with
  | none => s.loseContext p r.image.ctx
  | some ids =>
    match s.imageState r.image ids with
    | none => s.loseContext p r.image.ctx
    | some im =>
      match s.placeImage p im with
      | none => s
      | some s => (s.modPkg p fun x => { x with cstate := 4, restoring := none }).interrupt p 79

/-- `RESTORE_LINE_READ` (R399): A line of a context image is read during restore, falling back to the second copy or marking the
context lost; after the last line the units are placed. -/
def execRestoreLineRead (p : Nat) (s : State) : Out :=
  match (s.pkg p).restoring with
  | none => .next s
  | some r =>
    let set (r : Restore) (s : State) : State := s.modPkg p fun x => { x with restoring := some r }
    if s.imageWaits p r.image then .next s
    else if r.image.length ≤ 64 * r.line then .next (if (s.pkg p).stopped then s else s.endRestore p r)
    else if !s.lineBad p r then .next (set (s.readLine p r) s)
    else if !r.second && r.image.second != 0 then .next (set { r with second := true } s)
    else .next (s.loseContext p r.image.ctx)

/-! ## `ctxsv`, `ctxld` (R410, R411) -/

/-- `CTXSV` (R410): Request pre-emption and saving of the issuing context. It stalls behind a write of preempt that is held, and has no
effect where that names its own context (R397). -/
def execCtxsv (a : BitVec 6) (s : State) : Out :=
  issue (.ctxsv a) s fun t =>
    match t.cur with
    | .a g =>
      if t.active t.cur = 0 then .next (t.advance (.ctxsv a))
      else
        let x := t.pkg g.pkg
        let ctx := (t.gang g).ctx
        let v := leaderValue t t.cur .b64 a.toNat
        if (x.cstate = 1 || x.cstate = 3) && x.cctx != ctx then .next s
        else if x.heldPre.any (fun h => h.1 == ctx) then .next (t.advance (.ctxsv a))
        else if !x.heldPre.isEmpty then .next s
        else if x.cstate = 1 then .next (t.advance (.ctxsv a))
        else if saveFault v.toNat (t.lengthNow g.pkg ctx) (x.durable ctx) then
          .next (t.raiseAt t.cur causeMemory 27 v)
        else .next (((t.advance (.ctxsv a)).modPkg g.pkg fun x => { x with imgaddr := v }).preempt g.pkg ctx v)
    | _ => .next s

/-- An image's header checked (R407): none for detail 28, and otherwise what it names. -/
def State.readHeader (s : State) (p a : Nat) : Option Saved :=
  if a % 8192 != 0 || a + 128 > hbmSize || s.markedAt (hbmKey p a) 128 then none
  else
    let h := s.readBytes (hbmKey p a) 128
    let len := descNum h 8 8
    let flags := descNum h 0x10 4
    let dur := decide (flags % 2 = 1)
    let second := descNum h 0x20 8
    if descNum h 0 4 != 0x45584943 || descNum h 4 2 != 1 || len < 128 || len % 16 != 0 || a + len > hbmSize || flags / 2 % 2 = 0 then none
    else
      let other := if !dur then 0 else if second = a then a - (roundUp len 196608 + 16384) else second
      some { ctx := descNum h 6 2, addr := a, second := other, length := len, durable := dur }

/-- `CTXLD` (R411): Restore the context image at an address. -/
def execCtxld (a : BitVec 6) (s : State) : Out :=
  issue (.ctxld a) s fun t =>
    match t.cur with
    | .a g =>
      if t.active t.cur = 0 then .next (t.advance (.ctxld a))
      else
        let x := t.pkg g.pkg
        let v := leaderValue t t.cur .b64 a.toNat
        if x.cstate = 1 || x.cstate = 3 || !x.heldPre.isEmpty || t.placeWaits (hbmKey g.pkg v.toNat) 128 then .next s
        else
          match t.readHeader g.pkg v.toNat with
          | none => .next (t.raiseAt t.cur causeMemory 28 v)
          | some sv =>
            if !(t.ctxGangs g.pkg sv.ctx).isEmpty || !(t.ctxCtls g.pkg sv.ctx).isEmpty then
              .next (t.raiseAt t.cur causeMemory 29 v)
            else
              .next ((t.advance (.ctxld a)).modPkg g.pkg fun x =>
                { x with cstate := 3, cctx := sv.ctx, restoring := some { image := sv } })
    | _ => .next s

/-! ## The context table (R383) -/

/-- Whether anything on a package names a context (R383). -/
def State.ctxNamed (s : State) (p ctx : Nat) : Bool :=
  let x := s.pkg p
  !(s.ctxGangs p ctx).isEmpty || !(s.ctxCtls p ctx).isEmpty || x.launches.any (fun l => l.2.ctx == ctx)
    || x.subqs.any (fun q => q.2.ctx == ctx) || s.dies.any (fun d => d.1.pkg == p && d.2.queues.any fun q => q.2.ctx == ctx)
    || x.groups.any (fun g => g.2.ctx == ctx) || x.phasers.any fun q => q.2.ctx == ctx

/-- Every trace of a context's number removed from the TLBs, merge tables and L1s of a package (R383). -/
def State.forgetCtx (s : State) (p ctx : Nat) : State :=
  let s := (s.tlbRemove (fun d => d.pkg == p) (fun c => c.pkg == p) ctx none).dropMerges p ctx
  { s with cores := s.cores.map fun (c : CoreId × Core) =>
      (c.1, if c.1.pkg = p then { c.2 with l1i := c.2.l1i.filter fun y => y.ctx != ctx } else c.2) }

/-- The low word of a context entry written (R383). A number that comes to exist where it did on no package begins with an empty
binding table (log entry 11). An ignored write of en = 0 sets root all the same (the model's choice, log entry 18). -/
def State.writeContext (s : State) (p n : Nat) (v : DWord) : State :=
  if n = 0 || n > 4095 then s
  else
    let old : CtxEntry := tget n {} (s.pkg p).contexts
    let root := v.toNat / 2 ^ 17 % 2 ^ 35 * 2 ^ 17
    let fresh := v.getLsbD 0 && s.pkgs.all fun q => !(tget n ({} : CtxEntry) q.2.contexts).en
    let s : State := if fresh then { s with bindings := tset n [] s.bindings } else s
    let s := if v.getLsbD 0 && !old.en then s.forgetCtx p n else s
    let en := v.getLsbD 0 || (old.en && s.ctxNamed p n)
    let s := if old.en && !en then s.dropMerges p n else s
    s.modPkg p fun x => { x with contexts := tset n ⟨root, en⟩ x.contexts }

/-- `CONTEXT_ENTRY_WRITE` (R383): A write to a context entry sets root, or en; setting en first removes stale TLB, merge and L1
state, and clearing en is ignored while the context is in use. -/
def execContextEntryWrite (p : Nat) (n : Nat) (v : DWord) (s : State) : Out := .next (s.writeContext p n v)

end Sys2Proof.Machine
end

