-- ==== Sys2Proof/Machine/Multicast.lean ====
section
/-! DEFINITION. Multicast groups at their headgates (R426 to R432): group entries and membership, stamping, `stable`, and the
acknowledgement and the loss of fabric writes (R424, R456). Applying a record is in `Fabric`. -/

namespace Sys2Proof.Machine

/-! ## Acknowledgement and loss (R424, R452, R456) -/

/-- A fabric write of some bytes acknowledged: it leaves its gang's pending-byte counter, and a signal held for the counter goes
on, for which a `phsw.bnd` whose wait is met retires (R466). -/
def State.ackBytes (s : State) (g : GangId) (n : Nat) : State :=
  let s := s.modGang g fun x => { x with pending := x.pending - BitVec.ofNat 64 n }
  let s := s.releaseHeld (.a g) (s.heldOf (.a g))
  match (s.gang g).wait with
  | some (.phwait m _ true) => s.endPhWait (.a g) m
  | _ => s

/-- A lost write counted by its package and by its launch. -/
def State.countLost (s : State) (g : GangId) : State :=
  (s.modPkg g.pkg fun x => { x with lostWrites := x.lostWrites + 1 }).modLaunch g.pkg (s.gang g).launch fun x =>
    { x with lost := x.lost + 1 }

/-- A fabric write acknowledged as lost. -/
def State.ackLost (s : State) (g : GangId) (n : Nat) : State := (s.countLost g).ackBytes g n

/-! ## Group entries and headgates (R426, R427) -/

/-- A group entry of a package. -/
def State.group (s : State) (p n : Nat) : Group := tget n {} (s.pkg p).groups
/-- A group entry changed. -/
def State.modGroup (s : State) (p n : Nat) (f : Group → Group) : State :=
  s.modPkg p fun x => { x with groups := tset n (f (tget n {} x.groups)) x.groups }
/-- The headgate state of a group. -/
def State.headgate (s : State) (n : Nat) : Headgate := tget n {} s.headgates
/-- The headgate state of a group changed. -/
def State.modHeadgate (s : State) (n : Nat) (f : Headgate → Headgate) : State :=
  { s with headgates := tset n (f (s.headgate n)) s.headgates }

/-- Whether a group is being rehomed: stamping has stopped (R432). -/
def State.rehoming (s : State) (n : Nat) : Bool := s.pkgs.any fun p => (tget n ({} : Group) p.2.groups).state == 4

/-- Records that every member has applied acknowledged to their writers (R428). -/
def State.ackRecords (s : State) : List McRec → State
  | [] => s
  | r :: rs =>
    (match r.writer with
      | some g => s.ackBytes g r.bytes
      | none => s).ackRecords rs

/-- The highest sequence that every member has applied (R427). -/
def State.appliedByAll (s : State) (n : Nat) : Nat :=
  let h := s.headgate n
  (h.members.map fun p => (s.group p n).applied).foldl min (h.next - 1)

/-- What members report reaches the headgate: stable rises, and the records at or below it are acknowledged (R427, R428). -/
def State.settleStable (s : State) (n : Nat) : State :=
  let h := s.headgate n
  let st := max h.stable (s.appliedByAll n)
  let s := s.modHeadgate n fun h => { h with stable := st, records := h.records.filter fun r => decide (st < r.seq) }
  s.ackRecords (h.records.filter fun r => decide (r.seq ≤ st))

/-- A group that no package enables and that has no member any more is freed (R447). -/
def State.freeHeadgate (s : State) (n : Nat) : State :=
  let used := s.pkgs.any fun p => let e : Group := tget n {} p.2.groups
    e.en || (e.state != 0 && e.state != 5)
  if used then s else { s with headgates := tdel n s.headgates }

/-- A member leaves its group's count at the headgate. -/
def State.dropMember (s : State) (p n : Nat) : State :=
  (s.modHeadgate n fun h => { h with members := h.members.filter fun q => q != p }).settleStable n

/-- A leaving member that has applied every record before its leave is out (R430, R431). -/
def State.leaveNow (s : State) (p n : Nat) : State :=
  let e := s.group p n
  if e.state = 3 && (s.headgate n).records.any (fun r => r.seq == e.applied + 1 && r.act == .leave p) then
    ((s.modGroup p n fun e => { e with state := 0, kept := [] }).dropMember p n).freeHeadgate n
  else s

/-! ## Waits for a sequence (R241, R460) -/

/-- Whether an applied sequence meets a target (R460). -/
def seqMet (applied target : Nat) : Bool := target = 0 || (applied % 2 ^ 48 + 2 ^ 48 - target % 2 ^ 48) % 2 ^ 48 < 2 ^ 47

/-- The lines of a group's window removed from the L1 of a gang's core (R241). -/
def State.dropWindow (s : State) (g : GangId) (n : Nat) : State :=
  let e := s.group g.pkg n
  s.l1Drop g.coreId fun c v => c == (s.gang g).ctx && e.wva * 2 ^ 16 ≤ 64 * v && 64 * v < e.wva * 2 ^ 16 + e.wlen * 2 ^ 16

/-- A waiting `mcwait` evaluated: met, it invalidates the window's lines and retires. Since it pairs in every O-before relation, bound
lines go too (R232, R241). -/
def State.tryMcwait (s : State) (g : GangId) (n target : Nat) : State :=
  if seqMet (s.group g.pkg n).applied target then ((s.dropWindow g n).acquireBound g).retire (.a g) else s.setWait (.a g) (some (.mcwait n target))

/-- The `mcwait`s of a package on a group evaluated again. -/
def State.wakeMcwaits (s : State) (p n : Nat) : List GangId → State
  | [] => s
  | g :: gs =>
    (match (s.gang g).wait with
      | some (.mcwait m t) => if g.pkg = p && m = n then s.tryMcwait g n t else s
      | _ => s).wakeMcwaits p n gs

/-! ## Stamping (R427, R430, R458) -/

/-- A lane of a batch returned its sequence, or 0, where its instruction takes one (R458): with the last lane the `mcst` retires, and no
instruction that names its register has issued before (R188). -/
def State.answerLane (s : State) (b : McBatch) (lane v : Nat) : State :=
  match b.gang, b.dreg with
  | some g, some d => s.writeBank g b.sup d (b.share &&& laneMask [lane]) fun _ => ⟨BitVec.ofNat 64 v, false⟩
  | _, _ => s

/-- What a stamped membership change does at once (R430, R431). A member that joins again with an `mcwait` still waiting has that looked
at. -/
def State.changeAt (s : State) (n seq : Nat) (act : McAct) : State :=
  match act with
  | .join p =>
    if (s.group p n).state = 1 then
      ((s.modGroup p n fun e => { e with state := 2, applied := seq, epoch := (s.headgate n).epoch, kept := [] }).modHeadgate n
        fun h => { h with members := h.members ++ [p] }).wakeMcwaits p n (s.gangs.map (·.1))
    else s
  | .leave p => s.leaveNow p n
  | _ => s

/-- The package of a group's headgate, as its members name it. -/
def State.headOf (s : State) (n : Nat) : Option Nat := ((s.headgate n).members.head?).map fun p => (s.group p n).hpkg

/-- A stamped record on its way (R427): to every other member's package, and its sequence to the writer's. -/
def State.flyRecord (s : State) (b : McBatch) (h : Nat) (seq : Nat) : State :=
  let s := s.flyEach 5 2 h seq (s.headgate b.group).members
  match b.gang with
  | some g => s.fly 4 1 h g.pkg seq
  | none => s

/-- The items of a batch stamped with consecutive sequences. -/
def State.stampItems (s : State) (id : Nat) (b : McBatch) : List (Nat × McAct × Nat) → State
  | [] => s
  | (lane, act, bytes) :: rest =>
    let h := s.headgate b.group
    let seq := h.next
    let s := s.modHeadgate b.group fun h => { h with next := seq + 1, records := h.records ++ [⟨seq, act, b.gang, bytes, id⟩] }
    let s := match s.headOf b.group with
      | some q => s.flyRecord b q seq
      | none => s
    ((s.answerLane b lane (seq % 2 ^ 48 + h.epoch % 2 ^ 16 * 2 ^ 48)).changeAt b.group seq act).stampItems id b rest

/-- A record lost before stamping: its lane receives 0 and is acknowledged as lost (R458). -/
def State.loseItems (s : State) (b : McBatch) : List (Nat × McAct × Nat) → State
  | [] => s
  | (lane, _, bytes) :: rest =>
    (match b.gang with
      | some g => (s.ackLost g bytes).answerLane b lane 0
      | none => s).loseItems b rest

/-- A batch is lost. -/
def State.loseBatch (s : State) (id : Nat) (b : McBatch) : State := ({ s with msgs := tdel id s.msgs } : State).loseItems b b.items

/-- The package that asks for a membership change. -/
def McBatch.asker (b : McBatch) : Option Nat := b.items.head?.bind fun i => match i.2.1 with
  | .join p => some p
  | .leave p => some p
  | _ => none

/-- Whether the headgate that a batch was sent to lies on a package declared dead: by the writer's entry, or by the members' or the
asking package's for a membership change. -/
def State.headDead (s : State) (b : McBatch) : Bool :=
  match b.gang with
  | some g => (s.pkg g.pkg).deadPkg (s.group g.pkg b.group).hpkg
  | none =>
    match s.headOf b.group, b.asker with
    | some q, _ => (s.headgate b.group).members.any fun p => (s.pkg p).deadPkg q
    | none, some p => (s.pkg p).deadPkg (s.group p b.group).hpkg
    | none, none => false

/-- Whether a batch still waits in a sender's queue. -/
def State.batchFlies (s : State) (id : Nat) (b : McBatch) : Bool :=
  match b.gang with
  | some g => s.inQueue 5 g.pkg (s.group g.pkg b.group).hpkg id
  | none => false

/-- The offset and size of a record in its window; a membership change has none. -/
def McAct.span (a : McAct) : Nat × Nat :=
  match a with
  | .store off size _ _ => (off, size)
  | .atomic off _ ty _ _ => (off, ty.bits / 8)
  | _ => (0, 0)
/-- Whether two records overlap. -/
def McAct.overlaps (a b : McAct) : Bool := decide (a.span.1 < b.span.1 + b.span.2) && decide (b.span.1 < a.span.1 + a.span.2)

/-- Whether an earlier batch of the same gang for the same group overlaps a batch and has still to be stamped (log entry 24). -/
def batchEarlier (n : Nat) (b : McBatch) (ms : List (Nat × Msg)) : Bool :=
  ms.any fun m => decide (m.1 < n) && match m.2 with
    | .batch c => c.gang.isSome && c.gang == b.gang && c.group == b.group && c.items.any fun x => b.items.any fun y => x.2.1.overlaps y.2.1
    | _ => false

/-- A batch at its headgate: stamped where the window of R427 allows the last of its sequences, and otherwise held. A gang's batch whose
headgate's package is dead is lost, also during the rehoming (R424). -/
def State.stampBatch (s : State) (id : Nat) (b : McBatch) : State :=
  let h := s.headgate b.group
  if b.gang.isSome && s.headDead b then s.loseBatch id b
  else if s.rehoming b.group || s.headDead b || s.batchFlies id b || batchEarlier id b s.msgs then s
  else if h.next + b.items.length > h.stable + 1025 then { s with msgs := tset id (.batch { b with held := true }) s.msgs }
  else (({ s with msgs := tdel id s.msgs } : State).stampItems id b b.items).settleStable b.group

/-- `MULTICAST_STAMP` (R427): The headgate receives a multicast store or atomic and stamps the next sequence if s − stable ≤
1,024, else holds it. -/
def execMulticastStamp (n : Nat) (s : State) : Out :=
  match tfind n s.msgs with
  | some (.batch b) => if b.held then .next s else .next (s.stampBatch n b)
  | _ => .next s

/-- `MULTICAST_STAMP_RELEASE` (R427): Stable advances far enough for a held record to be stamped and sent. -/
def execMulticastStampRelease (n : Nat) (s : State) : Out :=
  match tfind n s.msgs with
  | some (.batch b) => if b.held then .next (s.stampBatch n b) else .next s
  | _ => .next s

/-! ## Membership (R430, R431) -/

/-- A membership change sent to the headgate. -/
def State.sendChange (s : State) (n : Nat) (act : McAct) : State := s.send (.batch { gang := none, group := n, items := [(0, act, 0)], dreg := none, held := false })

/-- Whether a package is a member package of a group: its context maps the window there (log entry 18). -/
def State.memberPackage (s : State) (p : Nat) (e : Group) : Bool := (s.translatePkg p e.ctx (e.wva * 2 ^ 16)).isSome

/-- The configuration fields of an entry taken from its 256 bits. -/
def Group.configure (x : Group) (v : Nat) : Group :=
  { x with
    wva := v / 2 ^ 215 % 2 ^ 41, wlen := v / 2 ^ 199 % 2 ^ 16, ctx := v / 2 ^ 71 % 2 ^ 16, hpkg := v / 2 ^ 61 % 2 ^ 10
    hdie := v / 2 ^ 60 % 2 }

/-- A number with its 64-bit word `i` replaced. -/
def replaceWord (v i w : Nat) : Nat := v - wordOf v i * 2 ^ (64 * i) + w * 2 ^ (64 * i)

/-- An entry's `en` written (R7), with the move of R431 that it makes; a write that the table of R431 does not list moves nothing (log
entry 19). -/
def State.writeGroupEn (s : State) (p n : Nat) (en : Bool) : State :=
  let e := s.group p n
  let s := s.modGroup p n fun e => { e with en := en }
  if en then
    if e.state = 0 && s.memberPackage p e then (s.modGroup p n fun e => { e with state := 1 }).sendChange n (.join p) else s
  else if e.state = 2 then (s.modGroup p n fun e => { e with state := 3 }).sendChange n (.leave p)
  else if e.state = 5 then ((s.modGroup p n fun e => { e with state := 0, kept := [] }).dropMember p n).freeHeadgate n
  else s.freeHeadgate n

/-- A word of a group entry written (R7, R426): its configuration fields, and `en`. -/
def State.writeGroup (s : State) (p n i : Nat) (v : DWord) : State :=
  let s := s.modGroup p n fun x => x.configure (replaceWord x.toNat i v.toNat)
  if i = 0 then s.writeGroupEn p n (v.getLsbD 0) else s

/-- `GROUP_EN_JOIN` (R431): Writing en = 1 on a member package requests a join to the multicast group. -/
def execGroupEnJoin (p : Nat) (n : Nat) (v : DWord) (s : State) : Out :=
  if n < 4096 then .next (s.writeGroup p n 0 (v ||| 1)) else .next s

/-- `GROUP_EN_LEAVE` (R431): Writing en = 0 requests a leave, or takes a failed member out. -/
def execGroupEnLeave (p : Nat) (n : Nat) (v : DWord) (s : State) : Out :=
  if n < 4096 then .next (s.writeGroup p n 0 (v &&& ~~~1)) else .next s

/-- A waiting `mcwait` of a failed member raises detail 37 (R460). -/
def State.failMcwaits (s : State) (p n : Nat) : List GangId → State
  | [] => s
  | g :: gs =>
    (match (s.gang g).wait with
      | some (.mcwait m _) =>
        if g.pkg = p && m = n then (s.setWait (.a g) none).raiseAt (.a g) causeMemory 37 (BitVec.ofNat 64 n) else s
      | _ => s).failMcwaits p n gs

/-- `GROUP_STATE_ERROR` (R431): An uncorrectable error in a member's multicast group state or retained records puts that member
in state 5 failed. -/
def execGroupStateError (p : Nat) (n : Nat) (s : State) : Out :=
  let e := s.group p n
  if e.state = 0 || e.state = 5 then .next s
  else .next ((s.modGroup p n fun e => { e with state := 5, kept := [] }).failMcwaits p n (s.gangs.map (·.1)))

/-- `STABLE_BROADCAST` (R429): An idle headgate sends stable to the members every 10 µs, and they discard records at or below
it. -/
def execStableBroadcast (n : Nat) (s : State) : Out :=
  let st := (s.headgate n).stable
  .next { s with pkgs := s.pkgs.map fun (p : Nat × Pkg) =>
    if (s.headgate n).members.contains p.1 then
      (p.1, { p.2 with groups := p.2.groups.map fun (g : Nat × Group) =>
        if g.1 = n then (g.1, { g.2 with kept := g.2.kept.filter fun r => decide (st < r.seq) }) else g })
    else p }

end Sys2Proof.Machine
end

