-- ==== Sys2Proof/Machine/Migration.lean ====
section
/-! DEFINITION. Retirement migration (R380 to R382) and the routing of interrupts (R396). -/

namespace Sys2Proof.Machine

/-! ## Interrupt routing (R396) -/

/-- A routing entry written: a source that is pending is delivered once its entry is enabled. -/
def Pkg.writeRoute (x : Pkg) (n : Nat) (v : DWord) : Pkg :=
  let old : IntRoute := tget n {} x.routes
  let r : IntRoute :=
    { vector := v.toNat % 2 ^ 11, port := v.toNat / 2 ^ 11 % 2, enable := v.getLsbD 12, pending := old.pending && !v.getLsbD 12 }
  let x := { x with routes := tset n r x.routes }
  if r.enable && old.pending then { x with sent := x.sent ++ [(r.port, r.vector)] } else x

/-- `INTERRUPT_ROUTE_WRITE` (R396): A write to an interrupt routing entry sets vector, port and enable; enabling delivers a
pending source. -/
def execInterruptRouteWrite (p : Nat) (n : Nat) (v : DWord) (s : State) : Out :=
  if n < 81 then .next (s.modPkg p fun x => x.writeRoute n v) else .next s

/-! ## The migration in progress (R381) -/

/-- The migration of a package changed. -/
def State.modMig (s : State) (p : Nat) (f : Mig → Mig) : State := s.modPkg p fun x => { x with mig := f x.mig }

/-- A range of a package's memory copied to another, with its marks, as writes performed at its home (R382). -/
def State.copyRange (s : State) (p src dst n : Nat) : State :=
  let a := hbmKey p src
  let b := hbmKey p dst
  let bytes := savedBytes a n s.mem
  let marks := savedGranules a n s.marks
  let s := { s with
    mem := bytes.foldl (fun m (c : Nat × Byte) => memPut (b + c.1) c.2 m) (memZero b n s.mem)
    marks := (s.marks.filter fun g => 16 * g < b || b + n ≤ 16 * g) ++ marks.map fun g => b / 16 + g }
  ((s.triggerMonitors b n).fireTriggers b n s.dies).meetCwaits b n

/-- Dirty granules copied again, each leaving the map. -/
def State.copyDirty (s : State) (p : Nat) : List Nat → State
  | [] => s
  | g :: gs =>
    let m := (s.pkg p).mig
    ((s.copyRange p (m.old + 16 * g) (m.newFrame + 16 * g) 16).modMig p fun m => { m with dirty := m.dirty.erase g }).copyDirty p gs

/-- The frame that the leaves of a page map, where they are valid and of the size (R381). -/
def State.mappedFrame (s : State) (p ctx va size : Nat) : Option (Nat × List Nat) :=
  match s.walk p ctx va, s.leavesOf p ctx va size with
  | .mapped e, some pas => if s.leavesValid p size pas && e.lg = pageLg size then some (e.frame, pas) else none
  | _, _ => none

/-- A migration that ends: its state and source 78 (R396). -/
def State.endMig (s : State) (p : Nat) (st : MigState) : State := (s.modMig p fun m => { m with state := st }).interrupt p 78

/-- `go` written (R381): the frame that the leaf maps is copied to migframe, once what is being zeroed is zero (R242). A page or a
frame that is not aligned to the size, or that does not lie in HBM, is no page of the size (log entry 18). -/
def State.goMig (s : State) (p : Nat) : State :=
  let m := (s.pkg p).mig
  let n := 2 ^ pageLg m.size
  if m.state = .copying || m.state = .final then s
  else if m.va.toNat % n != 0 || m.va.toNat ≥ 2 ^ 57 || m.frame.toNat % n != 0 || m.frame.toNat + n > hbmSize then s.endMig p .failedLeaf
  else
    match s.mappedFrame p m.ctx m.va.toNat m.size with
    | none => s.endMig p .failedLeaf
    | some (old, _) =>
      if old + n > hbmSize then s.endMig p .failedLeaf
      else
        (s.modMig p fun m =>
          { m with
            state := .copying, aborts := 0, page := m.va.toNat, lg := pageLg m.size, pctx := m.ctx, old := old
            newFrame := m.frame.toNat, dirty := [] }).copyRange p old m.frame.toNat n

/-- migctl written (R380): its fields, then `go`. -/
def State.writeMigctl (s : State) (p : Nat) (v : DWord) : State :=
  let s := s.modMig p fun m => { m with ctx := v.toNat % 2 ^ 16, size := v.toNat / 2 ^ 16 % 4 }
  if v.getLsbD 18 then (s.finishZeroing p).goMig p else s

/-- `MIGCTL_GO` (R381): A write of go starts a retirement migration that copies the old frame, or fails with state 5. -/
def execMigctlGo (p : Nat) (v : DWord) (s : State) : Out := .next (s.writeMigctl p v)

/-- `MIGRATION_FINAL_START` (R381): At most 4,096 dirty granules remain, so writes to the frame are held, walks and pins are
drained and the dirty granules are copied. -/
def execMigrationFinalStart (p : Nat) (s : State) : Out :=
  let x := s.pkg p
  if x.mig.state != .copying then .next s
  else
    let s := s.finishZeroing p
    let x := s.pkg p
    let s := s.copyDirty p (x.mig.dirty.take (x.mig.dirty.length - 4096))
    .next (s.modMig p fun m => { m with state := .final, heldSince := x.time })

/-- Whether a walk of the migrating page is in progress, or a pin of it held (R355, R291). -/
def State.migBusy (s : State) (p : Nat) (m : Mig) : Bool :=
  s.dies.any (fun d => d.1.pkg == p && d.2.merge.any fun e =>
      e.2.state == .walking && e.2.ctx == m.pctx && e.2.va / 2 ^ m.lg == m.page / 2 ^ m.lg)
    || s.clus.any fun c => c.1.pkg == p && c.2.pins.any fun q => m.old ≤ 64 * q.pline && 64 * q.pline < m.old + 2 ^ m.lg

/-- The key of an address translated again: where it lies in the page that has moved, its place in the new frame. Another page that
maps the old frame keeps mapping it. -/
def Mig.moveKey (m : Mig) (p va k : Nat) : Nat :=
  if va / 2 ^ m.lg = m.page / 2 ^ m.lg then hbmKey p m.newFrame + va % 2 ^ m.lg else k

/-- A lane translated again. -/
def Mig.moveLane (m : Mig) (p : Nat) (l : LaneAccess) : LaneAccess := { l with pa := l.pa.map (m.moveKey p l.ea) }
/-- An access of the page's context translated again. -/
def Mig.moveAccess (m : Mig) (p : Nat) (a : Access) : Access :=
  if a.gang.pkg = p && a.ctx = m.pctx && a.space = .g then { a with lanes := a.lanes.map (m.moveLane p) } else a
/-- A wait for a word of the page. -/
def Mig.moveWait (m : Mig) (p : Nat) (w : Wait) : Wait :=
  match w with
  | .acq k va h => .acq (m.moveKey p va k) va h
  | .cwait k h t => .cwait (m.moveKey p (handleName h) k) h t
  | w => w

/-- What a gang holds of the page translated again. -/
def Mig.moveGang (m : Mig) (p : Nat) (x : Gang) : Gang :=
  if x.ctx != m.pctx then x
  else
    { x with
      hold := x.hold.map (m.moveAccess p), wait := x.wait.map (m.moveWait p)
      replay := x.replay.map fun h => { h with access := m.moveAccess p h.access }
      sreplay := x.sreplay.map fun h => { h with access := m.moveAccess p h.access } }

/-- Held and waiting accesses of the page's context translated again (R381). -/
def State.moveAccesses (s : State) (p : Nat) (m : Mig) : State :=
  { s with
    flight := s.flight.map (m.moveAccess p)
    gangs := s.gangs.map fun (g : GangId × Gang) => (g.1, if g.1.pkg = p then m.moveGang p g.2 else g.2)
    clus := s.clus.map fun (c : CluId × Clu) =>
      (c.1, if c.1.pkg = p && c.2.ctl.ctx = m.pctx then { c.2 with ctl := { c.2.ctl with wait := c.2.ctl.wait.map (m.moveWait p) } }
            else c.2)
    dies := s.dies.map fun (d : DieId × Die) =>
      (d.1, if d.1.pkg = p then
          { d.2 with armed := d.2.armed.map fun o => if o.ctx = m.pctx then { o with trig := m.moveKey p o.tva o.trig } else o }
        else d.2) }

/-- Leaves written with another frame, the other fields of each as they are (R381). -/
def State.moveLeaves (s : State) (p frame : Nat) : List Nat → State
  | [] => s
  | pa :: pas =>
    let e := (s.readPte p pa).1
    (s.writeLeaves p (e - pteAddr e + frame) [pa]).moveLeaves p frame pas

/-- The switch of the leaves to the new frame (R381). The monitors armed on the old frame are triggered (log entry 18). -/
def State.switchMig (s : State) (p : Nat) (m : Mig) (pas : List Nat) : State :=
  let s := s.moveLeaves p m.newFrame pas
  let s := s.tlbRemove (fun d => d.pkg == p) (fun c => c.pkg == p) m.pctx (some [(m.page, m.lg)])
  ((s.moveAccesses p m).endMig p .done).triggerMonitors (hbmKey p m.old) (2 ^ m.lg)

/-- `MIGRATION_SWITCH` (R381): The final copy completes, so the leaf is switched to the new frame, TLBs are cleared and held
accesses are released, or the migration fails. From 40 µs after the hold began the hold is released instead. -/
def execMigrationSwitch (p : Nat) (s : State) : Out :=
  let m := (s.pkg p).mig
  if m.state != .final || decide (m.heldSince + 40000 ≤ (s.pkg p).time) || s.migBusy p m then .next s
  else
    let s := s.finishZeroing p
    let m := (s.pkg p).mig
    let s := s.copyDirty p m.dirty
    let size := if m.lg = 13 then 0 else if m.lg = 16 then 1 else if m.lg = 21 then 2 else 3
    match s.mappedFrame p m.pctx m.page size with
    | some (old, pas) => .next (if old = m.old then s.switchMig p m pas else s.endMig p .failedLeaf)
    | none => .next (s.endMig p .failedLeaf)

/-- `MIGRATION_HOLD_TIMEOUT` (R381): 40 µs after the hold began it is released, aborts rises, and copying resumes or fails at 16
aborts. -/
def execMigrationHoldTimeout (p : Nat) (s : State) : Out :=
  let x := s.pkg p
  if x.mig.state != .final || x.time < x.mig.heldSince + 40000 then .next s
  else
    let s := s.modMig p fun m => { m with aborts := m.aborts + 1, state := .copying }
    .next (if x.mig.aborts + 1 ≥ 16 then s.endMig p .failedAborts else s)

end Sys2Proof.Machine
end

