-- ==== Sys2Proof/Machine/Blocks.lean ====
section
/-! DEFINITION. A store wherever it falls: the supervisor window (R194), the die and package control blocks (R330, R331, R375 and
the rules that R375 gathers), HBM and the scratchpads. -/

namespace Sys2Proof.Machine

/-! ## The control blocks -/

/-- A power limit that the register stores: one outside 1,000 to 10,000 W is a free value in that range (R401, log entry 20). -/
def powcapValue (v clock : Nat) : Nat := if 1000 ≤ v && v ≤ 10000 then v else 1000 + Config.choice clock 9001 % 9001

/-- powcap written (R401). -/
def State.writePowcap (s : State) (p : Nat) (v : DWord) : State :=
  { s.modPkg p fun x => { x with powcap := powcapValue (v.toNat % 2 ^ 16) s.clock } with clock := s.clock + 1 }

/-- An aligned 8-byte store to a die control block (R331). -/
def State.storeDie (s : State) (d : DieId) (off : Nat) (v : DWord) : State :=
  if off = 8 then s.modDie d fun x => x.writeFbcfg v
  else if off = 0x10 then s.modDie d fun x => x.writeFbstat v
  else if off = 0x20 then s.writeQres d v
  else if 0x40 ≤ off && off ≤ 0x58 then s.modDie d fun x => x.pushPool ((off - 0x40) / 8) v
  else if 0x1000 ≤ off && off < 0x2000 then s.writeQueueEntry d ((off - 0x1000) / 16) (off % 16 == 8) v
  else s

/-- An aligned 8-byte store to the registers below `0x1000` of a package control block. -/
def State.storePkgLow (s : State) (p off : Nat) (v : DWord) : State :=
  if off = 0x18 then s.preempt p (v.toNat % 2 ^ 16) (s.pkg p).imgaddr
  else if off = 0x20 then s.modPkg p fun x => { x with imgaddr := v }
  else if off = 0x30 then s.writePowcap p v
  else if off = 0x40 then s.modMig p fun m => { m with va := v }
  else if off = 0x48 then s.writeMigctl p v
  else if off = 0x50 then s.modMig p fun m => { m with frame := v }
  else if off = 0x70 then s.lend p v
  else s

/-- An aligned 8-byte store to the registers of a submission queue (R384). -/
def Pkg.storeSubq (x : Pkg) (off : Nat) (v : DWord) : Pkg :=
  x.modSubq (off / 32) fun q => if off % 32 = 0 then q.writeBase v else if off % 32 = 8 then q.writeCfg v else q

/-- An aligned 8-byte store to a package control block. -/
def State.storePkg (s : State) (p off : Nat) (v : DWord) : State :=
  if off < 0x1000 then s.storePkgLow p off v
  else if off < 0x1000 + 32 * 64 then s.modPkg p fun x => x.storeSubq (off - 0x1000) v
  else if 0x3000 ≤ off && off < 0x3000 + 8 * 81 then s.modPkg p fun x => x.writeRoute ((off - 0x3000) / 8) v
  else if 0x20000 ≤ off && off < 0x40000 then s.writeGroup p ((off - 0x20000) / 32) (off % 32 / 8) v
  else if 0x40000 ≤ off && off < 0x60000 then
    if off % 32 = 0 then s.writePhaserLow p ((off - 0x40000) / 32) v else s
  else if 0x70000 ≤ off && off < 0x80000 then if off % 16 = 0 then s.writeContext p ((off - 0x70000) / 16) v else s
  else if 0x80000 ≤ off && off % 8192 = 0 then s.modPkg p fun x => x.modSubq ((off - 0x80000) / 8192) fun q => q.notify (v.truncate 32)
  else s

/-- A store to a control block: one that is not of eight aligned bytes is ignored (R330), and so is one to an address that names
nothing (R375). -/
def State.storeBlock (s : State) (p pa : Nat) (bs : List Byte) : State :=
  if bs.length = 8 && pa % 8 = 0 then
    match paKind pa with
    | .die d off => s.storeDie ⟨p, d⟩ off (BitVec.ofNat 64 (numOf bs))
    | .pkg off => s.storePkg p off (BitVec.ofNat 64 (numOf bs))
    | _ => s
  else s

/-! ## The supervisor window (R194) -/

/-- A trap record's fields that software writes (R123), from its word `i`. -/
def TrapRec.writeWord (r : TrapRec) (i v : Nat) : TrapRec :=
  if i = 4 then { r with kill := BitVec.ofNat 32 v, skip := decide (v / 2 ^ 32 % 2 = 1) } else r

/-- A word of the window written: the vector table, and `skip` and `kill` of the trap records; the rest of it is read-only. -/
def State.storeWindowWord (s : State) (c : CoreId) (off v : Nat) : State :=
  if off < 0x400 then s.modGang (c.slot (off / 64)) fun x => { x with record := x.record.writeWord (off % 64 / 8) v }
  else if 0x600 ≤ off && off < 0x700 then
    s.modCore c fun x => { x with vectors := tset ((off - 0x600) / 8) (BitVec.ofNat 64 (v % 2 ^ 57)) x.vectors }
  else s

/-- One byte of the window written into the word that holds it. -/
def State.storeWindowByte (s : State) (k : Nat) (b : Byte) : State :=
  let off := k % 2 ^ 18
  if off ≥ 0x1000 then s.rawWrite k [b] false
  else
    let old := s.windowWord (keyCore k) off
    let sh := 2 ^ (8 * (off % 8))
    s.storeWindowWord (keyCore k) off (old - old / sh % 256 * sh + b.toNat * sh)

/-- Bytes of the window written. -/
def State.storeWindow (s : State) (k : Nat) : List Byte → State
  | [] => s
  | b :: bs => (s.storeWindowByte k b).storeWindow (k + 1) bs

/-! ## Any place -/

/-- A store performed at a key. -/
def State.storeAt (s : State) (k : Nat) (bs : List Byte) (poison : Bool) : State :=
  if keyRegion k = 4 then s.storeWindow k bs
  else if keyRegion k = 0 && !isHbm k then s.storeBlock (keyPkg k) (keyPa k) bs
  else s.writeHome k bs poison

/-- A store of an agent performed at a key. A page of a control block that software has mapped with user access against the must of
R330 or R475 takes nothing from user mode, so that no other context's state changes (R11; log entry 39). -/
def State.storeBy (s : State) (sup : Bool) (k : Nat) (bs : List Byte) (poison : Bool) : State :=
  if !sup && noUserPage k then s else s.storeAt k bs poison

/-- An atomic or reduction performed at a key (R260 to R262): the state and the old value with its mark. One that falls on a
control block, which acts on loads and stores alone, changes nothing and returns what a load returns (R330). -/
def State.atomicAt (s : State) (k n : Nat) (t : Ty) (op data cmp : Nat) (poison : Bool) : State × Nat × Bool :=
  let (old, m) := s.readAt k n
  let s :=
    if keyRegion k = 4 || (keyRegion k = 0 && !isHbm k) then
      if keyRegion k = 4 then
        match atomicNew t op old data cmp with
        | some v => s.storeWindow k (bytesOfNum v n)
        | none => s
      else s
    else
      match atomicNew t op old data cmp with
      | some v => s.writeHome k (bytesOfNum v n) (poison || m)
      | none => s
  (s, old, m)

/-- `REGISTER_WRITE` (R7): A write to a register that has no row of its own sets its rw fields and ignores the rest. -/
def execRegisterWrite (p : Nat) (addr : Nat) (v : DWord) (s : State) : Out := .next (s.storeBlock p addr (bytesOfNum v.toNat 8))

end Sys2Proof.Machine
end

