-- ==== Sys2Proof/Machine/Perform.lean ====
section
/-! DEFINITION. Accesses performed (R195, R196, R217, R223, R252 to R262), the store hold (R106), the rendezvous of `gsync` (R177),
and copy operations running (R332, R336, R338). -/

namespace Sys2Proof.Machine

/-! ## When an access can be performed (R223, R235, R254) -/

/-- The accesses sent before one of a name. -/
def earlier (n : Nat) : List Access → List Access
  | [] => []
  | a :: as => if a.id = n then [] else a :: earlier n as

/-- Whether an access in flight can be performed now, as far as earlier ones and fences go. -/
def State.freeToGo (s : State) (a : Access) : Bool :=
  (earlier a.id s.flight).all (fun f => !holdsBack a f) && !s.fenceOpen a.gang a.era

/-- The key of a lane; every lane in flight is translated. -/
def LaneAccess.key (l : LaneAccess) : Nat := l.pa.getD 0

/-- The lanes that are performed together now: all of them, or the lanes at one place (R223), for `st.fe` in one granule (R253),
as the implementation chooses. -/
def State.together (s : State) (a : Access) : List LaneAccess :=
  let n := Config.choice s.clock (a.lanes.length + 1)
  match a.lanes[n]? with
  | none => a.lanes
  | some l =>
    if a.kind = .storeFe then a.lanes.filter fun m => m.key / 16 == l.key / 16
    else if a.kind = .load then a.lanes.filter fun m => m.key == l.key
    else a.lanes.filter fun m => m.key == l.key

/-- An access in flight replaced. -/
def State.setFlight (s : State) (a : Access) : State :=
  { s with flight := s.flight.map fun f => if f.id = a.id then a else f }
/-- An access that is done leaves. -/
def State.dropFlight (s : State) (a : Access) : State := { s with flight := s.flight.filter fun f => f.id != a.id }

/-! ## Delivery of what a load or an atomic returns (R55, R68, R101, R202, R252, R259) -/

/-- A loaded value extended by its size code (R68). -/
def extLoad (z v : Nat) : DWord :=
  match z with
  | 1 => (BitVec.ofNat 8 v).signExtend 64
  | 3 => (BitVec.ofNat 16 v).signExtend 64
  | _ => BitVec.ofNat 64 v

/-- The value that a lane got. -/
def Access.gotAt (a : Access) (n : Nat) : LaneVal := (a.got.find? fun v => v.lane == n).getD ⟨n, 0, false⟩

/-- The entries that a load pushes: the lowest word first (R252). -/
def Access.entries (a : Access) : List QEntry :=
  let ext (n : Nat) : Nat := if a.size = 16 then (a.gotAt n).val else (extLoad a.op (a.gotAt n).val).toNat
  let count := if a.size = 16 then 4 else if a.size = 8 then 2 else 1
  (List.range count).map fun i =>
    ⟨laneIdx.map fun n => if a.active.getLsbD n then ⟨BitVec.ofNat 32 (ext n / 2 ^ (32 * i)), (a.gotAt n).poison⟩ else {}, a.active⟩

/-- Whether an earlier load of the gang has still to push into the same queue. -/
def State.queueTurn (s : State) (a : Access) (q : Nat) : Bool :=
  (earlier a.id s.flight).all fun f => f.gang != a.gang || f.dest != .queue q

/-- A load with every lane's value written to its register or pushed into its queue; a queue's loads push in program order. -/
def State.deliverLoad (s : State) (a : Access) : State :=
  let m := laneMask (a.got.map (·.lane))
  match a.dest with
  | .none => s.dropFlight a
  | .reg d =>
    let s := s.dropFlight a
    if a.size = 16 then
      (s.writeBank a.gang a.sup d m fun n => ⟨BitVec.ofNat 64 (a.gotAt n).val, (a.gotAt n).poison⟩).writeBank a.gang a.sup (d + 1) m
        fun n => ⟨BitVec.ofNat 64 ((a.gotAt n).val / 2 ^ 64), (a.gotAt n).poison⟩
    else s.writeBank a.gang a.sup d m fun n => ⟨extLoad a.op (a.gotAt n).val, (a.gotAt n).poison⟩
  | .queue q =>
    if s.queueTurn a q then (s.dropFlight a).modGang a.gang fun x => x.push .A (q + 1) a.entries else s.setFlight a

/-- The old values of an atomic written to its register (R55, R259). -/
def State.deliverOld (s : State) (a : Access) : State :=
  let s := s.dropFlight a
  match a.dest with
  | .reg d =>
    s.writeBank a.gang a.sup d (laneMask (a.got.map (·.lane))) fun n =>
      ⟨extendResult .A a.ty (BitVec.ofNat 64 (a.gotAt n).val), (a.gotAt n).poison⟩
  | _ => s

/-- Lanes of an access that have been performed leave it, with what they got. -/
def Access.done (a : Access) (ls : List LaneAccess) (vs : List LaneVal) : Access :=
  { a with lanes := a.lanes.filter fun l => !ls.contains l, got := a.got ++ vs }

/-- Whether some lanes fall on a place that cannot be accessed just now (R379, R381). -/
def State.lanesWait (s : State) (a : Access) (ls : List LaneAccess) : Bool := ls.any fun l => s.placeWaits l.key a.size

/-! ## Loads (R252) -/

/-- A load performed for the lanes chosen, and delivered with its last. -/
def State.performLoad (s : State) (a : Access) : State :=
  if a.lanes.isEmpty then s.deliverLoad a
  else
    let ls := s.together a
    if !s.freeToGo a || s.lanesWait a ls then s
    else
      let (s, vs) := ({ s with clock := s.clock + 1 } : State).loadLanes a ls
      let a := a.done ls vs
      if a.lanes.isEmpty then s.deliverLoad a else s.setFlight a

/-- `LOAD_DATA_RETURN` (R252): A load's data returns for every lane and is written to its register or pushed into its queue. -/
def execLoadDataReturn (n : Nat) (s : State) : Out :=
  match s.flight.find? fun a => a.id == n with
  | some a =>
    if a.placeless then .next (s.setFlight (s.retarget a.gang a)) else if a.kind = .load then .next (s.performLoad a) else .next s
  | none => .next s

/-! ## Stores and atomics (R217, R253, R260 to R262) -/

/-- A lane of a store, or of `st.fe` with its granule set full, performed. -/
def State.performStore (s : State) (a : Access) (l : LaneAccess) : State :=
  let s := s.storeBy a.sup l.key (bytesOfNum l.data a.size) false
  if a.kind = .storeFe && !s.full.contains (l.key / 16) then { s with full := (l.key / 16) :: s.full } else s

/-- Lanes of a store performed in ascending order. -/
def State.performStores (s : State) (a : Access) : List LaneAccess → State
  | [] => s
  | l :: ls => (s.performStore a l).performStores a ls

/-- Lanes of an atomic performed in ascending order; in `.g` it invalidates what it touches in the issuing core's L1 (R198). -/
def State.performAtomics (s : State) (a : Access) : List LaneAccess → State × List LaneVal
  | [] => (s, [])
  | l :: ls =>
    let s := if a.space = .g then s.modCore a.gang.coreId fun x => { x with l1d := x.l1d.filter fun y => y.psec / 4 != l.key / 64 }
      else s
    let (s, v, m) := s.atomicAt l.key a.size a.ty a.op l.data l.cmp false
    let (s, vs) := s.performAtomics a ls
    (s, ⟨l.lane, v, m⟩ :: vs)

/-- A store or an atomic performed for the lanes chosen, and acknowledged with its last. -/
def State.performWrite (s : State) (a : Access) : State :=
  let ls := s.together a
  if !s.freeToGo a || s.lanesWait a ls then s
  else
    let s : State := { s with clock := s.clock + 1 }
    if a.kind = .atomic then
      let (s, vs) := s.performAtomics a ls
      let a := a.done ls vs
      if a.lanes.isEmpty then s.deliverOld a else s.setFlight a
    else
      let s := s.performStores a ls
      let a := a.done ls []
      if a.lanes.isEmpty then s.dropFlight a else s.setFlight a

/-- `STORE_ACK` (R217): A store, atomic or reduction is performed at its home slice or bank and acknowledged. -/
def execStoreAck (n : Nat) (s : State) : Out :=
  match s.flight.find? fun a => a.id == n with
  | some a =>
    if a.placeless then .next (s.setFlight (s.retarget a.gang a))
    else if a.kind = .store || a.kind = .storeFe || a.kind = .atomic then .next (s.performWrite a)
    else .next s
  | none => .next s

/-! ## The release of a lock (R265, R229) -/

/-- `REL` (R265): Release a lock word by writing 0. -/
def execRel (a : BitVec 6) (s : State) : Out :=
  issue (.rel a) s fun t =>
    let u := t.cur
    if t.active u = 0 then .next (t.advance (.rel a))
    else
      let h := leaderValue t u .b64 a.toNat
      if lockBad h then .next (t.raiseAt u causeMemory 12 h)
      else
        let waits := match u with
          | .a g => t.boundBusy g h
          | _ => false
        if waits then .next s
        else wordOp (.rel a) s t (t.leader u) (handleName h) .store .none fun t k =>
          let t := match u with
            | .a g => t.l1Store g.coreId k (bytesOfNum 0 8)
            | _ => t
          (t.storeBy (t.mode u != .user) k (bytesOfNum 0 8) false).advance (.rel a)

/-! ## Full-empty loads (R195, R196) -/

/-- Whether an access waits on the full bit of a granule. -/
def Access.waitsFor (f : Access) (g : Nat) : Bool := f.unserved && f.lanes.any fun l => l.key / 16 == g

/-- Whether a full-empty load can be served: its granules are full, and every access that waited on one of them earlier has been
served. -/
def State.feReady (s : State) (a : Access) : Bool :=
  a.lanes.all fun l => s.full.contains (l.key / 16) && (earlier a.id s.flight).all fun f => !f.waitsFor (l.key / 16)

/-- A full-empty load served in one step for all its lanes. One of a gang that a pre-emption has stopped is withdrawn (R212). -/
def State.serveFe (s : State) (a : Access) : State :=
  if a.lanes.isEmpty then s.deliverLoad a
  else if !s.freeToGo a || !s.feReady a || (s.gang a.gang).preempted then s
  else
    let (s, vs) := s.loadLanes a a.lanes
    let s := if a.kind = .loadFec then
        { s with full := s.full.filter fun g => !a.lanes.any fun l => l.key / 16 == g }
      else s
    s.deliverLoad (a.done a.lanes vs)

/-- `FULL_EMPTY_SERVE` (R196): A waiting full-empty load is served once its granules are full and earlier waiters on them have been
served. -/
def execFullEmptyServe (n : Nat) (s : State) : Out :=
  match s.flight.find? fun a => a.id == n with
  | some a => if a.feLoad then .next (s.serveFe a) else .next s
  | none => .next s

/-! ## The store hold (R106, R253) -/

/-- The entries that a held store pops. -/
def heldEntries (a : Access) : Nat := if a.size = 16 then 4 else if a.size = 8 then 2 else 1

/-- The data of a lane from its entries, lowest word first; zero where its valid bit is clear (R101). -/
def entryData (es : List QEntry) (n size : Nat) : Nat :=
  (es.reverse.foldl (fun v e => v * 2 ^ 32 + (e.word n).bits.toNat) 0) % 2 ^ (8 * size)

/-- The oldest held store whose queue has its entries: stores on one queue take them in program order. -/
def heldReady (x : Gang) (blocked : List Nat) : List Access → Option (Access × Nat)
  | [] => none
  | a :: as =>
    match a.waitsOn with
    | none => heldReady x blocked as
    | some q =>
      if !blocked.contains q && decide (heldEntries a ≤ (tget q [] x.sq).length) then some (a, q) else heldReady x (q :: blocked) as

/-- The entries of a held store popped and its access sent, if it has a lane (R101); a marked word is consumed as store data, and the
store stays with its entries until the kill or the restart takes them (R255). A store whose page is gone after a restore waits for it, and
one that meets a fabric access to its bytes for that (R223). The two computations of what it sends are compared first (R258): where they
differ twice, nothing is sent. -/
def State.sendHeld (s : State) (g : GangId) (a : Access) (q : Nat) : State :=
  let sq := tget q [] (s.gang g).sq
  let es := sq.take (heldEntries a)
  let marked := es.any fun e => a.lanes.any fun l => (e.word l.lane).poison
  if marked then (if (s.gang g).trapA.isSome then s else s.consumePoison (.a g))
  else if s.glitch ≥ 2 then (if (s.gang g).trapA.isSome then s else s.mismatchTwice (.a g))
  else
  let a := if a.placeless then s.retarget g a else a
  if a.placeless || s.meetsOwn a then s
  else
  let t := s.modGang g fun x => { x with sq := tset q (sq.drop (heldEntries a)) x.sq, hold := x.hold.filter fun h => h.id != a.id }
  let t := if s.glitch = 1 then t.mismatchOnce (.a g) else t
  if a.lanes.isEmpty then t
  else
    t.sendAccess { a with waitsOn := none, lanes := a.lanes.map fun l => { l with data := entryData es l.lane a.size } }

/-- `STORE_HOLD_DATA_ARRIVAL` (R106): An sq entry arrives for a store held in the store hold, and the access is sent. -/
def execStoreHoldDataArrival (g : GangId) (s : State) : Out :=
  let x := s.gang g
  if x.preempted then .next s
  else
    match heldReady x [] x.hold with
    | some (a, q) => .next (s.sendHeld g a q)
    | none => .next s

/-! ## The rendezvous (R177, R178) -/

/-- `GSYNC_RENDEZVOUS` (R177): Both slices are at their matching gsync with checks passed, so both retire in the same cycle. The
a-slice's orders memory as a `fence.gang` there: later accesses wait for the gang's earlier ones (R178). The later of the two does the
same where it passes its checks. -/
def execGsyncRendezvous (g : GangId) (s : State) : Out :=
  let x := s.gang g
  if x.gsA.isNone || x.gsC.isNone || x.preempted || x.trapA.isSome || x.trapC.isSome then .next s
  else .next (s.setGang g x.rendezvous)

/-! ## Copy operations (R332, R336, R338) -/

/-- The address of element `k` on one side, dimension 0 varying fastest (R336). -/
def elementAt (base : Int) (k : Nat) : List (Nat × Int) → Int
  | [] => base
  | (c, step) :: rest => elementAt (base + ((k % c : Nat) : Int) * step) (k / c) rest

/-- What came of reaching an element: its key, a page that is not there, or the end of the operation. -/
inductive ElemReach where
  | go (k : Nat)
  | miss
  | fault

/-- The place of an element (R338). -/
def State.reachElem (s : State) (d : DieId) (o : CopyOp) (sp : Space) (ea : Nat) (write : Bool) : ElemReach :=
  match sp with
  | .g =>
    match (s.die d).tlb.find? fun t => t.covers o.ctx ea with
    | none => .miss
    | some t =>
      if t.permits (if o.sup then .supervisor else .user) (!write, write) then .go (hbmKey d.pkg (t.pa ea)) else .fault
  | .cl =>
    match s.agentAlloc o.agent o.launch .cl with
    | some a => .go (cluKey (UnitClu o.agent) (a.base + ea))
    | none => .fault
  | .d =>
    match s.agentAlloc o.agent o.launch .d with
    | some a => .go (dieKey d (a.base + ea))
    | none => .fault
  | .c => .fault

/-- The destination element of a source element (R25, R335). -/
def CopyOp.convert (o : CopyOp) (v : Nat) : Nat :=
  match o.cvt with
  | none => v
  | some (x, y, r) =>
    match copyFormat x, copyFormat y with
    | some x, some y => (aluCvt (Rnd.code r) y x (BitVec.ofNat 64 v)).toNat
    | _, _ => v

/-- The operation that an engine runs replaced. -/
def Die.setOp (x : Die) (e : Nat) (o : CopyOp) : Die := { x with engines := tset e (o :: (x.engine e).drop 1) x.engines }

/-- One element copied, or the reason why the operation stops there. Each element is a write of its own, also of a linear copy (the model's
choice, log entry 15). -/
def State.copyElem (s : State) (d : DieId) (e : Nat) (o : CopyOp) : State :=
  let sa := (elementAt o.sbase o.done o.srcDims).toNat
  let da := (elementAt o.dbase o.done o.dstDims).toNat
  let set (o : CopyOp) : State := s.modDie d fun x => x.setOp e o
  match s.reachElem d o o.sspace sa false, s.reachElem d o o.dspace da true with
  | .fault, _ => set { o with fault := true }
  | .miss, _ => set { o with miss := some (sa, 3) }
  | .go _, .fault => set { o with fault := true }
  | .go _, .miss => set { o with miss := some (da, 1) }
  | .go a, .go b =>
    if s.placeWaits a o.ssize || s.placeWaits b o.dsize then s
    else
      let (v, m) := s.readAt a o.ssize
      (set { o with done := o.done + 1 }).storeBy o.sup b (bytesOfNum (o.convert v) o.dsize) m

/-- Elements copied one after another in visiting order. -/
def State.copyElems (s : State) (d : DieId) (e : Nat) : Nat → State
  | 0 => s
  | n + 1 =>
    match (s.die d).engine e with
    | [] => s
    | o :: _ => if o.ended || o.miss.isSome then s else (s.copyElem d e o).copyElems d e n

/-- The operations that have fired entered into the queue of a die in their order, as far as they can: each waits for the writes
that its agent had issued by its firing and for a free entry (R237, R332). -/
def State.admitFired (s : State) (d : DieId) : List CopyOp → State
  | [] => s
  | o :: os =>
    if (s.die d).opCount ≥ 64 || s.unackedBefore o.agent o.before || s.ctxStopped d.pkg o.ctx then s.admitFired d os
    else
      (s.modDie d fun x =>
        { x with engines := tset firedList ((x.engine firedList).filter fun y => y.id ≠ o.id) x.engines }.enterOp o).admitFired d os

/-- `COPY_OP_START` (R332): An engine takes its next assigned operation and runs it, stopping at unmapped pages for a replay. It runs
for as many elements as the engine chooses (log entry 15). Operations that have fired enter the queue first. -/
def execCopyOpStart (d : DieId) (e : Nat) (s : State) : Out :=
  let s := s.admitFired d ((s.die d).engine firedList)
  match (s.die d).engine e with
  | [] => .next s
  | o :: _ =>
    if 4 ≤ e || o.ended || o.miss.isSome || s.ctxStopped d.pkg o.ctx then .next s
    else
      let n := Config.choice s.clock o.total
      let s : State := { s with clock := s.clock + 1 }
      .next (s.copyElems d e (n % o.total + 1))

end Sys2Proof.Machine
end

