-- ==== Sys2Proof/Machine/Fabric.lean ====
section
/-! DEFINITION. The fabric instructions (R451 to R460): remote loads, stores and reductions, multicast stores and atomics and
`mcwait`; and what the fabric then does: serving, acknowledging, applying and rehoming (R424, R428, R432). -/

namespace Sys2Proof.Machine

/-! ## Sending (R449, R450, R455, R456) -/

/-- The access size of a fabric instruction's fn (R448). -/
def fabBytes (z : BitVec 2) : Nat := if z = 0 then 4 else if z = 1 then 8 else 16

/-- An a-slice register of a lane as a number. -/
def laneNum (s : State) (g : GangId) (code n : Nat) : Nat := ((s.gang g).readA code n).bits.toNat

/-- The data of `rst` and `mcst` in a lane (R454). -/
def fabData (z : BitVec 2) (b : BitVec 6) (s : State) (g : GangId) (n : Nat) : Nat :=
  if z = 2 then laneNum s g b.toNat n + laneNum s g (b.toNat + 1) n * 2 ^ 64 else laneNum s g b.toNat n % 2 ^ (8 * fabBytes z)

/-- The operand of a reduction in a lane, narrowed by R55. -/
def redData (t : BitVec 2) (b : BitVec 6) (s : State) (g : GangId) (n : Nat) : Nat := laneNum s g b.toNat n % 2 ^ (Ty.I t).bits

/-- The detail of a remote address (R450): 32, then 33. -/
def remoteDetail (addr pkg size : Nat) : Option Nat :=
  if addr ≥ 2 ^ 57 || pkg ≥ 2 ^ 10 then some 32 else if addr % size != 0 then some 33 else none

/-- Whether a gang's bytes at a package overlap a remote access that is still on its way. -/
def Remote.meets (r : Remote) (g : GangId) (q addr size : Nat) : Bool :=
  r.gang == g && r.dst == q && decide (r.addr < addr + size) && decide (addr < r.addr + r.size)

/-- Whether an unacknowledged `rst` or `rred` of a gang overlaps some bytes at a package (R455). -/
def State.remoteOverlap (s : State) (g : GangId) (q addr size : Nat) : Bool :=
  s.msgs.any fun m => match m.2 with
    | .remote r => r.kind != .load && r.meets g q addr size
    | _ => false

/-- Whether an unacknowledged `rst` or `rred` of a gang overlaps a window location at a package that is a member of its group
(R455). -/
def State.windowOverlap (s : State) (g : GangId) (n off size : Nat) : Bool :=
  (s.headgate n).members.any fun q => s.remoteOverlap g q ((s.group q n).wva * 2 ^ 16 + off) size

/-- Whether a `.bnd` signal of a gang is held at its port, which stalls its fabric writes (R456). -/
def State.portHeld (s : State) (g : GangId) : Bool := (s.gang g).heldSignals.any fun h => h.port

/-- The flit of a remote access of a lane to its destination (R419): a read request, or a write. -/
def Remote.request (r : Remote) : Nat := if r.kind == .load then 2 else 1
/-- The flit that answers it: a read response, or an acknowledgement. -/
def Remote.answer (r : Remote) : Nat := if r.kind == .load then 3 else 4

/-- The flit that carries a message to another package (R419, R423): a remote access to its destination, and a batch to its
headgate. -/
def State.flyMsg (s : State) (m : Msg) (tag : Nat) : State :=
  match m with
  | .remote r => s.fly r.request 0 r.gang.pkg r.dst tag
  | .batch b => match b.gang with
    | some g => s.fly 5 2 g.pkg (s.group g.pkg b.group).hpkg tag
    | none => s
  | _ => s

/-- Several messages sent, in order. -/
def State.sendAll (s : State) : List Msg → State
  | [] => s
  | m :: ms => ((s.flyMsg m s.nextId).send m).sendAll ms

/-- Bytes added to a gang's pending-byte counter (R456). -/
def State.addPending (s : State) (g : GangId) (n : Nat) : State := s.modGang g fun x => { x with pending := x.pending + BitVec.ofNat 64 n }

/-- The register of a lane of `rld`: for an s register the lowest active lane's value alone is kept (R56), and 64 stands for none. -/
def loadReg (d : Nat) (act : Word) (n : Nat) : Nat := if d ≥ 48 && lowestLane act != some n then 64 else d

/-- Whether some bytes at a gang's own package are those of a local access of the gang that is not performed, or of a store of its core,
which the core's reads have seen (R199, R223; log entry 24). -/
def State.ownOverlap (s : State) (g : GangId) (q addr size : Nat) : Bool :=
  let meets (f : Access) : Bool := f.space == .g && f.overlaps { f with size := size, lanes := [s.ownLane q f.ctx addr] }
  q == g.pkg && (s.flight.any (fun f => (f.gang == g || f.storeOf g.coreId) && meets f) || (s.gang g).hold.any meets)

/-- A remote instruction: its lanes are checked, wait where R455 and R456 make them wait, and are sent. -/
def remoteOp (i : Instr) (kind : AccessKind) (size op : Nat) (ty : Ty) (a : BitVec 6) (data : State → GangId → Nat → Nat) (d : Nat)
    (s : State) : Out :=
  issue i s fun t =>
    match t.cur with
    | .a g =>
      let act := t.active t.cur
      let ls := lanesOf act
      let addr (n : Nat) : Nat := laneNum t g a.toNat n
      let dst (n : Nat) : Nat := laneNum t g (a.toNat + 1) n
      match firstFault (ls.filterMap fun n => (remoteDetail (addr n) (dst n) size).map fun e => (n, e, addr n)) with
      | some r => .next (t.raise t.cur { r with len := i.size })
      | none =>
        if ls.any (fun n => t.remoteOverlap g (dst n) (addr n) size || t.ownOverlap g (dst n) (addr n) size) || (kind != .load && t.portHeld g && !ls.isEmpty)
            || (kind == .load && t.feWaits g) || (t.fenceOpen g (t.gang g).era && !ls.isEmpty) then .next s
        else
          let x := t.gang g
          let msg (n : Nat) : Msg := .remote
            { gang := g, ctx := x.ctx, sup := x.mode != .user, dst := dst n, kind := kind, size := size, op := op, ty := ty, addr := addr n
              data := data t g n, poison := false, lane := n, dreg := loadReg d act n, served := false, lost := false
              era := x.era, first := t.nextId }
          let t := t.sendAll (ls.map msg)
          .next ((if kind == .load then t else t.addPending g (size * ls.length)).advance i)
    | _ => .next s

/-- `RLD` (R453): Remote load from another package. -/
def execRld (z : BitVec 2) (a : BitVec 6) (d : BitVec 6) : State → Out :=
  remoteOp (.rld z a d) .load (fabBytes z) 0 .b64 a (fun _ _ _ => 0) d.toNat
/-- `RST` (R454): Remote store. -/
def execRst (z : BitVec 2) (b : BitVec 6) (a : BitVec 6) : State → Out :=
  remoteOp (.rst z b a) .store (fabBytes z) 0 .b64 a (fabData z b) 64
/-- `RRED_ADD` (R454): Remote add reduction. -/
def execRredAdd (t : BitVec 2) (b : BitVec 6) (a : BitVec 6) : State → Out :=
  remoteOp (.rredAdd t b a) .atomic ((Ty.I t).bits / 8) 0 (.I t) a (redData t b) 64
/-- `RRED_MIN` (R454): Remote minimum reduction. -/
def execRredMin (t : BitVec 2) (b : BitVec 6) (a : BitVec 6) : State → Out :=
  remoteOp (.rredMin t b a) .atomic ((Ty.I t).bits / 8) 1 (.I t) a (redData t b) 64
/-- `RRED_MAX` (R454): Remote maximum reduction. -/
def execRredMax (t : BitVec 2) (b : BitVec 6) (a : BitVec 6) : State → Out :=
  remoteOp (.rredMax t b a) .atomic ((Ty.I t).bits / 8) 2 (.I t) a (redData t b) 64
/-- `RRED_AND` (R454): Remote and reduction. -/
def execRredAnd (t : BitVec 2) (b : BitVec 6) (a : BitVec 6) : State → Out :=
  remoteOp (.rredAnd t b a) .atomic ((Ty.I t).bits / 8) 3 (.I t) a (redData t b) 64
/-- `RRED_OR` (R454): Remote or reduction. -/
def execRredOr (t : BitVec 2) (b : BitVec 6) (a : BitVec 6) : State → Out :=
  remoteOp (.rredOr t b a) .atomic ((Ty.I t).bits / 8) 4 (.I t) a (redData t b) 64
/-- `RRED_XOR` (R454): Remote xor reduction. -/
def execRredXor (t : BitVec 2) (b : BitVec 6) (a : BitVec 6) : State → Out :=
  remoteOp (.rredXor t b a) .atomic ((Ty.I t).bits / 8) 5 (.I t) a (redData t b) 64

/-! ## Serving at the destination (R451, R452, R454) -/

/-- Whether a package cannot be reached from another: it is declared dead, or has no route (R452). -/
def State.unreachable (s : State) (p q : Nat) : Bool :=
  p != q && (let r : Route := tget q {} (s.pkg p).paths
    r.dead || r.porta == 31)

/-- What a remote access needs of its page at the destination (R452): to be read, to be written. -/
def Remote.permitted (r : Remote) (e : TlbEntry) : Bool := e.u && (if r.kind == .load then e.r else e.w)

/-- Whether an earlier access of the gang to overlapping bytes at the same package has still to be served (R454, R455). -/
def remoteEarlier (n : Nat) (r : Remote) : List (Nat × Msg) → Bool
  | [] => false
  | (m, x) :: ms =>
    (match x with
      | .remote q => decide (m < n) && !q.served && q.meets r.gang r.dst r.addr r.size
      | _ => false) || remoteEarlier n r ms

/-- The lane of the same `rld` that has read the same location, whose value a lane there takes (R223). -/
def State.remoteTwin (s : State) (r : Remote) (k : Nat) : Option Remote :=
  s.msgs.findSome? fun m => match m.2 with
    | .remote q =>
      if q.gang == r.gang && q.kind == .load && q.first == r.first && q.served && !q.lost && (s.ownLane q.dst q.ctx q.addr).pa == some k then some q
      else none
    | _ => none

/-- Whether a lane of the same `rld` has still to be served, before which no lane's value returns (R223). -/
def State.remoteLanesOut (s : State) (r : Remote) : Bool :=
  s.msgs.any fun m => match m.2 with
    | .remote q => q.gang == r.gang && q.kind == .load && q.first == r.first && !q.served
    | _ => false

/-- A remote access served at a key of its destination. At its gang's own package the line leaves the core's L1, so that no later read of
the gang finds an older value there (R223). -/
def State.serveRemote (s : State) (n : Nat) (r : Remote) (k : Nat) : State :=
  let s := if r.dst = r.gang.pkg then s.dropWord (.a r.gang) k else s
  let put (s : State) (r : Remote) : State :=
    ({ s with msgs := tset n (.remote r) s.msgs } : State).fly r.answer 1 r.dst r.gang.pkg n
  match r.kind with
  | .load =>
    let (v, m) := match s.remoteTwin r k with
      | some q => (q.data, q.poison)
      | none => s.readAt k r.size
    put s { r with data := v, poison := m, served := true }
  | .atomic => put (s.atomicAt k r.size r.ty r.op r.data 0 r.poison).1 { r with served := true }
  | _ => put (s.storeBy false k (bytesOfNum r.data r.size) r.poison) { r with served := true }

/-- `REMOTE_ACCESS_SERVE` (R451): A remote load, store or reduction arriving at the destination is translated there and served at
its home slice, or answered as lost. -/
def execRemoteAccessServe (n : Nat) (s : State) : Out :=
  match tfind n s.msgs with
  | some (.remote r) =>
    let lose : State := { s with msgs := tset n (.remote { r with served := true, lost := true }) s.msgs }
    if r.served || remoteEarlier n r s.msgs || s.fenceOpen r.gang r.era || s.inQueue r.request r.gang.pkg r.dst n then .next s
    else if s.unreachable r.gang.pkg r.dst then .next lose
    else if s.walkWaits r.dst r.ctx r.addr then .next s
    else
      match s.walk r.dst r.ctx r.addr with
      | .mapped e =>
        let k := hbmKey r.dst (e.pa r.addr)
        if !r.permitted e then .next lose else if s.placeWaits k r.size then .next s else .next (s.serveRemote n r k)
      | .miss _ _ _ => .next lose
  | _ => .next s

/-- The value of a remote load written to its register: a lost one is zero with a poison mark (R452, R453). -/
def State.returnRemote (s : State) (r : Remote) : State :=
  let m : Word := laneMask [r.lane]
  let v := if r.lost then 0 else r.data
  let p := r.lost || r.poison
  if r.dreg ≥ 64 then s
  else
    let s := s.writeBank r.gang r.sup r.dreg m fun _ => ⟨BitVec.ofNat 64 v, p⟩
    if r.size = 16 then s.writeBank r.gang r.sup (r.dreg + 1) m fun _ => ⟨BitVec.ofNat 64 (v / 2 ^ 64), p⟩ else s

/-- `REMOTE_LOAD_RETURN` (R453): Remote load data returns and is written into the destination registers. -/
def execRemoteLoadReturn (n : Nat) (s : State) : Out :=
  match tfind n s.msgs with
  | some (.remote r) =>
    if r.served && r.kind == .load && !s.remoteLanesOut r && !s.inQueue r.answer r.dst r.gang.pkg n then
      .next (({ s with msgs := tdel n s.msgs } : State).returnRemote r) else .next s
  | _ => .next s

/-- `REMOTE_WRITE_ACK` (R456): A fabric write's acknowledgement, possibly as lost, lowers the pending-byte counter. -/
def execRemoteWriteAck (n : Nat) (s : State) : Out :=
  match tfind n s.msgs with
  | some (.remote r) =>
    if r.served && r.kind != .load && !s.inQueue r.answer r.dst r.gang.pkg n then
      let s : State := { s with msgs := tdel n s.msgs }
      .next (if r.lost then s.ackLost r.gang r.size else s.ackBytes r.gang r.size)
    else .next s
  | _ => .next s

/-! ## Multicast instructions (R457 to R459) -/

/-- The group of a window address. -/
def windowGroup (w : Nat) : Nat := w / 2 ^ 32 % 2 ^ 12
/-- The offset of a window address. -/
def windowOffset (w : Nat) : Nat := w % 2 ^ 32

/-- The detail of a window address (R450): 33, then 34. -/
def State.windowDetail (s : State) (g : GangId) (w size : Nat) : Option Nat :=
  let e := s.group g.pkg (windowGroup w)
  if windowOffset w % size != 0 then some 33
  else if w ≥ 2 ^ 44 || !e.en || e.ctx != (s.gang g).ctx || decide (e.wlen * 2 ^ 16 < windowOffset w + size) then some 34
  else none

/-- The groups that some lanes name, in ascending order without repeats. -/
def groupsOf (ns : List Nat) : List Nat := sortBy (fun a b => decide (a < b)) (dedup ns)

/-- Lanes whose group has failed at this member: counted as lost, and their sequence 0 (R457 to R459). -/
def State.failLanes (s : State) (g : GangId) (d : Option Nat) : List Nat → State
  | [] => s
  | n :: ns =>
    let s := s.countLost g
    (match d with
      | some r => s.writeReg (.a g) .b64 r (s.laneShare g r (laneMask [n])) fun _ => 0
      | none => s).failLanes g d ns

/-- A multicast instruction: its lanes are checked and sent to the headgates of their groups, one batch for each. -/
def multicastOp (i : Instr) (size : Nat) (a : BitVec 6) (act : State → GangId → Nat → Nat → McAct) (d : Option Nat) (s : State) : Out :=
  issue i s fun t =>
    match t.cur with
    | .a g =>
      let ls := lanesOf (t.active t.cur)
      let addr (n : Nat) : Nat := laneNum t g a.toNat n
      match firstFault (ls.filterMap fun n => (t.windowDetail g (addr n) size).map fun e => (n, e, addr n)) with
      | some r => .next (t.raise t.cur { r with len := i.size })
      | none =>
        if (t.portHeld g && !ls.isEmpty) || ls.any (fun n => t.windowOverlap g (windowGroup (addr n)) (windowOffset (addr n)) size) then
          .next s
        else
          let dead (n : Nat) : Bool := (t.group g.pkg (windowGroup (addr n))).state == 5
          let live := ls.filter fun n => !dead n
          let batch (q : Nat) : Msg := .batch
            { gang := some g, group := q, dreg := d, held := false, sup := (t.gang g).mode != .user, era := (t.gang g).era
              share := match d with
                | some r => t.laneShare g r (laneMask live)
                | none => 0
              items := (live.filter fun n => windowGroup (addr n) == q).map fun n => (n, act t g (windowOffset (addr n)) n, size) }
          let u := (t.failLanes g d (ls.filter dead)).sendAll ((groupsOf (live.map fun n => windowGroup (addr n))).map batch)
          .next ((u.addPending g (size * live.length)).advance i)
    | _ => .next s

/-- A multicast atomic's record. -/
def mcAtomic (op : Nat) (t : BitVec 2) (b : BitVec 6) (s : State) (g : GangId) (off n : Nat) : McAct :=
  .atomic off op (.I t) (redData t b s g n) false

/-- `MCST` (R458): Multicast store stamped by the headgate; the sequence is returned. -/
def execMcst (z : BitVec 2) (b : BitVec 6) (a : BitVec 6) (d : BitVec 6) : State → Out :=
  multicastOp (.mcst z b a d) (fabBytes z) a (fun s g off n => .store off (fabBytes z) (fabData z b s g n) false) (some d.toNat)
/-- `MCATOM_ADD` (R459): Multicast atomic add. -/
def execMcatomAdd (t : BitVec 2) (b : BitVec 6) (a : BitVec 6) : State → Out :=
  multicastOp (.mcatomAdd t b a) ((Ty.I t).bits / 8) a (mcAtomic 0 t b) none
/-- `MCATOM_MIN` (R459): Multicast atomic minimum. -/
def execMcatomMin (t : BitVec 2) (b : BitVec 6) (a : BitVec 6) : State → Out :=
  multicastOp (.mcatomMin t b a) ((Ty.I t).bits / 8) a (mcAtomic 1 t b) none
/-- `MCATOM_MAX` (R459): Multicast atomic maximum. -/
def execMcatomMax (t : BitVec 2) (b : BitVec 6) (a : BitVec 6) : State → Out :=
  multicastOp (.mcatomMax t b a) ((Ty.I t).bits / 8) a (mcAtomic 2 t b) none
/-- `MCATOM_AND` (R459): Multicast atomic and. -/
def execMcatomAnd (t : BitVec 2) (b : BitVec 6) (a : BitVec 6) : State → Out :=
  multicastOp (.mcatomAnd t b a) ((Ty.I t).bits / 8) a (mcAtomic 3 t b) none
/-- `MCATOM_OR` (R459): Multicast atomic or. -/
def execMcatomOr (t : BitVec 2) (b : BitVec 6) (a : BitVec 6) : State → Out :=
  multicastOp (.mcatomOr t b a) ((Ty.I t).bits / 8) a (mcAtomic 4 t b) none
/-- `MCATOM_XOR` (R459): Multicast atomic xor. -/
def execMcatomXor (t : BitVec 2) (b : BitVec 6) (a : BitVec 6) : State → Out :=
  multicastOp (.mcatomXor t b a) ((Ty.I t).bits / 8) a (mcAtomic 5 t b) none

/-! ## `mcwait` (R241, R460) -/

/-- `MCWAIT` (R460): Wait until the applied sequence reaches b, then invalidate the window's L1 lines. -/
def execMcwait (b : BitVec 6) (a : BitVec 6) (s : State) : Out :=
  issue (.mcwait b a) s fun t =>
    match t.cur with
    | .a g =>
      if t.active t.cur = 0 then .next (t.advance (.mcwait b a))
      else
        let v := leaderValue t t.cur .b64 a.toNat
        let n := v.toNat % 2 ^ 12
        let st := (t.group g.pkg n).state
        if st = 0 || st = 1 || st = 5 then .next (t.raiseAt t.cur causeMemory 37 (BitVec.ofNat 64 n))
        else .next (t.tryMcwait g n ((leaderValue t t.cur .b64 b.toNat).toNat % 2 ^ 48))
    | _ => .next s

/-! ## Applying a record (R428, R429) -/

/-- The key of a window location through the member's own mapping, where it is mapped for writing. -/
def State.windowKey (s : State) (p : Nat) (e : Group) (off : Nat) : Option Nat :=
  match s.walk p e.ctx (e.wva * 2 ^ 16 + off) with
  | .mapped t => if t.w then some (hbmKey p (t.pa (e.wva * 2 ^ 16 + off))) else none
  | .miss _ _ _ => none

/-- A record's effect at a member: none where the place cannot be accessed just now. A window that the member's context does not
map for writing takes nothing (log entry 19). -/
def State.applyAct (s : State) (p : Nat) (e : Group) (act : McAct) : Option State :=
  match act with
  | .store off size data poison =>
    if s.walkWaits p e.ctx (e.wva * 2 ^ 16 + off) then none
    else match s.windowKey p e off with
    | some k => if s.placeWaits k size then none else some (s.storeBy false k (bytesOfNum data size) poison)
    | none => some s
  | .atomic off op ty data poison =>
    if s.walkWaits p e.ctx (e.wva * 2 ^ 16 + off) then none
    else match s.windowKey p e off with
    | some k => if s.placeWaits k (ty.bits / 8) then none else some (s.atomicAt k (ty.bits / 8) ty op data 0 poison).1
    | none => some s
  | _ => some s

/-- A member applies a record: its effect, then `applied`, and the record is kept while it is above stable. -/
def State.applyRecord (s : State) (p n : Nat) (r : McRec) : Option State :=
  let st := (s.headgate n).stable
  (s.applyAct p (s.group p n) r.act).map fun s =>
    s.modGroup p n fun e => { e with applied := r.seq, kept := (e.kept ++ [r]).filter fun k => decide (st < k.seq) }

/-- `MULTICAST_APPLY` (R428): A member applies the next record in sequence order, advances applied and reports to the headgate. -/
def execMulticastApply (p : Nat) (n : Nat) (s : State) : Out :=
  let e := s.group p n
  if e.state != 2 && e.state != 3 then .next s
  else
    match (s.headgate n).records.find? fun r => r.seq == e.applied + 1 with
    | none => .next s
    | some r =>
      if s.inQueue 5 e.hpkg p r.seq then .next s
      else if r.act = .leave p then .next (s.leaveNow p n)
      else
        .next (match s.applyRecord p n r with
          | some s => ((s.settleStable n).wakeMcwaits p n (s.gangs.map (·.1))).leaveNow p n
          | none => s)

/-! ## Rehoming (R432) -/

/-- A record that some member has kept, or a membership change, which every member knows. -/
def State.findRecord (s : State) (n seq : Nat) (ms : List Nat) : Option McRec :=
  match (ms.flatMap fun p => (s.group p n).kept).find? fun r => r.seq == seq with
  | some r => some r
  | none => (s.headgate n).records.find? fun (r : McRec) => r.seq == seq && match r.act with
    | .join _ => true
    | .leave _ => true
    | _ => false

/-- A member sent its missing records up to a sequence. One that no surviving member has kept was applied by none of them, and is
passed over (log entry 19). -/
def State.catchUp (s : State) (p n : Nat) (ms : List Nat) : Nat → Option State
  | 0 => some s
  | k + 1 =>
    match s.findRecord n ((s.group p n).applied + 1) ms with
    | none => (s.modGroup p n fun e => { e with applied := e.applied + 1 }).catchUp p n ms k
    | some r => (s.applyRecord p n r).bind fun s => s.catchUp p n ms k

/-- The records of a dead headgate up to hmax that are neither stable nor kept by any member: they are lost (log entry 19). -/
def State.unkept (s : State) (n hmax : Nat) (ms : List Nat) : List McRec :=
  (s.headgate n).records.filter fun r =>
    decide (r.seq ≤ hmax) && (ms.any fun p => decide ((s.group p n).applied < r.seq)) && (s.findRecord n r.seq ms).isNone

/-- Every member below hmax caught up. -/
def State.catchUpAll (s : State) (n hmax : Nat) (ms : List Nat) : List Nat → Option State
  | [] => some s
  | p :: ps =>
    if (s.group p n).state = 4 then (s.catchUp p n ms (hmax - (s.group p n).applied)).bind fun s => s.catchUpAll n hmax ms ps
    else s.catchUpAll n hmax ms ps

/-- Records above hmax are void: their writers are told that they are lost, and a membership change asks again. -/
def State.voidRecords (s : State) (n : Nat) : List McRec → State
  | [] => s
  | r :: rs =>
    (match r.act, r.writer with
      | .join p, _ => s.sendChange n (.join p)
      | .leave p, _ => s.sendChange n (.leave p)
      | _, some g => s.ackLost g r.bytes
      | _, none => s).voidRecords n rs

/-- The entries of a group's members after its rehoming. -/
def State.resume (s : State) (n hmax epoch : Nat) (ms : List Nat) : State :=
  { s with pkgs := s.pkgs.map fun (p : Nat × Pkg) =>
      (p.1, if ms.contains p.1 then
          { p.2 with groups := p.2.groups.map fun (g : Nat × Group) =>
              (g.1, if g.1 = n then { g.2 with voidfrom := hmax + 1, epoch := epoch, state := if g.2.state = 4 then 2 else g.2.state }
                    else g.2) }
        else p.2) }

/-- `HEADGATE_REHOME` (R432): Naming a new headgate starts the rehoming: collect hmax, fill the members, set voidfrom and epoch, and
stamp again. -/
def execHeadgateRehome (n : Nat) (hpkg : Nat) (hdie : Nat) (s : State) : Out :=
  let h := s.headgate n
  let named := h.members.all fun p =>
    let e := s.group p n
    e.state != 4 || (e.hpkg == hpkg && e.hdie == hdie && !(s.pkg p).deadPkg hpkg)
  if !s.rehoming n || !named then .next s
  else
    let hmax := (h.members.map fun p => (s.group p n).applied).foldl max 0
    let lost := s.unkept n hmax h.members
    match s.catchUpAll n hmax h.members h.members with
    | none => .next s
    | some s =>
      let s := s.resume n hmax (h.epoch + 1) h.members
      let s := s.modHeadgate n fun h =>
        { h with next := hmax + 1, epoch := h.epoch + 1
                 records := h.records.filter fun r => decide (r.seq ≤ hmax) && !lost.contains r }
      let s := s.voidRecords n (h.records.filter fun r => decide (hmax < r.seq) || lost.contains r)
      .next (h.members.foldl (fun s p => s.wakeMcwaits p n (s.gangs.map (·.1))) (s.settleStable n))

end Sys2Proof.Machine
end

