-- ==== Sys2Proof/Machine/Upkeep.lean ====
section
/-! DEFINITION. Package instructions but for the saves (R409, R412 to R416), and the package's upkeep: cold reset, boot and
attestation (R10, R403, R404), host accesses (R244, R395), base dies (R377, R378), power, temperature and wear (R401, R402) and the
time base (R393, R394). -/

namespace Sys2Proof.Machine

/-! ## `tmwait` (R409) -/

/-- The package of a unit. -/
def unitPkg (u : UnitId) : Nat := (UnitClu u).pkg

/-- `TMWAIT` (R409): Stall until the time base reaches a time. -/
def execTmwait (a : BitVec 6) (s : State) : Out :=
  issue (.tmwait a) s fun t =>
    let u := t.cur
    let v := (leaderValue t u .b64 a.toNat).toNat
    if t.active u = 0 || v ≤ (t.pkg (unitPkg u)).time then .next (t.advance (.tmwait a)) else .next (t.setWait u (some (.tmwait v)))

/-- `TMWAIT_EXPIRY` (R409): The time base reaches a waiting tmwait's time, and it returns. -/
def execTmwaitExpiry (u : UnitId) (s : State) : Out :=
  match s.waitOf u with
  | some (.tmwait v) => if v ≤ (s.pkg (unitPkg u)).time then .next (s.retire u) else .next s
  | _ => .next s

/-! ## Retirement (R412 to R414) -/

/-- Whether the operand of `rtcore` or `rtclu` names no unit (detail 30). -/
def retireBad (v : Nat) : Bool := v ≥ 2 ^ 14 || v % 16 > 11 || v / 16 % 64 > 33
/-- The act bit of the operand: return to service. -/
def retireAct (v : Nat) : Bool := v / 2 ^ 13 % 2 = 1

/-- The core that an operand of `rtcore` names. -/
def retireCore (p v : Nat) : CoreId := ⟨p, v % 16, v / 16 % 64, v / 2 ^ 10 % 8⟩

/-- Whether a crew of any context is on a core, a collective's on a core of its partition among them (R190, R443). -/
def State.coreHeld (s : State) (c : CoreId) : Bool := s.gangs.any (fun g => g.1.coreId = c && g.2.inUse) || (s.core c).collective

/-- `RTCORE` (R413): Retire a core or return it to service. A retirement stalls with the full bit set while a crew is there. -/
def execRtcore (a : BitVec 6) (s : State) : Out :=
  issue (.rtcore a) s fun t =>
    match t.cur with
    | .a g =>
      let v := leaderValue t t.cur .b64 a.toNat
      let c := retireCore g.pkg v.toNat
      if t.active t.cur = 0 then .next (t.advance (.rtcore a))
      else if retireBad v.toNat then .next (t.raiseAt t.cur causeMemory 30 v)
      else if retireAct v.toNat then
        .next ((if (t.core c).retired then
            t.modCore c fun x => { x with retired := false, full := false, flagged := false, corr := 0, poison := 0, mism := 0 }
          else t).advance (.rtcore a))
      else if (t.core c).retired then .next (t.advance (.rtcore a))
      else if t.coreHeld c then .next (s.modCore c fun x => { x with full := true })
      else .next ((t.modCore c fun x => { x with full := true, retired := true }).advance (.rtcore a))
    | _ => .next s

/-- A physical cluster taken out of service: a number that it had has to pass on (R357). -/
def Die.retire (x : Die) (p : Nat) : Die :=
  let r := x.remapOf p
  if r.active || r.spare then
    { x with
      remap := tset p { r with active := false, spare := false } x.remap
      retiring := if r.active then x.retiring ++ [p] else x.retiring }
  else x

/-- A retired cluster returned to service: as logical n, or as a spare. -/
def Die.unretire (x : Die) (p : Nat) : Die :=
  let r := x.remapOf p
  let n := x.activeCount
  { x with
    remap := tset p { r with flagged := false, active := decide (n < 32), spare := decide (32 ≤ n), logical := if n < 32 then n else 0 }
      x.remap }

/-- Whether a retirement has still to wait: a cluster group is there, or its number has still to pass to a spare. -/
def State.retireWaits (s : State) (d : DieId) (p : Nat) : Bool :=
  s.cluBusy ⟨d.pkg, d.die, p⟩ || ((s.die d).retiring.contains p && decide (0 < (s.die d).spareCount))

/-- `RTCLU` (R414): Retire a physical cluster or return it to service. A return waits while a number of its die has still to pass on
(log entry 21). -/
def execRtclu (a : BitVec 6) (s : State) : Out :=
  issue (.rtclu a) s fun t =>
    match t.cur with
    | .a g =>
      let v := leaderValue t t.cur .b64 a.toNat
      let d : DieId := ⟨g.pkg, v.toNat % 16⟩
      let p := v.toNat / 16 % 64
      let r := (t.die d).remapOf p
      if t.active t.cur = 0 then .next (t.advance (.rtclu a))
      else if retireBad v.toNat || v.toNat / 2 ^ 10 % 8 != 0 then .next (t.raiseAt t.cur causeMemory 30 v)
      else if retireAct v.toNat then
        if r.active || r.spare then .next (t.advance (.rtclu a))
        else if !(t.die d).retiring.isEmpty then .next s
        else .next ((t.modDie d fun x => x.unretire p).advance (.rtclu a))
      else
        let settle (x : State) : State := (x.modDie d fun y => y.retire p).passNumber d p
        let w := if r.active || r.spare || (t.die d).retiring.contains p then settle t else t
        if w.retireWaits d p then .next (if r.active || r.spare then settle s else s) else .next (w.advance (.rtclu a))
    | _ => .next s

/-! ## Skew and re-planning (R415, R416) -/

/-- The skew state of a launch (R415). -/
def Launch.skewState (x : Launch) : Nat := min x.spread (2 ^ 32 - 1) + x.ended % 2 ^ 16 * 2 ^ 32 + bitNum x.replan 63

/-- `SKRD` (R415): Read the skew state of the gang's launch. -/
def execSkrd (d : BitVec 6) (s : State) : Out :=
  issue (.skrd d) s fun s =>
    match s.cur with
    | .a g =>
      let v : DWord := BitVec.ofNat 64 (s.launch g.pkg (s.gang g).launch).skewState
      .next ((s.writeReg s.cur .b64 d.toNat (s.active s.cur) fun _ => v).advance (.skrd d))
    | _ => .next s

/-- `REPLAN` (R416): Raise a re-plan request for a launch. -/
def execReplan (a : BitVec 6) (s : State) : Out :=
  issue (.replan a) s fun t =>
    match t.cur with
    | .a g =>
      let h := leaderValue t t.cur .b64 a.toNat
      let x := t.gang g
      let own := (t.launch g.pkg x.launch).status
      if t.active t.cur = 0 then .next (t.advance (.replan a))
      else if h = 0 then .next ((t.requestReplan g.pkg x.launch own).advance (.replan a))
      else
        match (t.pkg g.pkg).launches.find? fun l => l.2.ctx == x.ctx && l.2.status == h with
        | some l => .next ((t.requestReplan g.pkg l.1 h).advance (.replan a))
        | none => .next (t.raiseAt t.cur causeMemory 31 h)
    | _ => .next s

/-! ## Cold reset (R10, R194) -/

/-- Whether a message belongs to a package: it was sent by an agent there, or is on its way to a weir there. -/
def Msg.ofPkg (m : Msg) (p : Nat) : Bool :=
  match m with
  | .remote r => r.gang.pkg == p
  | .batch b => match b.gang with
    | some g => g.pkg == p
    | none => false
  | .arrival a => match a.weir with
    | .die d => d.pkg == p
    | .pkg q => q == p
    | .pod _ _ => false
  | .change c => unitPkg c.agent == p

/-- Whether a unit's key lies in a package's supervisor windows. -/
def inWindows (p k : Nat) : Bool := keyPkg k == p && keyRegion k == 4

/-- `PACKAGE_COLD_RESET` (R10): Package cold reset puts every register field at its reset value and clears the supervisor windows.
What is fused into the package stays, and so do the bytes of the other memories (log entry 2) and what the sections of images that it has
written hold (log entry 11). -/
def execPackageColdReset (p : Nat) (s : State) : Out :=
  let x := s.pkg p
  let fresh : Pkg :=
    { serial := x.serial, idkey := x.idkey, bootKey := x.bootKey, keyDigest := x.keyDigest, minVersion := x.minVersion
      mgmtQueues := x.mgmtQueues, images := x.images, nextLaunch := x.nextLaunch }
  .next { s with
    issue := s.issue.filter fun u => unitPkg u != p
    gangs := s.gangs.filter fun g => g.1.pkg != p
    cores := s.cores.filter fun c => c.1.pkg != p
    clus := s.clus.filter fun c => c.1.pkg != p
    dies := s.dies.filter fun d => d.1.pkg != p
    pkgs := tset p fresh s.pkgs
    msgs := s.msgs.filter fun m => !m.2.ofPkg p
    weirs := s.weirs.filter fun w => match w.1.1 with
      | .die d => d.pkg != p
      | .pkg q => q != p
      | .pod _ _ => true
    weirLost := s.weirLost.filter fun w => w.1 != p
    flight := s.flight.filter fun a => a.gang.pkg != p
    mem := s.mem.filter fun c => !inWindows p c.1 }

/-! ## Boot and attestation (R403, R404) -/

/-- A 256-bit value as bytes, in the byte order of R3. -/
def digestBytes (v : BitVec 256) : List Byte := bytesOfNum v.toNat 32

/-- Whether a boot stage verifies: the public key has the fused digest, the signature is valid under it, and the version is not
below the fused count (R403). -/
def Pkg.stageOk (x : Pkg) (image : List Byte) (sig : BitVec 512) (version : Nat) : Bool :=
  Config.sm3 (bytesOfNum x.bootKey.toNat 64) == x.keyDigest && Config.sm2Valid x.bootKey (digestBytes (Config.sm3 image)) sig
    && decide (x.minVersion ≤ version)

/-- The submission queues that the management controller takes for its own launches, which the firmware chooses (R201; log entry 40). -/
def mgmtChoice (clock : Nat) : List Nat := (List.range 64).filter fun n => Config.choice (clock + n) 2 % 2 = 1

/-- A boot stage checked: its digest extends a measurement register. How many stages there are is the implementation's, so a free
choice says whether the work dies are released after it (log entry 9), and the management controller's queues are then chosen. -/
def Pkg.bootStage (x : Pkg) (clock : Nat) (image : List Byte) (sig : BitVec 512) (version : Nat) (reg : Nat) : Pkg :=
  if x.stageOk image sig version then
    { x with
      measure := tset reg (Config.sm3 (digestBytes (tget reg 0 x.measure) ++ digestBytes (Config.sm3 image))) x.measure
      version := version, booted := decide (Config.choice clock 2 % 2 = 0)
      mgmtQueues := if Config.choice clock 2 % 2 = 0 then mgmtChoice (clock + 1) else x.mgmtQueues }
  else { x with bootFailed := true }

/-- `SECURE_BOOT_STAGE` (R403): The management controller checks the next firmware stage's SM2 signature and anti-rollback count,
extends a measurement register, and stops the boot on failure. -/
def execSecureBootStage (p : Nat) (image : List Byte) (sig : BitVec 512) (version : Nat) (reg : BitVec 3) (s : State) : Out :=
  let x := s.pkg p
  if x.booted || x.bootFailed then .next s
  else .next { s.modPkg p fun x => x.bootStage s.clock image sig version reg.toNat with clock := s.clock + 65 }

/-- The signed part of an attestation report (R404). -/
def Pkg.reportBody (x : Pkg) (nonce : BitVec 256) : List Byte :=
  bytesOfNum x.serial.toNat 16 ++ bytesOfNum x.version 8 ++ bytesOfNum x.time 8 ++ digestBytes nonce
    ++ (List.range 8).flatMap (fun i => digestBytes (tget i 0 x.measure)) ++ bytesOfNum x.idkey.toNat 64

/-- An attestation report (R404). -/
def Pkg.attest (x : Pkg) (nonce : BitVec 256) : List Byte :=
  let body := x.reportBody nonce
  body ++ bytesOfNum (Config.sm2Sign x.idkey.toNat (digestBytes (Config.sm3 body))).toNat 64

/-- `ATTESTATION_REQUEST` (R404): A request carrying a 32-byte nonce is answered with a report signed by the identity key. -/
def execAttestationRequest (p : Nat) (nonce : BitVec 256) (s : State) : Out :=
  .next (s.modPkg p fun x => { x with replies := x.replies ++ [(x.attest nonce, false)] })

/-! ## The host (R244, R395) -/

/-- Whether BAR0 reaches an address: it spans the two megabytes of the control blocks (R395). -/
def inBar0 (addr : Nat) : Bool := dieBlocks ≤ addr && addr < dieBlocks + 0x200000

/-- `HOST_WRITE` (R244, R395): A host write arriving on a PCI Express port is performed as a .g write at its home L2 slice. -/
def execHostWrite (p : Nat) (_port : Nat) (addr : Nat) (data : List Byte) (s : State) : Out :=
  let n := data.length
  if n = 0 then .next s
  else if addr < hbmSize then
    if s.placeWaits (hbmKey p addr) n then .next s else .next (s.writeHome (hbmKey p addr) (data.take (hbmSize - addr)) false)
  else if inBar0 addr then .next (s.storeBlock p addr data)
  else .next s

/-- Bytes returned to the host, with their poison mark (R327). -/
def Pkg.reply (x : Pkg) (bs : List Byte) (poison : Bool) : Pkg := { x with replies := x.replies ++ [(bs, poison)] }

/-- `HOST_READ` (R395): A host read through BAR0 or BAR2 returns control-block or HBM data. No read of an address that neither BAR
reaches arrives (log entry 40). -/
def execHostRead (p : Nat) (_port : Nat) (addr : Nat) (len : Nat) (s : State) : Out :=
  if addr < hbmSize then
    let n := min len (hbmSize - addr)
    if s.placeWaits (hbmKey p addr) len then .next s
    else
      .next (s.modPkg p fun x => x.reply (s.readBytes (hbmKey p addr) n ++ List.replicate (len - n) 0) (s.markedAt (hbmKey p addr) n))
  else if inBar0 addr then
    let v := s.readAt (hbmKey p addr) len
    .next (s.modPkg p fun x => x.reply (bytesOfNum v.1 len) v.2)
  else .next s

/-! ## Base dies (R377, R378) -/

/-- The physical address of a 64-byte line of a stack (R376). -/
def stackLine (stack n : Nat) : Nat := (64 * n / 8192 * 24 + stack) * 8192 + 64 * n % 8192

/-- A wear record of a package changed. -/
def Pkg.modWear (x : Pkg) (u : Nat) (f : Wear → Wear) : Pkg := { x with wear := tset u (f (tget u (wearReset u) x.wear)) x.wear }

/-- Lines of a package poisoned (R377). -/
def State.poisonLines (s : State) (p : Nat) : List Nat → State
  | [] => s
  | pa :: rest =>
    let s := if pa < hbmSize then { s with marks := marksAfter (hbmKey p pa) 64 true s.marks } else s
    s.poisonLines p rest

/-- Nanoseconds in 24 hours (R378). -/
def dayNs : Nat := 86400 * 10 ^ 9

/-- An error of a row: it is to be spared after eight corrected ones within 24 hours, or the first that cannot be corrected
(R378). -/
def RowErrs.note (r : RowErrs) (time : Nat) (corrected : Bool) : RowErrs :=
  if corrected then
    let ts := time :: r.times.filter fun t => decide (time < t + dayNs)
    { times := ts, due := r.due || decide (8 ≤ ts.length) }
  else { r with due := true }

/-- Errors of lines of a stack noted by their rows (R378). -/
def Pkg.noteRows (x : Pkg) (stack : Nat) (corrected : Bool) : List Nat → Pkg
  | [] => x
  | n :: ns =>
    let k := (stack, Config.rowOf n)
    ({ x with rows := tset k ((tget k {} x.rows : RowErrs).note x.time corrected) x.rows } : Pkg).noteRows stack corrected ns

/-- The errors that a base die meets in lines of its stack (R377, R378): corrected ones are counted, the other lines marked. -/
def State.stackErrors (s : State) (p stack : Nat) (corrected bad : List Nat) : State :=
  (s.modPkg p fun x =>
    (((x.modWear (14 + stack) fun w => { w with errors := (w.errors + corrected.length) % 2 ^ 32 }).noteRows stack true corrected).noteRows
      stack false bad)).poisonLines p (bad.map (stackLine stack))

/-- `BASE_DIE_SCRUB` (R377): The base die scrubs its stack at least daily, correcting what it can and marking poisoned lines. -/
def execBaseDieScrub (p : Nat) (stack : Nat) (corrected : List Nat) (bad : List Nat) (s : State) : Out :=
  if stack < 24 then .next (s.stackErrors p stack corrected bad) else .next s

/-- Spare rows left in the worst bank of a stack (R402). -/
def Pkg.rowsLeft (x : Pkg) (stack : Nat) : Nat :=
  64 - (x.spares.map fun e => if e.1.1 = stack then min e.2 64 else 0).foldl max 0

/-- A row remapped to a spare of its bank, where one is left; its errors are forgotten with it. -/
def Pkg.spareRow (x : Pkg) (stack bank row : Nat) : Pkg :=
  let used := tget (stack, bank) 0 x.spares
  let y := if used < 64 then { x with spares := tset (stack, bank) (used + 1) x.spares, rows := tdel (stack, bank, row) x.rows } else x
  y.modWear (14 + stack) fun w => { w with rows := y.rowsLeft stack }

/-- `ROW_SPARE_COPY` (R378): A row that failed repeatedly or uncorrectably is copied into a spare row and remapped while its
accesses wait. The row keeps its contents and its marks. -/
def execRowSpareCopy (p : Nat) (stack : Nat) (bank : Nat) (row : Nat) (s : State) : Out :=
  if stack < 24 && (tget (stack, bank, row) {} (s.pkg p).rows : RowErrs).due then .next (s.modPkg p fun x => x.spareRow stack bank row)
  else .next s

/-! ## Power, temperature and wear (R401, R402) -/

/-- The arithmetic clock moved by a step (R401). -/
def stepClock (f : Nat) (up : Bool) : Nat := if up then min (f + 25) 850 else max (f - 25) 425

/-- `CLOCK_ADJUST` (R401): Firmware moves the arithmetic clock in 25 MHz steps to hold the powcap limit over 1 ms. -/
def execClockAdjust (p : Nat) (up : Bool) (s : State) : Out := .next (s.modPkg p fun x => { x with fclk := stepClock x.fclk up })

/-- `THERMAL_THROTTLE` (R401): At a junction temperature of 100 °C firmware lowers the clock. -/
def execThermalThrottle (p : Nat) (s : State) : Out := .next (s.modPkg p fun x => { x with fclk := stepClock x.fclk false })

/-- `THERMAL_STOP` (R401): At 110 °C the package stops every context as if pre-empted and reports to the management controller. -/
def execThermalStop (p : Nat) (s : State) : Out :=
  let s := (s.modPkg p fun x => { x with stopped := true }).setPreempted p (fun _ => true) true
  .next { s with dies := s.dies.map fun (d : DieId × Die) => (d.1, if d.1.pkg = p then { d.2 with merge := [] } else d.2) }

/-- A wear record recomputed from what the management controller measured (R402); the rows and lanes left are counted. -/
def Pkg.wearRecord (x : Pkg) (u : Nat) (v : DWord) : Wear :=
  { days := v.toNat % 2 ^ 16
    rows := if 14 ≤ u && u < 38 then x.rowsLeft (u - 14) else 0
    lanes := if 38 ≤ u && !((tget (u - 38) {} x.ports : Port).spare || (tget (u - 38) {} x.ports : Port).retired.contains 8) then 1 else 0
    errors := v.toNat / 2 ^ 32 }

/-- Wear records recomputed in order; the alert fires when one falls below a year (R402, R396). -/
def Pkg.recomputeWear (x : Pkg) : Nat → List DWord → Pkg
  | _, [] => x
  | u, v :: vs =>
    if u ≥ 62 then x
    else
      let old : Wear := tget u (wearReset u) x.wear
      let w := x.wearRecord u v
      let y := { x with wear := tset u w x.wear }
      (if old.days ≥ 365 && w.days < 365 then y.interrupt 77 else y).recomputeWear (u + 1) vs

/-- `WEAR_RECOMPUTE` (R402): At least daily the wear records are recomputed, and source 77 fires when one falls below 365 days. -/
def execWearRecompute (p : Nat) (records : List DWord) (s : State) : Out := .next (s.modPkg p fun x => x.recomputeWear 0 records)

/-! ## The time base (R393, R394) -/

/-- How far the time base of a package may move on: while it is in sync, no further than 50 ns ahead of any other that is
(R394). -/
def State.timeRoom (s : State) (p n : Nat) : Nat :=
  if (s.pkg p).lock then
    (s.pkgs.filter fun q => q.1 != p && q.2.lock).foldl (fun m q => min m (q.2.time + 50 - (s.pkg p).time)) n
  else n

/-- Whether a time lies within 50 ns of every other package that is in sync (R394). -/
def State.timeAgrees (s : State) (p t : Nat) : Bool :=
  s.pkgs.all fun q => q.1 == p || !q.2.lock || (decide (t ≤ q.2.time + 50) && decide (q.2.time ≤ t + 50))

/-- `PTP_MESSAGE` (R393): An IEEE 1588 message on the management port is used to slew the time base. A step is taken only forward
and only before the first launch. The time base is in sync where the message finds it so and it keeps the bound of R394. -/
def execPtpMessage (p : Nat) (offs : Word) (locked : Bool) (forward : Nat) (s : State) : Out :=
  let t := if (s.pkg p).launched then (s.pkg p).time else (s.pkg p).time + forward
  .next (s.modPkg p fun x => { x with offs := offs, hold := false, lock := locked && s.timeAgrees p t, time := t })

/-- `PTP_SYNC_LOSS` (R394): Loss of sync puts the time base into holdover. -/
def execPtpSyncLoss (p : Nat) (s : State) : Out := .next (s.modPkg p fun x => { x with hold := true, lock := false })

end Sys2Proof.Machine
end

