-- ==== Sys2Proof/Machine/Cycle.lean ====
section
/-! DEFINITION. The cycle of a core (R107, R127, R189 to R192, R281): who issues, what stalls count, and what passes in the
meantime: time (R393), and the entries that caches and TLBs give up (R199, R299). -/

namespace Sys2Proof.Machine

/-! ## What is ready, and what is stalled (R107, R188) -/

/-- What holds a slice's next instruction; none where it is ready. A word that does not decode is ready, since it issues and
traps, and so is an instruction that is illegal there. -/
def State.nextStall (s : State) (u : UnitId) : Option Stall :=
  if !s.runnable u then some .other
  else
    match s.peek u with
    | none => none
    | some i =>
      if s.illegal u i then none
      else match u, stallOf s u i with
      | .a g, none => if s.overlapStall g i then some .other else none
      | _, st => st

/-- Whether the a-slice waits for room for an event's second record (R105): nothing else keeps it from issuing. -/
def Gang.slipHeld (x : Gang) : Bool :=
  !x.dqNext.isEmpty && x.mode == .user && !x.holdStart && !x.preempted && !x.stopA && x.trapA.isNone

/-- What a stalled a-slice counts in a cycle (R107); a loss of decoupling is counted where its instruction `pops`. -/
def Gang.countA (x : Gang) (pops : Bool) (st : Option Stall) : Gang :=
  if x.slipHeld then { x with slipstall := x.slipstall + 1 }
  else
    match st with
    | some (.pop 0) =>
      { x with
        fqstall := x.fqstall + 1, dloss := if pops && !x.lossSeen then x.dloss + 1 else x.dloss, lossSeen := x.lossSeen || pops }
    | some (.pop _) => { x with sqwait := x.sqwait + 1 }
    | some (.hold _) => { x with sqwait := x.sqwait + 1 }
    | some .slip => { x with slipstall := x.slipstall + 1 }
    | _ => x

/-- What a stalled c-slice counts in a cycle (R107). -/
def Gang.countC (x : Gang) (st : Option Stall) : Gang :=
  match st with
  | some (.pop _) => { x with cstall := x.cstall + 1 }
  | _ => x

/-- A cycle of a gang's counters: its stalls, and how long each slice has been stalled on the other (R107, R127). -/
def State.countStalls (s : State) (g : GangId) : State :=
  let x := s.gang g
  if !x.inUse then s
  else
    let a := s.queueStall (.a g)
    let c := s.queueStall (.c g)
    let pops := ((s.peek (.a g)).bind fun i => i.laneForm .A).isSome
    let y := (x.countA pops (s.nextStall (.a g))).countC (s.nextStall (.c g))
    s.setGang g { y with lockedA := if a.isSome then y.lockedA + 1 else 0, lockedC := if c.isSome then y.lockedC + 1 else 0 }

/-- A cycle of several gangs' counters. -/
def State.countAllStalls (s : State) : List GangId → State
  | [] => s
  | g :: gs => (s.countStalls g).countAllStalls gs

/-! ## Selection (R189 to R191) -/

/-- The priority class of a gang, highest first: supervisor mode puts a gang in its class even on the collective partition (R190). -/
def State.classOf (s : State) (g : GangId) : Nat :=
  if (s.gang g).mode != .user then 1 else if (s.core g.coreId).collective then 0 else 2

/-- A candidate of a slice: its gang, whether it is aged, its class, its wait count, and whether it needs both pipes (R191). -/
structure Cand where
  gang : GangId
  aged : Bool
  cls : Nat
  wait : Nat
  both : Bool
deriving DecidableEq, Repr

/-- The order of R191. -/
def Cand.before (x y : Cand) : Bool :=
  if x.aged != y.aged then x.aged
  else if x.cls != y.cls then x.cls < y.cls
  else if x.wait != y.wait then y.wait < x.wait
  else x.gang.slot < y.gang.slot

/-- The candidates that issue, walked from the front while pipes remain. -/
def pick : Nat → List Cand → List GangId
  | _, [] => []
  | pipes, x :: xs =>
    let need := if x.both then 2 else 1
    if need ≤ pipes then x.gang :: pick (pipes - need) xs else pick pipes xs

/-- The gang slots of a core. -/
def slotsOf (c : CoreId) : List GangId := (List.range 16).map c.slot

/-- The ready gangs of a core in a slice. -/
def State.readyGangs (s : State) (c : CoreId) (unit : GangId → UnitId) : List GangId :=
  (slotsOf c).filter fun g => (s.nextStall (unit g)).isNone

/-- The gangs that issue in a slice in this cycle. -/
def State.issuers (s : State) (aSide : Bool) (gs : List GangId) : List GangId :=
  let cand (g : GangId) : Cand :=
    let x := s.gang g
    let w := if aSide then x.waitA else x.waitC
    ⟨g, decide (64 ≤ w), s.classOf g, w, !aSide && x.checked⟩
  pick 2 (sortBy Cand.before (gs.map cand))

/-- Wait counts after a cycle (R191). -/
def State.updateWaits (s : State) (aSide : Bool) (chosen : List GangId) : List GangId → State
  | [] => s
  | g :: gs =>
    let next (w : Nat) : Nat := if chosen.contains g then 0 else w + 1
    let s := s.modGang g fun x => if aSide then { x with waitA := next x.waitA } else { x with waitC := next x.waitC }
    s.updateWaits aSide chosen gs

/-! ## What else a cycle brings -/

/-- Entries that an implementation's replacement keeps in this cycle. -/
def keeps {α : Type} (clock : Nat) (xs : List α) : List α :=
  ((List.range xs.length).zip xs).filterMap fun x => if Config.cacheKeeps clock x.1 then some x.2 else none

/-- Cached lines and translations given up by a core, its cluster and its die (R199, R299, R346). -/
def State.evict (s : State) (c : CoreId) : State :=
  let n := s.clock
  let s := if (s.core c).l1d.isEmpty && (s.core c).l1i.isEmpty then s
    else s.modCore c fun x => { x with l1d := keeps n x.l1d, l1i := keeps n x.l1i }
  let s := if (s.clu c.cluId).tlb.isEmpty then s else s.modClu c.cluId fun x => { x with tlb := keeps (n + 1) x.tlb }
  let s := if (s.die c.dieId).tlb.isEmpty then s else s.modDie c.dieId fun x => { x with tlb := keeps (n + 2) x.tlb }
  { s with clock := n + 3 }

/-- A lane word of an a-slice or s register marked, in either bank (R197). -/
def Gang.markA (x : Gang) (sup : Bool) (code lane : Nat) : Gang :=
  let y : Gang := { x with mode := if sup then .supervisor else .user }
  { y.writeA code (laneMask [lane]) (fun n => { y.readA code n with poison := true }) with mode := x.mode }

/-- A lane word of a c-slice register marked (R197). -/
def Gang.markC (x : Gang) (code lane : Nat) : Gang :=
  x.writeC code (laneMask [lane]) fun n => { x.readC code n with poison := true }

/-- A lane word of a queue entry marked (R197). -/
def markEntry (i lane : Nat) (es : List QEntry) : List QEntry :=
  es.modify i fun e => { e with words := e.words.modify lane fun w => { w with poison := true } }

/-- An item of a work queue marked (R344). -/
def WQueue.markItem (q : WQueue) (i : Nat) : WQueue := { q with items := q.items.modify i fun e => (e.1, true) }

/-- A line that an L2 slice gives up and fetches again: HBM keeps one mark for a line, so all four sectors come back marked where one
was (R327, R377; log entry 33). -/
def State.refetch (s : State) (p pa : Nat) : State := if s.markedAt (hbmKey p pa) 64 then s.poisonLines p [pa] else s

/-- What bit errors a cycle brings to a core, its cluster, its die and its package (R197, R274, R327, R329, R344, R377, R378, R441; log
entry 34): any number of corrected ones, and at most one that cannot be corrected, wherever the free choices have it. -/
def State.bitError (s : State) (c : CoreId) : State :=
  let pick (k m : Nat) : Nat := Config.choice (s.clock + k) m % m
  let s := { s with clock := s.clock + 6 }
  let stack := pick 2 24
  let line := pick 3 (hbmSize / 64 / 24)
  let s := s.modCore c fun x => { x with corr := x.corr + BitVec.ofNat 32 (pick 0 (2 ^ 32)) }
  let counted (s : State) : State := s.modCore c fun x => { x with poison := x.poison + 1 }
  let mark (k : Nat) : State := { s with marks := marksAfter k 16 true s.marks }
  let g := c.slot (pick 2 16)
  let gang (f : Gang → Gang) : State := if (s.gang g).inUse then counted (s.modGang g f) else s
  match pick 1 15 with
  | 1 => counted (mark (coreKey c (16 * pick 2 16384)))
  | 2 => gang fun x => x.markA (pick 3 2 = 1) (pick 4 64) (pick 5 32)
  | 3 => gang fun x => x.markC (pick 4 64) (pick 5 32)
  | 4 => gang fun x => { x with lq := tset (pick 3 4) (markEntry (pick 4 16) (pick 5 32) (tget (pick 3 4) [] x.lq)) x.lq }
  | 5 => gang fun x => { x with sq := tset (pick 3 2) (markEntry (pick 4 8) (pick 5 32) (tget (pick 3 2) [] x.sq)) x.sq }
  | 6 => mark (cluKey c.cluId (16 * pick 2 (2 ^ 18)))
  | 7 => mark (dieKey c.dieId (16 * pick 2 (2 ^ 21)))
  | 8 => mark (hbmKey c.pkg (16 * pick 2 (hbmSize / 16)))
  | 9 => s.modQueue c.dieId (pick 2 256) fun q => q.markItem (pick 3 65535)
  | 11 => gang fun x => { x with fq := markEntry (pick 4 4) (pick 5 32) x.fq }
  | 12 => s.refetch c.pkg (64 * pick 2 (hbmSize / 64))
  | 13 => s.stackErrors c.pkg stack [line] []
  | 14 => s.stackErrors c.pkg stack [] [line]
  | 10 => { s with weirLost := (c.pkg, pick 2 4096, decide (pick 3 2 = 1)) :: s.weirLost }
  | _ => s

/-- The controller of a cluster issues with its core 0's cycle (R281). -/
def State.ctlIssuers (s : State) (c : CoreId) : List UnitId :=
  if c.core = 0 && (s.nextStall (.m c.cluId)).isNone then [.m c.cluId] else []

/-- `ISSUE_CYCLE` (R191): Each cycle the core selects up to two issuers per slice by age, class, wait count and slot, and updates
the wait counts. How far the time base moves, whether the two computations of the next instruction agree, and what bit errors there
are, are free values (log entries 4, 5 and 34). -/
def execIssueCycle (c : CoreId) (s : State) : Out :=
  let s := s.evict c
  let s := s.modPkg c.pkg fun x => { x with time := x.time + s.timeRoom c.pkg (Config.timeAdvance s.clock) }
  let s := s.countAllStalls (slotsOf c)
  let as := s.readyGangs c .a
  let cs := s.readyGangs c .c
  let pa := s.issuers true as
  let pc := s.issuers false cs
  let ms := s.ctlIssuers c
  let s := (s.updateWaits true pa as).updateWaits false pc cs
  let s := { s with
    issue := s.issue ++ pa.map UnitId.a ++ pc.map UnitId.c ++ ms
    glitch := Config.choice s.clock 3
    clock := s.clock + 1 }
  .next (s.bitError c)

end Sys2Proof.Machine
end

