-- ==== Sys2Proof/Machine/Links.lean ====
section
/-! DEFINITION. The links of the fabric (R418 to R424): flits, lanes, keepalives, routes and the death of a package. What a payload
means is carried in State as messages; the flit's own header is as R419 lays it out. -/

namespace Sys2Proof.Machine

/-! ## Flits (R419, R420) -/

/-- A retry counted in the port's wear record (R420). -/
def Pkg.countRetry (x : Pkg) (n : Nat) : Pkg := x.modWear (38 + n) fun w => { w with errors := (w.errors + 1) % 2 ^ 32 }

/-- Flits that an acknowledgement covers leave the retry buffer. -/
def Port.ack (x : Port) (a : BitVec 16) : Port :=
  let r := x.retry.filter fun f => !covered a f
  { x with retry := r, resend := min x.resend r.length }

/-- Every flit not covered is sent again, from the first. -/
def Port.resendAll (x : Port) : Port := ({ x with resend := x.retry.length } : Port).pump

/-- A flit on its way to another package handed on: requests, responses, acknowledgements and multicast (R419, R423). -/
def Pkg.passOn (x : Pkg) (p : Nat) (f : List Byte) : Pkg :=
  if 1 ≤ flitType f && flitType f ≤ 5 && flitDst f != p then x.fly (flitBody f) else x

/-- A flit taken in order (R420): it may report a gap where it is link control, as the implementation encodes that. -/
def Pkg.takeFlit (x : Pkg) (p port : Nat) (f : List Byte) (gap : Bool) : Pkg :=
  let y := x.modPort port fun q => (({ q with aseq := flitLseq f } : Port).ack (flitAseq f)).pump
  let y := if flitType f = 6 && gap && !(y.port port).retry.isEmpty then (y.modPort port Port.resendAll).countRetry port else y
  y.passOn p f

/-- A link after a flit of it has come through: what was sent before it has come or is lost. -/
def Port.dropSent (x : Port) (f : List Byte) : Port := { x with wire := x.wire.drop (x.wire.idxOf f + 1) }

/-- `FLIT_RECEIVE` (R420): A flit that the peer has sent is received, checked by CRC and sequence, and delivered or discarded;
link-control gaps trigger a resend. What the peer has not sent is a damaged flit, which is discarded, and a flit of a type above 6 is
dropped (R419; log entry 22). -/
def execFlitReceive (p : Nat) (port : Nat) (flit : List Byte) (s : State) : Out :=
  let x := (s.pkg p).port port
  if port < 24 && x.carries && s.linked p port && (s.peerPort x).wire.contains flit then
    let s := s.modPkg x.ppkg fun y => y.modPort x.pport fun q => q.dropSent flit
    if flitOk flit && flitType flit ≤ 6 && flitLseq flit = x.aseq + 1 then
      .next { s.modPkg p fun y => y.takeFlit p port flit (decide (Config.choice s.clock 2 % 2 = 1)) with clock := s.clock + 1 }
    else .next s
  else .next s

/-- `LINK_RETRY_TIMEOUT` (R420): 2 µs without an aseq advance resends from the first unacknowledged flit. -/
def execLinkRetryTimeout (p : Nat) (port : Nat) (s : State) : Out :=
  let x := (s.pkg p).port port
  if port < 24 && x.carries && !x.retry.isEmpty then .next (s.modPkg p fun y => (y.modPort port Port.resendAll).countRetry port)
  else .next s

/-! ## Down and up (R422 to R424) -/

/-- A route entry with the path through a port removed. -/
def Route.dropPort (r : Route) (port : Nat) : Route :=
  if r.porta = port then { r with porta := r.portb, costa := if r.portb = 31 then 0 else r.costb, portb := 31, costb := 0xFFFF }
  else if r.portb = port then { r with portb := 31, costb := 0xFFFF }
  else r

/-- The flits of a port that another port can carry: those kept and those that wait, but for link control. -/
def Port.unsent (x : Port) : List FlitBody := (x.retry.map flitBody ++ x.queue).filter fun b => b.kind != 6

/-- A port down: no lane is in use, no path leads through it, and its flits go out on the paths that are left. -/
def Pkg.downPort (x : Pkg) (port : Nat) : Pkg :=
  let y := x.modPort port fun q =>
    { q with state := 0, lanes := 0, swapping := false, queue := [], retry := [], wire := [], resend := 0, missed := 0 }
  let y := { y with paths := y.paths.map fun (r : Nat × Route) => (r.1, r.2.dropPort port) }
  y.flyAll (x.port port).unsent

/-- `PORT_DOWN` (R424): Ten missed keepalives in a row put the port down. -/
def execPortDown (p : Nat) (port : Nat) (s : State) : Out :=
  let x := (s.pkg p).port port
  if port < 24 && x.state != 0 && decide (10 ≤ x.missed) then .next (s.modPkg p fun y => y.downPort port) else .next s

/-- Whether the four lanes of a half are good (R421). -/
def Port.halfGood (x : Port) (hi : Bool) : Bool := (List.range 4).all fun i => !x.retired.contains (if hi then i + 4 else i)

/-- The width that a port's good lanes give it (R421): its state and its lanes in use; none where it goes down. The spare stands in
for one retired lane, and a retired lane is never in use again. -/
def Port.width (x : Port) : Option (Nat × Nat) :=
  let bad := x.retired.filter fun l => decide (l < 8)
  if bad.isEmpty then some (2, 0xFF)
  else if bad.length = 1 && !x.retired.contains 8 then some (3, 0xFF - 2 ^ bad.headD 0)
  else if x.halfGood false then some (4, 0x0F)
  else if x.halfGood true then some (4, 0xF0)
  else none

/-- The peer learnt at training, with the width that the lanes give. The sequence numbers of the link start afresh (log entry 22). -/
def Port.train (x : Port) (ppkg pport : Nat) : Port :=
  match x.width with
  | some (st, lanes) =>
    ({ x with state := st, lanes := lanes, spare := st == 3, ppkg := ppkg % 2 ^ 10, pport := pport % 24, lseq := 0, aseq := 0xFFFF
              retry := [], wire := [], resend := 0, missed := 0, swapping := false } : Port).pump
  | none => x

/-- Training begun on a port that is down and whose lanes give it a width (R422). -/
def Port.begin (x : Port) : Port := if x.width.isSome then { x with state := 1 } else x

/-- `LINK_TRAINING_COMPLETE` (R418): A fabric port finishes training, learns its peer's package and port, and moves from state 1
training to full width. On a port that is down the event is the start of the training, for which the spec names none (log entry
22). -/
def execLinkTrainingComplete (p : Nat) (port : Nat) (ppkg : Nat) (pport : Nat) (s : State) : Out :=
  let st := ((s.pkg p).port port).state
  if port < 24 && decide (st ≤ 1) then
    .next (s.modPkg p fun x => x.modPort port fun y => if st = 0 then y.begin else y.train ppkg pport)
  else .next s

/-! ## Lanes (R421) -/

/-- The lane wear of a port: no spare is left. -/
def Pkg.spareGone (x : Pkg) (port : Nat) : Pkg := x.modWear (38 + port) fun w => { w with lanes := 0 }

/-- A lane retired (R421). Lane 8 is the spare. -/
def Pkg.retireLane (x : Pkg) (port lane : Nat) : Pkg :=
  let q := x.port port
  let spareFree := !q.spare && !q.retired.contains 8
  let x := x.modPort port fun q => { q with retired := q.retired ++ [lane] }
  let half (x : Pkg) : Pkg :=
    match (x.port port).width with
    | some (st, lanes) => x.modPort port fun q => { q with spare := false, state := st, lanes := lanes, swapping := true }
    | none => x.downPort port
  if lane = 8 then (if q.spare then half x else x).spareGone port
  else if q.state = 4 then (if q.lanes / 2 ^ lane % 2 = 1 then half x else x)
  else if spareFree then
    (x.modPort port fun q => { q with spare := true, state := 3, lanes := 0xFF - 2 ^ lane, swapping := true }).spareGone port
  else half x

/-- `LANE_RETIRE` (R421): A lane over its error rate, or out of lock, is retired: the spare is swapped in, the port falls to half
width, or it goes down. -/
def execLaneRetire (p : Nat) (port : Nat) (lane : Nat) (s : State) : Out :=
  let q := (s.pkg p).port port
  if port < 24 && lane ≤ 8 && decide (2 ≤ q.state) && !q.retired.contains lane then .next (s.modPkg p fun x => x.retireLane port lane)
  else .next s

/-- `LANE_SWAP_DONE` (R421): A spare-lane swap or half-width switch ends and the port carries flits again. -/
def execLaneSwapDone (p : Nat) (port : Nat) (s : State) : Out :=
  if port < 24 then .next (s.modPkg p fun x => x.modPort port fun q => ({ q with swapping := false } : Port).pump) else .next s

/-! ## Keepalives (R424) -/

/-- Bytes whose value the implementation chooses. -/
def freeBytes (clock : Nat) (n : Nat) : List Byte := (List.range n).map fun i => BitVec.ofNat 8 (Config.choice (clock + i) 256)

/-- A link-control flit of a port (R419); the tag and the payload are the implementation's. -/
def Port.control (x : Port) (src clock : Nat) : FlitBody :=
  { kind := 6, vc := 3, dst := x.ppkg, src := src, tag := numOf (freeBytes clock 2), payload := freeBytes (clock + 2) 64 }

/-- A keepalive sent, where the window has room, and the peer's heard or missed. -/
def Port.keepalive (x : Port) (src clock : Nat) (heard : Bool) : Port :=
  let y := if x.retry.length < x.window then x.put (x.control src clock) else x
  { y with missed := if heard then 0 else y.missed + 1 }

/-- `KEEPALIVE_SEND` (R424): Every 2 µs each port exchanges a link-control keepalive. -/
def execKeepaliveSend (p : Nat) (port : Nat) (heard : Bool) (s : State) : Out :=
  if port < 24 && ((s.pkg p).port port).carries then
    .next { s.modPkg p fun x => x.modPort port fun q => q.keepalive p s.clock heard with clock := s.clock + 66 }
  else .next s

/-! ## Routes (R423) -/

/-- What a hop through a port costs: by its width, and 1 for each hundredth of the send window held. -/
def Port.hop (x : Port) (held : Nat) : Nat := (if x.state = 4 then 32 else 16) + held

/-- A path learnt for a destination: a route entry keeps its two best ports. -/
def Route.learn (r : Route) (port cost : Nat) : Route :=
  if cost ≥ 0xFFFF then r.dropPort port
  else if r.porta = port then { r with costa := cost }
  else if r.portb = port then { r with costb := cost }
  else if r.porta = 31 then { r with porta := port, costa := cost, costb := 0xFFFF }
  else if r.portb = 31 then { r with portb := port, costb := cost }
  else if r.costa ≤ r.costb then (if cost < r.costb then { r with portb := port, costb := cost } else r)
  else if cost < r.costa then { r with porta := port, costa := cost }
  else r

/-- A package's routes after an exchange over a port about a destination. -/
def Pkg.exchange (x : Pkg) (p n port cost held : Nat) : Pkg :=
  let paths := tset p { (tget p {} x.paths : Route) with self := true } x.paths
  if n = p then { x with paths := paths }
  else { x with paths := tset n ((tget n {} paths : Route).learn port (cost + (x.port port).hop held)) paths }

/-- The cost at which a package offers the way to a destination: its own entry's, by the port that it would take; none is `0xFFFF`. -/
def State.offered (s : State) (q n : Nat) : Nat :=
  let r : Route := tget n {} (s.pkg q).paths
  if q = n then 0
  else
    match r.out with
    | some port => if port = r.porta then r.costa else r.costb
    | none => 0xFFFF

/-- `ROUTE_EXCHANGE` (R423): Every 100 µs a package exchanges route costs with its peers and updates its route entries: a peer gives
the cost of its own entry. The part of the window that was held is a free choice. -/
def execRouteExchange (p : Nat) (n : Nat) (port : Nat) (cost : Nat) (s : State) : Out :=
  let x := (s.pkg p).port port
  if port < 24 && n < 1024 && x.carries && s.linked p port && cost = s.offered x.ppkg n then
    .next { s.modPkg p fun x => x.exchange p n port cost (Config.choice s.clock 101 % 101) with clock := s.clock + 1 }
  else .next s

/-! ## The death of a package (R424, R431, R432, R441) -/

/-- The pod weirs above a package. -/
def podPath (p : Nat) : List WeirId := [.pod 1 (p / 16), .pod 2 (p / 256), .pod 3 0]

/-- Whether a phaser fails with a package (R441): the package holds one of its registrants, its root, or an upper weir above a
registrant. -/
def State.failsWith (s : State) (q n : Nat) (x : Phaser) : Bool :=
  let has (p : Nat) : Bool := (s.phaser p n).same x && s.registrantAt p n
  weirOf q x.root || has q || (x.level = 2 && s.pkgs.any fun p => has p.1 && (podPath p.1).any (weirOf q))

/-- The phasers that some package enables and that a package's death fails, each by a package and a number. -/
def State.doomedPhasers (s : State) (q : Nat) : List (Nat × Nat) :=
  s.pkgs.flatMap fun p => (p.2.phasers.filter fun e => e.2.en && s.failsWith q e.1 e.2).map fun e => (p.1, e.1)

/-- Phasers failed one after another. -/
def State.failPhasers (s : State) : List (Nat × Nat) → State
  | [] => s
  | (p, n) :: ns => (s.failPhaser p n).failPhasers ns

/-- A dead package's membership of a group: a leave is stamped on its behalf, and it counts no more. -/
def State.buryMember (s : State) (q n : Nat) : State :=
  if (s.headgate n).members.contains q then
    ((s.modGroup q n fun e => { e with state := 0, kept := [] }).dropMember q n).sendChange n (.leave q)
  else s

/-- A dead package's memberships. -/
def State.buryMembers (s : State) (q : Nat) : List Nat → State
  | [] => s
  | n :: ns => (s.buryMember q n).buryMembers q ns

/-- Members whose headgate's package has died are rehoming (R431). -/
def State.orphanGroups (s : State) (q : Nat) : State :=
  { s with pkgs := s.pkgs.map fun (p : Nat × Pkg) =>
      (p.1, { p.2 with groups := p.2.groups.map fun (e : Nat × Group) =>
        (e.1, if p.1 != q && e.2.state = 2 && e.2.hpkg = q then { e.2 with state := 4 } else e.2) }) }

/-- Batches on their way to headgates of a dead package are lost (R424); a membership request of the dead package is dropped. -/
def State.loseBatches (s : State) (q : Nat) : List (Nat × Msg) → State
  | [] => s
  | (id, m) :: rest =>
    (match m with
      | .batch b =>
        if b.items.any (fun i => i.2.1 == McAct.join q) then { s with msgs := tdel id s.msgs }
        else
          match b.gang with
          | some g => if g.pkg != q && (s.group g.pkg b.group).hpkg = q then s.loseBatch id b else s
          | none => s
      | _ => s).loseBatches q rest

/-- The dead bit of a package's route entry to another (R424); flits that wait to go there are dropped. -/
def Pkg.markDead (x : Pkg) (q : Nat) : Pkg :=
  { x with
    paths := tset q { (tget q {} x.paths : Route) with dead := true } x.paths
    ports := x.ports.map fun p => (p.1, { p.2 with queue := p.2.queue.filter fun b => b.dst != q }) }

/-- `PACKAGE_DEAD` (R424): A package is declared dead after 20 ms with every port to it down, or on report; its traffic, phasers and
groups are failed or lost. -/
def execPackageDead (n : Nat) (s : State) : Out :=
  let doomed := s.doomedPhasers n
  let s : State := { s with pkgs := s.pkgs.map fun (p : Nat × Pkg) => (p.1, if p.1 = n then p.2 else p.2.markDead n) }
  let s := s.failPhasers doomed
  let s := s.loseBatches n s.msgs
  .next ((s.buryMembers n (s.headgates.map (·.1))).orphanGroups n)

end Sys2Proof.Machine
end

