-- ==== Sys2Proof/Machine/Collective.lean ====
section
/-! DEFINITION. Collectives (R42 to R48, R442 to R446, R473, R474): chunks arriving in a package, the reduction, the arrival flags and
the status word. -/

namespace Sys2Proof.Machine

/-! ## The wire formats (R42 to R47) -/

/-- The wire format of a type, and the width of its rank field (R42). -/
def wireFmt (t : Ty) : Fmt × Nat := if t = .f64 then (Fmt.w80, 32) else (Fmt.w40, 28)

/-- The rank field of a wire NaN. -/
def wireRank (t : Ty) (x : Nat) : Nat := x % 2 ^ (wireFmt t).2

/-- An input of a rank on the wire (R43, R45). -/
def toWire (t : Ty) (rank b : Nat) : Nat :=
  let F := Fmt.ofTy t
  let W := (wireFmt t).1
  if F.isNaN b then W.nan + rank else W.ofValue .rne (F.value b)

/-- Two wire values combined: 0 adds, 1 takes the minimum, and 2 the maximum (R43, R45, R47). -/
def combineWire (t : Ty) (red x y : Nat) : Nat :=
  let W := (wireFmt t).1
  let ones := 2 ^ (wireFmt t).2 - 1
  if W.isNaN x then W.nan + (if W.isNaN y then min (wireRank t x) (wireRank t y) else wireRank t x)
  else if W.isNaN y then W.nan + wireRank t y
  else if red = 0 then (if W.isInf x && W.isInf y && x != y then W.nan + ones else W.add .rne x y)
  else W.pick (red = 2) x y

/-- The bits below the quiet bit of a NaN of a destination (R46). -/
def payloadBits (t : Ty) : Nat := if t = .e4m3 then 0 else (Fmt.ofTy t).fw - 1

/-- A final wire value in its destination's format (R43, R46). What all ones of a rank give a wide payload is log entry 16's. -/
def fromWire (t : Ty) (r : Rnd) (x : Nat) : Nat :=
  let F := Fmt.ofTy t
  let W := (wireFmt t).1
  if W.isNaN x then F.nan + min (wireRank t x) (2 ^ payloadBits t - 1) else F.ofValue r (W.value x)

/-- Two elements combined: floating ones on the wire, integers in their own width (R43, R48). -/
def combineElem (t : Ty) (red x y : Nat) : Nat :=
  if t.floating then combineWire t red x y else (atomicInt t red x y 0).getD 0

/-- A list without its element at an index. -/
def dropAt : Nat → List Nat → List Nat
  | _, [] => []
  | 0, _ :: xs => xs
  | n + 1, x :: xs => x :: dropAt n xs

/-- Values combined two by two, in an order that the implementation chooses (R41, R43); zero where there is none. -/
def combineAll (f : Nat → Nat → Nat) (clock : Nat) : Nat → List Nat → Nat
  | _, [] => 0
  | 0, x :: _ => x
  | n + 1, xs =>
    let i := Config.choice (clock + 2 * n) xs.length % xs.length
    let rest := dropAt i xs
    if rest.isEmpty then xs.getD i 0
    else
      let j := Config.choice (clock + 2 * n + 1) rest.length % rest.length
      combineAll f clock n (f (xs.getD i 0) (rest.getD j 0) :: dropAt j rest)

/-! ## Chunks (R444) -/

/-- The bytes of a chunk, each with the mark of its piece. -/
def Chunk.bytes (k : Chunk) : List (Byte × Bool) := k.pieces.flatMap fun p => p.1.map fun b => (b, p.2)

/-- Element `i` of a chunk, of `e` bytes. -/
def chunkElem (bs : List (Byte × Bool)) (e i : Nat) : Nat := numOf (((bs.drop (e * i)).take e).map (·.1))

/-- One element of a reduction over some chunks, in its destination's format, with the wire's NaN rank. -/
def reduceElem (t : Ty) (red : Nat) (r : Rnd) (clock e i : Nat) (ks : List (Nat × List (Byte × Bool))) : List Byte × Option Nat :=
  let ins := ks.map fun k => if t.floating then toWire t k.1 (chunkElem k.2 e i) else chunkElem k.2 e i
  let x := combineAll (combineElem t red) clock ins.length ins
  if !t.floating then (bytesOfNum x e, none)
  else
    let n := wireRank t x
    (bytesOfNum (fromWire t r x) e,
      if (wireFmt t).1.isNaN x then some (if n = 2 ^ (wireFmt t).2 - 1 then 2 ^ 32 - 1 else n) else none)

/-- The lowest of some NaN ranks. -/
def lowestRank (xs : List (Option Nat)) : Option Nat :=
  xs.foldl (fun a b => match a, b with
    | some x, some y => some (min x y)
    | some x, none => some x
    | none, b => b) none

/-- A reduction over the chunks of a collective that are not lost: its bytes, each with the mark of any contribution to it, and the
NaN rank of R46. -/
def Coll.reduce (c : Coll) (clock : Nat) : List (Byte × Bool) × Option Nat :=
  let ty := Ty.code (BitVec.ofNat 4 (collOp c.desc 7 4))
  let e := collSize (collOp c.desc 7 4)
  let r := Rnd.code (collOp c.desc 11 3)
  let cb := descNum c.desc 0x10 8
  let ks := (c.chunks.filter fun k => !k.lost).map fun k => (k.rank, k.bytes)
  let es := (List.range (cb / e)).map fun i => reduceElem ty (collOp c.desc 4 3) r (clock + 2 * ks.length * i) e i ks
  let bytes := es.flatMap (·.1)
  let marks := (List.range cb).map fun i => ks.any fun k => (k.2.getD i (0, false)).2
  (bytes.zip marks, lowestRank (es.map (·.2)))

/-! ## Writing (R444 to R446) -/

/-- Bytes with their marks written at some places, piece by piece. -/
def State.writeMarkedPlaces (s : State) : List (Option Nat × Nat) → List (Byte × Bool) → State
  | [], _ => s
  | (none, n) :: ks, bs => s.writeMarkedPlaces ks (bs.drop n)
  | (some k, n) :: ks, bs => (s.writeHome k ((bs.take n).map (·.1)) ((bs.take n).any (·.2))).writeMarkedPlaces ks (bs.drop n)

/-- Bytes with their marks written through a context's mapping; none where a page is not mapped writable. -/
def State.writeMarkedVirt (s : State) (p ctx va : Nat) (bs : List (Byte × Bool)) : Option State :=
  (s.virtPlaces p ctx (piecesOf 16 va bs.length)).map fun ks => s.writeMarkedPlaces ks bs

/-- An arrival flag set as `st.fe` does, with its granule zero (R445). -/
def State.setFlag (s : State) (p l : Nat) (c : Coll) (off : Nat) : State :=
  let fl := descNum c.desc 0x28 8
  let d : DieId := ⟨p, descNum c.desc 0x30 1⟩
  if fl = 2 ^ 64 - 1 then s
  else
    match findAlloc l 0 (s.die d).allocs with
    | none => s
    | some a =>
      let k := dieKey d (a.base + fl + off)
      let s := s.writeHome k (List.replicate 16 0) false
      if s.full.contains (k / 16) then s else { s with full := k / 16 :: s.full }

/-- A result written, with its flag; none where it cannot be. -/
def State.writeResult (s : State) (p l ctx : Nat) (c : Coll) (va off : Nat) (bs : List (Byte × Bool)) : Option State :=
  (s.writeMarkedVirt p ctx va bs).map fun s => s.setFlag p l c off

/-- The status word (R446). -/
def statusWord (nan : Option Nat) (failed : Bool) : Nat :=
  bitNum (!failed) 0 + bitNum failed 1 + bitNum nan.isSome 2 + nan.getD 0 * 2 ^ 96

/-- The other packages of a collective told that this one has finished. -/
def State.tellPeers (s : State) (p : Nat) (x : Launch) : List Nat → State
  | [] => s
  | q :: qs =>
    let s := if q = p then s
      else
        match s.sibling x q with
        | none => s
        | some (m, _) => s.modLaunch q m fun y => { y with coll := y.coll.map fun d => { d with peers := p :: d.peers } }
    s.tellPeers p x qs

/-- The collective of a launch changed. -/
def State.modColl (s : State) (p l : Nat) (f : Coll → Coll) : State := s.modLaunch p l fun x => { x with coll := x.coll.map f }

/-- Every rank taken (R444, R446): the result of a reduction is written, and the status word. -/
def State.finishColl (s : State) (p l : Nat) (x : Launch) (c : Coll) : State :=
  let (bs, nan) := if collOp c.desc 0 4 = 1 && c.chunks.any (fun k => !k.lost) then c.reduce s.clock else ([], none)
  let s : State := { s with clock := s.clock + 2 * c.ranks.length * (bs.length + 1) }
  let (s, failed) := if bs.isEmpty then (s, c.failed)
    else
      match s.writeResult p l x.ctx c (descNum c.desc 8 8) 0 bs with
      | some t => (t, c.failed)
      | none => (s, true)
  let s := (s.writeVirt p x.ctx (descNum c.desc 0x18 8) (bytesOfNum (statusWord nan failed) 16) false).getD s
  (s.modColl p l fun d => { d with failed := failed, finished := true }).tellPeers p x (dedup c.ranks)

/-- A chunk that has reached a package: its own, a sibling's, or that of a dead package, which is lost (R424, R446). -/
def State.chunkOf (s : State) (p : Nat) (x : Launch) (c : Coll) (rank : Nat) : Option Chunk :=
  let q := c.ranks.getD rank p
  match c.chunks.find? fun k => k.rank == rank with
  | some k => some k
  | none =>
    if q = p then none
    else
      if (s.pkg p).deadPkg q then some { rank := rank, lost := true }
      else (s.sibling x q).bind fun y => y.2.coll.bind fun d => d.chunks.find? fun k => k.rank == rank

/-- A chunk taken in a package (R444, R445): a gather writes it, a broadcast writes that of rank 0, and a reduction keeps it. -/
def State.takeChunk (s : State) (p l : Nat) (x : Launch) (c : Coll) (k : Chunk) : State :=
  let kind := collOp c.desc 0 4
  let cb := descNum c.desc 0x10 8
  let dst := descNum c.desc 8 8
  let writes := !k.lost && (kind = 0 || (kind = 2 && k.rank = 0))
  let (s, ok) := if !writes then (s, !k.lost || (kind = 2 && k.rank != 0))
    else
      match s.writeResult p l x.ctx c (if kind = 0 then dst + k.rank * cb else dst) (if kind = 0 then 16 * k.rank else 0) k.bytes with
      | some t => (t, true)
      | none => (s, false)
  let c := { c with
    chunks := if c.chunks.any fun j => j.rank == k.rank then c.chunks else c.chunks ++ [k]
    written := c.written ++ [k.rank], failed := c.failed || !ok || k.lost }
  let s := s.modColl p l fun _ => c
  if c.written.length = c.ranks.length then s.finishColl p l x c else s

/-- Whether an own chunk that has fired is still to be written (R444, R473). -/
def Coll.ownPending (c : Coll) (p : Nat) : Bool := c.chunks.any fun k => c.ranks.getD k.rank p == p && !c.written.contains k.rank

/-- Whether some place that a chunk's taking may write cannot be accessed just now. -/
def State.collWaits (s : State) (p ctx : Nat) (c : Coll) : Bool :=
  let n := if collOp c.desc 0 4 = 0 then c.ranks.length * descNum c.desc 0x10 8 else descNum c.desc 0x10 8
  s.virtWaits p ctx (descNum c.desc 8 8) n || s.virtWaits p ctx (descNum c.desc 0x18 8) 16

/-- `COLLECTIVE_CHUNK_WRITE` (R444): The collective writes a chunk or result into a package and sets its arrival flag as st.fe
does. -/
def execCollectiveChunkWrite (p : Nat) (l : Nat) (chunk : Nat) (s : State) : Out :=
  match tfind l (s.pkg p).launches with
  | none => .next s
  | some x =>
    match x.coll with
    | none => .next s
    | some c =>
      let remote := c.ranks.getD chunk p != p
      if x.state = LaunchState.accepted || (x.code != 0 && x.code != 4) || c.finished || decide (c.ranks.length ≤ chunk)
          || c.written.contains chunk || (remote && c.ownPending p) || s.inImage p x || s.collWaits p x.ctx c then .next s
      else
        match s.chunkOf p x c chunk with
        | none => .next s
        | some k => .next (s.takeChunk p l x c k)

end Sys2Proof.Machine
end

