-- ==== Sys2Proof/Machine/Special.lean ====
section
/-! DEFINITION. The special registers (R57, R98, R99, R159, R160, R287). -/

namespace Sys2Proof.Machine

/-- `%mprog` (R287). -/
def Ctl.mprog (x : Ctl) : DWord :=
  BitVec.ofNat 64 (x.kstep % 2 ^ 32 + x.col % 2 ^ 8 * 2 ^ 32 + x.queue.length * 2 ^ 42 + x.state * 2 ^ 45 + x.done % 2 ^ 16 * 2 ^ 48)

/-- The cluster, die and package numbers of a unit: the cluster by its logical number (R12, R13). -/
def State.unitNumber (s : State) (u : UnitId) (code : Nat) : Nat :=
  let c : CluId := match u with
    | .a g => g.cluId
    | .c g => g.cluId
    | .m c => c
  if code = 3 then ((s.die c.dieId).remapOf c.clu).logical else if code = 4 then c.die else c.pkg

/-- The slot and the core of a gang (R12); the controller has neither register. -/
def gangNumber (u : UnitId) (code : Nat) : Nat :=
  match u with
  | .a g => if code = 1 then g.slot else g.core
  | .c g => if code = 1 then g.slot else g.core
  | .m _ => 0

/-- The value of a special register in a lane (R57). -/
def State.special (s : State) (u : UnitId) (code lane : Nat) : DWord :=
  let exm : Word := match u with
    | .a g => (s.gang g).exmA
    | .c g => (s.gang g).exmC
    | .m _ => 0
  match code with
  | 0 => BitVec.ofNat 64 lane
  | 1 => BitVec.ofNat 64 (gangNumber u 1)
  | 2 => BitVec.ofNat 64 (gangNumber u 2)
  | 6 => exm.zeroExtend 64
  | 7 => BitVec.ofNat 64 (s.gangOf u).slip
  | 8 => BitVec.ofNat 64 (s.pkg (s.unitNumber u 5)).time
  | 9 => (match u with
    | .m c => (s.clu c).ctl.mprog
    | _ => 0)
  | n => BitVec.ofNat 64 (s.unitNumber u n)

/-- The natural type of a unit's registers. -/
def naturalTy (u : UnitId) : Ty := if u.kind = .C then .b32 else .b64

/-- `RDSR` (R159): Read a special register. -/
def execRdsr (a : BitVec 6) (d : BitVec 6) (s : State) : Out :=
  issue (.rdsr a d) s fun s =>
    let u := s.cur
    .next ((s.writeReg u (naturalTy u) d.toNat (s.active u) fun n => s.special u a.toNat n).advance (.rdsr a d))

/-- The value that `%slip` stores (R99): from 1 to the depth of `dq`. -/
def slipValue (v : DWord) : Nat :=
  let n := v.toNat % 64
  if n = 0 then 1 else if n > 32 then 32 else n

/-- A special register written (R98, R99, R287). A record that has waited for room is pushed where the new `%slip` gives it (R105). -/
def State.writeSpecial (s : State) (u : UnitId) (code : Nat) (v : DWord) : State :=
  match u with
  | .a g =>
    if code = 6 then s.modGang g fun x => { x with exmA := v.truncate 32 &&& x.fragMask }
    else if code = 7 then s.modGang g fun x => { x with slip := slipValue v }.flush
    else s
  | .c g => if code = 6 then s.modGang g fun x => { x with exmC := v.truncate 32 &&& x.cfragMask } else s
  | .m c =>
    if code = 9 && (s.clu c).ctl.state = 3 then
      s.modCtl c fun x => { x with kstep := v.toNat % 2 ^ 32, col := v.toNat / 2 ^ 32 % 2 ^ 8 }
    else s

/-- `WRSR` (R160): Write a special register from the lowest active lane. -/
def execWrsr (b : BitVec 6) (a : BitVec 6) (s : State) : Out :=
  issue (.wrsr b a) s fun s =>
    let u := s.cur
    let s' := match lowestLane (s.active u) with
      | some n => s.writeSpecial u a.toNat (s.readReg u (naturalTy u) b.toNat n).bits
      | none => s
    .next (s'.advance (.wrsr b a))

end Sys2Proof.Machine
end

