-- ==== Sys2Proof/Machine/Dispatch.lean ====
section
/-! DEFINITION. The one dispatch: every instruction and event to its own meaning. -/

namespace Sys2Proof.Machine

/-- What an instruction or an event does to a state. -/
def exec (i : Instr) (s : State) : Host.Outcome State Fault Refusal :=
  match i with
  | .mov16 d b => Sys2Proof.Machine.execMov16 d b s
  | .add16 d b => Sys2Proof.Machine.execAdd16 d b s
  | .sub16 d b => Sys2Proof.Machine.execSub16 d b s
  | .mul16 d b => Sys2Proof.Machine.execMul16 d b s
  | .and16 d b => Sys2Proof.Machine.execAnd16 d b s
  | .or16 d b => Sys2Proof.Machine.execOr16 d b s
  | .xor16 d b => Sys2Proof.Machine.execXor16 d b s
  | .shl16 d b => Sys2Proof.Machine.execShl16 d b s
  | .shr16 d b => Sys2Proof.Machine.execShr16 d b s
  | .sar16 d b => Sys2Proof.Machine.execSar16 d b s
  | .min16 d b => Sys2Proof.Machine.execMin16 d b s
  | .max16 d b => Sys2Proof.Machine.execMax16 d b s
  | .fadd16 d b => Sys2Proof.Machine.execFadd16 d b s
  | .fsub16 d b => Sys2Proof.Machine.execFsub16 d b s
  | .fmul16 d b => Sys2Proof.Machine.execFmul16 d b s
  | .fmax16 d b => Sys2Proof.Machine.execFmax16 d b s
  | .add w sk b a d q => Sys2Proof.Machine.execAdd w sk b a d q s
  | .sub w sk b a d q => Sys2Proof.Machine.execSub w sk b a d q s
  | .mul w sk b a d q => Sys2Proof.Machine.execMul w sk b a d q s
  | .mulh i1 sk b a d q => Sys2Proof.Machine.execMulh i1 sk b a d q s
  | .mad w sk b a d q => Sys2Proof.Machine.execMad w sk b a d q s
  | .div i1 sk b a d q => Sys2Proof.Machine.execDiv i1 sk b a d q s
  | .rem i1 sk b a d q => Sys2Proof.Machine.execRem i1 sk b a d q s
  | .min i1 sk b a d q => Sys2Proof.Machine.execMin i1 sk b a d q s
  | .max i1 sk b a d q => Sys2Proof.Machine.execMax i1 sk b a d q s
  | .and w sk b a d q => Sys2Proof.Machine.execAnd w sk b a d q s
  | .or w sk b a d q => Sys2Proof.Machine.execOr w sk b a d q s
  | .xor w sk b a d q => Sys2Proof.Machine.execXor w sk b a d q s
  | .shl w sk b a d q => Sys2Proof.Machine.execShl w sk b a d q s
  | .shr w sk b a d q => Sys2Proof.Machine.execShr w sk b a d q s
  | .sar w sk b a d q => Sys2Proof.Machine.execSar w sk b a d q s
  | .rol w sk b a d q => Sys2Proof.Machine.execRol w sk b a d q s
  | .ror w sk b a d q => Sys2Proof.Machine.execRor w sk b a d q s
  | .abs w sk a d q => Sys2Proof.Machine.execAbs w sk a d q s
  | .neg w sk a d q => Sys2Proof.Machine.execNeg w sk a d q s
  | .not w sk a d q => Sys2Proof.Machine.execNot w sk a d q s
  | .clz w sk a d q => Sys2Proof.Machine.execClz w sk a d q s
  | .popc w sk a d q => Sys2Proof.Machine.execPopc w sk a d q s
  | .brev w sk a d q => Sys2Proof.Machine.execBrev w sk a d q s
  | .bfx i1 sk b a d q => Sys2Proof.Machine.execBfx i1 sk b a d q s
  | .bfi w sk b a d q => Sys2Proof.Machine.execBfi w sk b a d q s
  | .icmp i1 sk b a c m q => Sys2Proof.Machine.execIcmp i1 sk b a c m q s
  | .sel n sk b a d q => Sys2Proof.Machine.execSel n sk b a d q s
  | .lea n sk b a d q => Sys2Proof.Machine.execLea n sk b a d q s
  | .fadd f sk b a d q => Sys2Proof.Machine.execFadd f sk b a d q s
  | .fsub f sk b a d q => Sys2Proof.Machine.execFsub f sk b a d q s
  | .fmul f sk b a d q => Sys2Proof.Machine.execFmul f sk b a d q s
  | .fma f sk b a d q => Sys2Proof.Machine.execFma f sk b a d q s
  | .fdiv f sk b a d q => Sys2Proof.Machine.execFdiv f sk b a d q s
  | .fsqrt f sk r a d q => Sys2Proof.Machine.execFsqrt f sk r a d q s
  | .frcp f sk a d q => Sys2Proof.Machine.execFrcp f sk a d q s
  | .frsq f sk a d q => Sys2Proof.Machine.execFrsq f sk a d q s
  | .fexp2 f sk a d q => Sys2Proof.Machine.execFexp2 f sk a d q s
  | .flog2 f sk a d q => Sys2Proof.Machine.execFlog2 f sk a d q s
  | .fabs f sk a d q => Sys2Proof.Machine.execFabs f sk a d q s
  | .fneg f sk a d q => Sys2Proof.Machine.execFneg f sk a d q s
  | .fmin f sk b a d q => Sys2Proof.Machine.execFmin f sk b a d q s
  | .fmax f sk b a d q => Sys2Proof.Machine.execFmax f sk b a d q s
  | .fminn f sk b a d q => Sys2Proof.Machine.execFminn f sk b a d q s
  | .fmaxn f sk b a d q => Sys2Proof.Machine.execFmaxn f sk b a d q s
  | .fcmp f sk b a c m q => Sys2Proof.Machine.execFcmp f sk b a c m q s
  | .tspk t sk r i1 a d q => Sys2Proof.Machine.execTspk t sk r i1 a d q s
  | .tsupk t sk b a d q => Sys2Proof.Machine.execTsupk t sk b a d q s
  | .tssc sk b a d q => Sys2Proof.Machine.execTssc sk b a d q s
  | .shflIdx sk b a d q => Sys2Proof.Machine.execShflIdx sk b a d q s
  | .shflUp sk b a d q => Sys2Proof.Machine.execShflUp sk b a d q s
  | .shflDn sk b a d q => Sys2Proof.Machine.execShflDn sk b a d q s
  | .shflXor sk b a d q => Sys2Proof.Machine.execShflXor sk b a d q s
  | .rotUp sk b a d q => Sys2Proof.Machine.execRotUp sk b a d q s
  | .rotDn sk b a d q => Sys2Proof.Machine.execRotDn sk b a d q s
  | .bcast sk n a d q => Sys2Proof.Machine.execBcast sk n a d q s
  | .gred t sk c o a d q => Sys2Proof.Machine.execGred t sk c o a d q s
  | .scanInc t sk c o a d q => Sys2Proof.Machine.execScanInc t sk c o a d q s
  | .scanExc t sk c o a d q => Sys2Proof.Machine.execScanExc t sk c o a d q s
  | .kand sk b a d q => Sys2Proof.Machine.execKand sk b a d q s
  | .kandn sk b a d q => Sys2Proof.Machine.execKandn sk b a d q s
  | .kor sk b a d q => Sys2Proof.Machine.execKor sk b a d q s
  | .kxor sk b a d q => Sys2Proof.Machine.execKxor sk b a d q s
  | .knot sk a d q => Sys2Proof.Machine.execKnot sk a d q s
  | .voteAll sk a d q => Sys2Proof.Machine.execVoteAll sk a d q s
  | .voteAny sk a d q => Sys2Proof.Machine.execVoteAny sk a d q s
  | .ballot sk a d q => Sys2Proof.Machine.execBallot sk a d q s
  | .kset sk a d q => Sys2Proof.Machine.execKset sk a d q s
  | .kmov sk a d q => Sys2Proof.Machine.execKmov sk a d q s
  | .faddD r sk b a d q => Sys2Proof.Machine.execFaddD r sk b a d q s
  | .fsubD r sk b a d q => Sys2Proof.Machine.execFsubD r sk b a d q s
  | .fmulD r sk b a d q => Sys2Proof.Machine.execFmulD r sk b a d q s
  | .fmaD r sk b a d q => Sys2Proof.Machine.execFmaD r sk b a d q s
  | .cvtRne u sk y v a d q => Sys2Proof.Machine.execCvtRne u sk y v a d q s
  | .cvtRna u sk y v a d q => Sys2Proof.Machine.execCvtRna u sk y v a d q s
  | .cvtRz u sk y v a d q => Sys2Proof.Machine.execCvtRz u sk y v a d q s
  | .cvtRup u sk y v a d q => Sys2Proof.Machine.execCvtRup u sk y v a d q s
  | .cvtRdn u sk y v a d q => Sys2Proof.Machine.execCvtRdn u sk y v a d q s
  | .movImm i1 d => Sys2Proof.Machine.execMovImm i1 d s
  | .addImm i1 d => Sys2Proof.Machine.execAddImm i1 d s
  | .mulImm i1 d => Sys2Proof.Machine.execMulImm i1 d s
  | .andImm i1 d => Sys2Proof.Machine.execAndImm i1 d s
  | .orImm i1 d => Sys2Proof.Machine.execOrImm i1 d s
  | .xorImm i1 d => Sys2Proof.Machine.execXorImm i1 d s
  | .shlImm i1 d => Sys2Proof.Machine.execShlImm i1 d s
  | .shrImm i1 d => Sys2Proof.Machine.execShrImm i1 d s
  | .sarImm i1 d => Sys2Proof.Machine.execSarImm i1 d s
  | .minImm i1 d => Sys2Proof.Machine.execMinImm i1 d s
  | .maxImm i1 d => Sys2Proof.Machine.execMaxImm i1 d s
  | .movh i1 h d => Sys2Proof.Machine.execMovh i1 h d s
  | .fmovImm i1 d => Sys2Proof.Machine.execFmovImm i1 d s
  | .faddImm i1 d => Sys2Proof.Machine.execFaddImm i1 d s
  | .fmulImm i1 d => Sys2Proof.Machine.execFmulImm i1 d s
  | .fmaxImm i1 d => Sys2Proof.Machine.execFmaxImm i1 d s
  | .ld o q p z a d => Sys2Proof.Machine.execLd o q p z a d s
  | .ldFe o q p z a d => Sys2Proof.Machine.execLdFe o q p z a d s
  | .ldFec o q p z a d => Sys2Proof.Machine.execLdFec o q p z a d s
  | .st o q p z a d => Sys2Proof.Machine.execSt o q p z a d s
  | .stFe o q p z a d => Sys2Proof.Machine.execStFe o q p z a d s
  | .atomAdd t p b a d => Sys2Proof.Machine.execAtomAdd t p b a d s
  | .atomMin t p b a d => Sys2Proof.Machine.execAtomMin t p b a d s
  | .atomMax t p b a d => Sys2Proof.Machine.execAtomMax t p b a d s
  | .atomAnd t p b a d => Sys2Proof.Machine.execAtomAnd t p b a d s
  | .atomOr t p b a d => Sys2Proof.Machine.execAtomOr t p b a d s
  | .atomXor t p b a d => Sys2Proof.Machine.execAtomXor t p b a d s
  | .atomExch t p b a d => Sys2Proof.Machine.execAtomExch t p b a d s
  | .atomCas t p b a d => Sys2Proof.Machine.execAtomCas t p b a d s
  | .redAdd t p b a => Sys2Proof.Machine.execRedAdd t p b a s
  | .redMin t p b a => Sys2Proof.Machine.execRedMin t p b a s
  | .redMax t p b a => Sys2Proof.Machine.execRedMax t p b a s
  | .redAnd t p b a => Sys2Proof.Machine.execRedAnd t p b a s
  | .redOr t p b a => Sys2Proof.Machine.execRedOr t p b a s
  | .redXor t p b a => Sys2Proof.Machine.execRedXor t p b a s
  | .fatomAdd t p b a d => Sys2Proof.Machine.execFatomAdd t p b a d s
  | .fatomMin t p b a d => Sys2Proof.Machine.execFatomMin t p b a d s
  | .fatomMax t p b a d => Sys2Proof.Machine.execFatomMax t p b a d s
  | .fredAdd t p b a => Sys2Proof.Machine.execFredAdd t p b a s
  | .fredMin t p b a => Sys2Proof.Machine.execFredMin t p b a s
  | .fredMax t p b a => Sys2Proof.Machine.execFredMax t p b a s
  | .bra o p => Sys2Proof.Machine.execBra o p s
  | .brc o p k c => Sys2Proof.Machine.execBrc o p k c s
  | .brv o k => Sys2Proof.Machine.execBrv o k s
  | .brd o => Sys2Proof.Machine.execBrd o s
  | .call o p => Sys2Proof.Machine.execCall o p s
  | .nop => Sys2Proof.Machine.execNop s
  | .rejoin => Sys2Proof.Machine.execRejoin s
  | .ret => Sys2Proof.Machine.execRet s
  | .jmpi b a p => Sys2Proof.Machine.execJmpi b a p s
  | .exit => Sys2Proof.Machine.execExit s
  | .qpeek q d => Sys2Proof.Machine.execQpeek q d s
  | .qcount q d => Sys2Proof.Machine.execQcount q d s
  | .qdrain q => Sys2Proof.Machine.execQdrain q s
  | .gsync => Sys2Proof.Machine.execGsync s
  | .gsyncMask a => Sys2Proof.Machine.execGsyncMask a s
  | .trap n => Sys2Proof.Machine.execTrap n s
  | .brk n => Sys2Proof.Machine.execBrk n s
  | .svc n => Sys2Proof.Machine.execSvc n s
  | .rft => Sys2Proof.Machine.execRft s
  | .region => Sys2Proof.Machine.execRegion s
  | .chkOff => Sys2Proof.Machine.execChkOff s
  | .chkOn => Sys2Proof.Machine.execChkOn s
  | .chkQ d => Sys2Proof.Machine.execChkQ d s
  | .rdsr a d => Sys2Proof.Machine.execRdsr a d s
  | .wrsr b a => Sys2Proof.Machine.execWrsr b a s
  | .fence c => Sys2Proof.Machine.execFence c s
  | .acq a => Sys2Proof.Machine.execAcq a s
  | .rel a => Sys2Proof.Machine.execRel a s
  | .bind b a d => Sys2Proof.Machine.execBind b a d s
  | .unbind a => Sys2Proof.Machine.execUnbind a s
  | .mon a => Sys2Proof.Machine.execMon a s
  | .mwait => Sys2Proof.Machine.execMwait s
  | .pfL1 a => Sys2Proof.Machine.execPfL1 a s
  | .pfL2 a => Sys2Proof.Machine.execPfL2 a s
  | .copy b a d => Sys2Proof.Machine.execCopy b a d s
  | .tcopy a d => Sys2Proof.Machine.execTcopy a d s
  | .copyt b a d => Sys2Proof.Machine.execCopyt b a d s
  | .cwait b a => Sys2Proof.Machine.execCwait b a s
  | .enq b a => Sys2Proof.Machine.execEnq b a s
  | .deq a d => Sys2Proof.Machine.execDeq a d s
  | .deqt b a d => Sys2Proof.Machine.execDeqt b a d s
  | .mappg z b a d => Sys2Proof.Machine.execMappg z b a d s
  | .unmappg z a => Sys2Proof.Machine.execUnmappg z a s
  | .tlbinv a c => Sys2Proof.Machine.execTlbinv a c s
  | .fbread d => Sys2Proof.Machine.execFbread d s
  | .replay a => Sys2Proof.Machine.execReplay a s
  | .replayall => Sys2Proof.Machine.execReplayall s
  | .tmwait a => Sys2Proof.Machine.execTmwait a s
  | .ctxsv a => Sys2Proof.Machine.execCtxsv a s
  | .ctxld a => Sys2Proof.Machine.execCtxld a s
  | .rtcore a => Sys2Proof.Machine.execRtcore a s
  | .rtclu a => Sys2Proof.Machine.execRtclu a s
  | .skrd d => Sys2Proof.Machine.execSkrd d s
  | .replan a => Sys2Proof.Machine.execReplan a s
  | .rld z a d => Sys2Proof.Machine.execRld z a d s
  | .rst z b a => Sys2Proof.Machine.execRst z b a s
  | .rredAdd t b a => Sys2Proof.Machine.execRredAdd t b a s
  | .rredMin t b a => Sys2Proof.Machine.execRredMin t b a s
  | .rredMax t b a => Sys2Proof.Machine.execRredMax t b a s
  | .rredAnd t b a => Sys2Proof.Machine.execRredAnd t b a s
  | .rredOr t b a => Sys2Proof.Machine.execRredOr t b a s
  | .rredXor t b a => Sys2Proof.Machine.execRredXor t b a s
  | .mcst z b a d => Sys2Proof.Machine.execMcst z b a d s
  | .mcatomAdd t b a => Sys2Proof.Machine.execMcatomAdd t b a s
  | .mcatomMin t b a => Sys2Proof.Machine.execMcatomMin t b a s
  | .mcatomMax t b a => Sys2Proof.Machine.execMcatomMax t b a s
  | .mcatomAnd t b a => Sys2Proof.Machine.execMcatomAnd t b a s
  | .mcatomOr t b a => Sys2Proof.Machine.execMcatomOr t b a s
  | .mcatomXor t b a => Sys2Proof.Machine.execMcatomXor t b a s
  | .mcwait b a => Sys2Proof.Machine.execMcwait b a s
  | .phjoin b a => Sys2Proof.Machine.execPhjoin b a s
  | .phleave a => Sys2Proof.Machine.execPhleave a s
  | .phsig a => Sys2Proof.Machine.execPhsig a s
  | .phsigBnd a => Sys2Proof.Machine.execPhsigBnd a s
  | .phwait b a => Sys2Proof.Machine.execPhwait b a s
  | .phsw b a => Sys2Proof.Machine.execPhsw b a s
  | .phswBnd b a => Sys2Proof.Machine.execPhswBnd b a s
  | .phany b a => Sys2Proof.Machine.execPhany b a s
  | .phfind a d => Sys2Proof.Machine.execPhfind a d s
  | .mma t y z x m => Sys2Proof.Machine.execMma t y z x m s
  | .mmaz t y z x m => Sys2Proof.Machine.execMmaz t y z x m s
  | .azero t => Sys2Proof.Machine.execAzero t s
  | .acvt t y x => Sys2Proof.Machine.execAcvt t y x s
  | .tpin t x => Sys2Proof.Machine.execTpin t x s
  | .awt m => Sys2Proof.Machine.execAwt m s
  | .pmapply t x => Sys2Proof.Machine.execPmapply t x s
  | .gerd j m => Sys2Proof.Machine.execGerd j m s
  | .lup t x => Sys2Proof.Machine.execLup t x s
  | .chol t x => Sys2Proof.Machine.execChol t x s
  | .qrh t y x => Sys2Proof.Machine.execQrh t y x s
  | .trsm t y f x => Sys2Proof.Machine.execTrsm t y f x s
  | .packageColdReset p => Sys2Proof.Machine.execPackageColdReset p s
  | .secureBootStage p image sig version reg => Sys2Proof.Machine.execSecureBootStage p image sig version reg s
  | .attestationRequest p nonce => Sys2Proof.Machine.execAttestationRequest p nonce s
  | .hostWrite p port addr data => Sys2Proof.Machine.execHostWrite p port addr data s
  | .hostRead p port addr len => Sys2Proof.Machine.execHostRead p port addr len s
  | .submissionNotify p n tail => Sys2Proof.Machine.execSubmissionNotify p n tail s
  | .qcfgWrite p n v => Sys2Proof.Machine.execQcfgWrite p n v s
  | .launchPacketStampRead p n => Sys2Proof.Machine.execLaunchPacketStampRead p n s
  | .launchStart p l => Sys2Proof.Machine.execLaunchStart p l s
  | .startTimeReached p l => Sys2Proof.Machine.execStartTimeReached p l s
  | .gangEnd g => Sys2Proof.Machine.execGangEnd g s
  | .launchEnd p l => Sys2Proof.Machine.execLaunchEnd p l s
  | .lendWrite p v => Sys2Proof.Machine.execLendWrite p v s
  | .preemptWrite p v => Sys2Proof.Machine.execPreemptWrite p v s
  | .preemptHeldStart p => Sys2Proof.Machine.execPreemptHeldStart p s
  | .contextCapture p => Sys2Proof.Machine.execContextCapture p s
  | .contextImageComplete p => Sys2Proof.Machine.execContextImageComplete p s
  | .restoreLineRead p => Sys2Proof.Machine.execRestoreLineRead p s
  | .contextEntryWrite p n v => Sys2Proof.Machine.execContextEntryWrite p n v s
  | .migctlGo p v => Sys2Proof.Machine.execMigctlGo p v s
  | .migrationFinalStart p => Sys2Proof.Machine.execMigrationFinalStart p s
  | .migrationSwitch p => Sys2Proof.Machine.execMigrationSwitch p s
  | .migrationHoldTimeout p => Sys2Proof.Machine.execMigrationHoldTimeout p s
  | .baseDieScrub p stack corrected bad => Sys2Proof.Machine.execBaseDieScrub p stack corrected bad s
  | .rowSpareCopy p stack bank row => Sys2Proof.Machine.execRowSpareCopy p stack bank row s
  | .frameZeroingDone p frame => Sys2Proof.Machine.execFrameZeroingDone p frame s
  | .clockAdjust p up => Sys2Proof.Machine.execClockAdjust p up s
  | .thermalThrottle p => Sys2Proof.Machine.execThermalThrottle p s
  | .thermalStop p => Sys2Proof.Machine.execThermalStop p s
  | .wearRecompute p records => Sys2Proof.Machine.execWearRecompute p records s
  | .ptpMessage p offs locked forward => Sys2Proof.Machine.execPtpMessage p offs locked forward s
  | .ptpSyncLoss p => Sys2Proof.Machine.execPtpSyncLoss p s
  | .interruptRouteWrite p n v => Sys2Proof.Machine.execInterruptRouteWrite p n v s
  | .qresWrite d v => Sys2Proof.Machine.execQresWrite d v s
  | .fbcfgWrite d v => Sys2Proof.Machine.execFbcfgWrite d v s
  | .fbstatWrite d v => Sys2Proof.Machine.execFbstatWrite d v s
  | .poolpush d z v => Sys2Proof.Machine.execPoolpush d z v s
  | .queueTableWrite d n high v => Sys2Proof.Machine.execQueueTableWrite d n high v s
  | .phaserEntryEnWrite p n v => Sys2Proof.Machine.execPhaserEntryEnWrite p n v s
  | .phaserHoldWrite p n v => Sys2Proof.Machine.execPhaserHoldWrite p n v s
  | .groupEnJoin p n v => Sys2Proof.Machine.execGroupEnJoin p n v s
  | .groupEnLeave p n v => Sys2Proof.Machine.execGroupEnLeave p n v s
  | .headgateRehome n hpkg hdie => Sys2Proof.Machine.execHeadgateRehome n hpkg hdie s
  | .registerWrite p addr v => Sys2Proof.Machine.execRegisterWrite p addr v s
  | .issueCycle c => Sys2Proof.Machine.execIssueCycle c s
  | .storeHoldDataArrival g => Sys2Proof.Machine.execStoreHoldDataArrival g s
  | .gsyncRendezvous g => Sys2Proof.Machine.execGsyncRendezvous g s
  | .otherSliceStopBound g => Sys2Proof.Machine.execOtherSliceStopBound g s
  | .trapDelivery g => Sys2Proof.Machine.execTrapDelivery g s
  | .queueDeadlockTimeout g => Sys2Proof.Machine.execQueueDeadlockTimeout g s
  | .loadDataReturn n => Sys2Proof.Machine.execLoadDataReturn n s
  | .storeAck n => Sys2Proof.Machine.execStoreAck n s
  | .monitorDrop g frag => Sys2Proof.Machine.execMonitorDrop g frag s
  | .fullEmptyServe n => Sys2Proof.Machine.execFullEmptyServe n s
  | .acqAttempt u => Sys2Proof.Machine.execAcqAttempt u s
  | .cwaitEvaluate u => Sys2Proof.Machine.execCwaitEvaluate u s
  | .dieTlbMiss r => Sys2Proof.Machine.execDieTlbMiss r s
  | .mergeEntryWaitRetry r => Sys2Proof.Machine.execMergeEntryWaitRetry r s
  | .pageTableWalkEnd d tag => Sys2Proof.Machine.execPageTableWalkEnd d tag s
  | .copyOpStart d e => Sys2Proof.Machine.execCopyOpStart d e s
  | .copyOpComplete d e => Sys2Proof.Machine.execCopyOpComplete d e s
  | .enqLaneResume g => Sys2Proof.Machine.execEnqLaneResume g s
  | .deqtTimeout g => Sys2Proof.Machine.execDeqtTimeout g s
  | .queueFailure d n => Sys2Proof.Machine.execQueueFailure d n s
  | .tmwaitExpiry u => Sys2Proof.Machine.execTmwaitExpiry u s
  | .tileFetchLine c => Sys2Proof.Machine.execTileFetchLine c s
  | .anvilKstep c => Sys2Proof.Machine.execAnvilKstep c s
  | .anvilColumn c => Sys2Proof.Machine.execAnvilColumn c s
  | .controllerTrapDelivery c => Sys2Proof.Machine.execControllerTrapDelivery c s
  | .awtReturn c => Sys2Proof.Machine.execAwtReturn c s
  | .flitReceive p port flit => Sys2Proof.Machine.execFlitReceive p port flit s
  | .linkRetryTimeout p port => Sys2Proof.Machine.execLinkRetryTimeout p port s
  | .laneRetire p port lane => Sys2Proof.Machine.execLaneRetire p port lane s
  | .laneSwapDone p port => Sys2Proof.Machine.execLaneSwapDone p port s
  | .keepaliveSend p port heard => Sys2Proof.Machine.execKeepaliveSend p port heard s
  | .portDown p port => Sys2Proof.Machine.execPortDown p port s
  | .packageDead n => Sys2Proof.Machine.execPackageDead n s
  | .routeExchange p n port cost => Sys2Proof.Machine.execRouteExchange p n port cost s
  | .remoteAccessServe n => Sys2Proof.Machine.execRemoteAccessServe n s
  | .remoteLoadReturn n => Sys2Proof.Machine.execRemoteLoadReturn n s
  | .remoteWriteAck n => Sys2Proof.Machine.execRemoteWriteAck n s
  | .multicastStamp n => Sys2Proof.Machine.execMulticastStamp n s
  | .multicastStampRelease n => Sys2Proof.Machine.execMulticastStampRelease n s
  | .multicastApply p n => Sys2Proof.Machine.execMulticastApply p n s
  | .stableBroadcast n => Sys2Proof.Machine.execStableBroadcast n s
  | .weirArrival n weir => Sys2Proof.Machine.execWeirArrival n weir s
  | .phaserMembershipAtRoot n => Sys2Proof.Machine.execPhaserMembershipAtRoot n s
  | .phaserFail n => Sys2Proof.Machine.execPhaserFail n s
  | .weirStandbyTakeover p n => Sys2Proof.Machine.execWeirStandbyTakeover p n s
  | .collectiveChunkWrite p l chunk => Sys2Proof.Machine.execCollectiveChunkWrite p l chunk s
  | .anvilQueuedOperation c => Sys2Proof.Machine.execAnvilQueuedOperation c s
  | .linkTrainingComplete p port ppkg pport => Sys2Proof.Machine.execLinkTrainingComplete p port ppkg pport s
  | .groupStateError p n => Sys2Proof.Machine.execGroupStateError p n s

end Sys2Proof.Machine
end

