-- ==== Sys2Proof/Machine/Step.lean ====
section
/-! DEFINITION. One step of the machine (log entry 3): an event of the agenda, else the next instruction of a selected unit,
else an event of the free schedule. -/

namespace Sys2Proof.Machine

/-- An event of the agenda or of the schedule; an instruction of a stream does not come about that way. -/
def runEvent (i : Instr) (s : State) : Host.Outcome State Fault Refusal := if i.isEvent then exec i s else .next s

/-- The next instruction of a unit: fetched, decoded for the unit in its mode, and carried out, or trapped where it does not
decode (R78). A unit that cannot issue does nothing, and one whose code reads poisoned consumes the poison (R130). -/
def runUnit (u : UnitId) (s : State) : Host.Outcome State Fault Refusal :=
  let s := { s with cur := u }
  if !s.runnable u || s.fetchWaits u then .next s
  else
    match s.fetch u with
    | none => .fault .fetchUnmapped
    | some (t, w) =>
      if s.fetchMarked u then .next (t.consumePoison u)
      else
      match decode u.kind (t.mode u) w with
      | .ok i => exec i t
      | .error n => .next (t.raiseIllegal u n (wordLen w))

/-- One step. -/
def step (s : State) : Host.Outcome State Fault Refusal :=
  match s.agenda with
  | i :: rest => runEvent i { s with agenda := rest }
  | [] =>
    match s.issue with
    | u :: rest => runUnit u { s with issue := rest }
    | [] => runEvent (Config.schedule s.clock) { s with clock := s.clock + 1 }

/-- The state with an instruction of an opcode-table row placed where `step` fetches its next instruction. -/
def State.withFetchWord (s : State) (_nbits w : Nat) : State := s.placeCode (bytesOf w 4)

end Sys2Proof.Machine
end

