-- ==== Sys2Proof/Safety.lean ====
section
/-! DEFINITION. What claims are stated about: an outcome that is a next state, the invariant that every step keeps, what one
unit's instruction leaves alone, and the results of the lane instructions as their rules give them in integer arithmetic. -/

namespace Sys2Proof.Machine

/-! ## Outcomes and the invariant -/

/-- An outcome that is a next state. -/
def isNext (o : Out) : Bool :=
  match o with
  | .next _ => true
  | .fault _ => false
  | .refused _ => false

/-- A step that neither faults nor is refused. -/
def State.stepSafe (s : State) : Bool := isNext (step s)

/-- The invariant of memory: its canonical form. -/
def State.Inv (s : State) : Prop := Memory.wf s.mem = true

/-! ## What stays the same -/

/-- Two states that differ in one gang alone. -/
def State.sameButGang (s t : State) (g : GangId) : Prop :=
  { s with gangs := t.gangs } = t ∧ ∀ h, h ≠ g → t.gang h = s.gang h

/-- Two states that differ in one controller alone. -/
def State.sameButCtl (s t : State) (c : CluId) : Prop :=
  { s with clus := t.clus } = t ∧ (∀ e, e ≠ c → t.clu e = s.clu e) ∧ t.clu c = { s.clu c with ctl := (t.clu c).ctl }

/-- Two states that differ in one unit's gang or controller alone. -/
def State.sameButUnit (s t : State) (u : UnitId) : Prop :=
  match u with
  | .a g => s.sameButGang t g
  | .c g => s.sameButGang t g
  | .m c => s.sameButCtl t c

/-- Two gangs that differ at most in what an instruction of a slice that neither branches nor traps can write: registers, masks,
queues, the program counter of the slice, and what is counted at issue. The other slice's registers and program counter, the
lanes, fragments, joins, modes, and everything that traps, regions, fences and launches use are equal. -/
def Gang.sameButData (x y : Gang) (u : UnitKind) : Prop :=
  match u with
  | .C => y = { x with v := y.v, kc := y.kc, lq := y.lq, sq := y.sq, fq := y.fq, dq := y.dq, dqNext := y.dqNext, cpc := y.cpc, since := y.since }
  | _ => y = { x with
      a := y.a, s := y.s, sa := y.sa, ss := y.ss, ka := y.ka, sk := y.sk, lq := y.lq, sq := y.sq, fq := y.fq, dq := y.dq
      dqNext := y.dqNext, apc := y.apc, ran := y.ran, since := y.since, lossSeen := y.lossSeen }

/-- The same of a unit: a controller's registers and program counter alone may differ. -/
def State.sameButData (s t : State) (u : UnitId) : Prop :=
  s.sameButUnit t u ∧
    match u with
    | .a g => (s.gang g).sameButData (t.gang g) .A
    | .c g => (s.gang g).sameButData (t.gang g) .C
    | .m c => (t.clu c).ctl = { (s.clu c).ctl with m := (t.clu c).ctl.m, sm := (t.clu c).ctl.sm, pc := (t.clu c).ctl.pc }

/-! ## Exact values as rational numbers (R18, R19) -/

/-- Whether an exact value is a number. -/
def FV.finite : FV → Bool
  | .fin _ _ _ => true
  | .nan => false
  | .inf _ => false

/-- The rational number that a finite exact value is. -/
def FV.toRat : FV → ℚ
  | .fin neg m x => (if neg then -1 else 1) * ((m : ℚ) * 2 ^ x)
  | .nan => 0
  | .inf _ => 0

/-- The order of R23 on exact values: −0 lies below +0, and a NaN has no place in it. -/
def FV.below : FV → FV → Bool
  | .nan, _ => false
  | _, .nan => false
  | .inf n, .inf m => n && !m
  | .inf n, .fin _ _ _ => n
  | .fin _ _ _, .inf m => !m
  | .fin n m x, .fin k l y =>
    let v := (FV.fin n m x).toRat
    let w := (FV.fin k l y).toRat
    decide (v < w) || (decide (v = w) && n && !k)

/-- A rational rounded to an integer (R19). -/
def Rnd.ofRat (r : Rnd) (v : ℚ) : Int :=
  match r with
  | .rne => if v - ⌊v⌋ < 1 / 2 then ⌊v⌋ else if 1 / 2 < v - ⌊v⌋ then ⌊v⌋ + 1 else if ⌊v⌋ % 2 = 0 then ⌊v⌋ else ⌊v⌋ + 1
  | .rna => if v < 0 then ⌈v - 1 / 2⌉ else ⌊v + 1 / 2⌋
  | .rz => if v < 0 then ⌈v⌉ else ⌊v⌋
  | .rup => ⌈v⌉
  | .rdn => ⌊v⌋

/-- That some bits are the finite value to which a format rounds a real number in its range (R19). -/
def Fmt.RoundsTo (F : Fmt) (r : Rnd) (v : ℝ) (y : Nat) : Prop :=
  let val (b : Nat) : ℝ := ((F.value b).toRat : ℝ)
  let finite (b : Nat) : Prop := b < 2 ^ (F.sign + 1) ∧ (F.value b).finite = true
  finite y ∧
    match r with
    | .rne => (∀ b, finite b → |val y - v| ≤ |val b - v|) ∧ ∀ b, finite b → |val b - v| = |val y - v| → val b ≠ val y → y % 2 = 0
    | .rna => (∀ b, finite b → |val y - v| ≤ |val b - v|) ∧ ∀ b, finite b → |val b - v| = |val y - v| → |val b| ≤ |val y|
    | .rz => |val y| ≤ |v| ∧ ∀ b, finite b → |val b| ≤ |v| → |val b| ≤ |val y|
    | .rup => v ≤ val y ∧ ∀ b, finite b → v ≤ val b → val y ≤ val b
    | .rdn => val y ≤ v ∧ ∀ b, finite b → val b ≤ v → val b ≤ val y

/-- That some bits lie within k ulp of a real number, measured in the format at that number, or are the infinity of its sign where it is
beyond the format's range (R28, R25). -/
def Fmt.Bounded (F : Fmt) (k : ℝ) (v : ℝ) (y : Nat) : Prop :=
  (y < 2 ^ (F.sign + 1) ∧ (F.value y).finite = true
      ∧ |((F.value y).toRat : ℝ) - v| ≤ k * (2 : ℝ) ^ (max (Int.log 2 |v|) (1 - F.bias) - F.fw))
    ∨ (((F.value F.maxFinite).toRat : ℝ) < |v| ∧ y = F.signed (decide (v < 0)) F.infBits)

/-! ## Lane results in integer arithmetic (R139 to R143) -/

/-- A carrier's value as an unsigned number of a type's width. -/
def unsignedOf (t : Ty) (x : DWord) : Nat := x.toNat % 2 ^ t.bits

/-- A carrier's value as a two's complement number of a type's width. -/
def signedOf (t : Ty) (x : DWord) : Int :=
  if unsignedOf t x < 2 ^ (t.bits - 1) then (unsignedOf t x : Int) else (unsignedOf t x : Int) - 2 ^ t.bits

/-- A carrier's value as its type has it. -/
def valueOf (t : Ty) (x : DWord) : Int := if t.signed then signedOf t x else (unsignedOf t x : Int)

/-- A number reduced modulo 2 to the width of a type. -/
def wrapTo (t : Ty) (v : Int) : DWord := BitVec.ofInt 64 (v % 2 ^ t.bits)

/-- The shift count of R139: b modulo the width. -/
def shiftOf (t : Ty) (b : DWord) : Nat := unsignedOf t b % t.bits

/-- The binary operations of R139 in integer arithmetic. -/
def ruleAdd (t : Ty) (a b : DWord) : DWord := wrapTo t (unsignedOf t a + unsignedOf t b)
/-- `sub`. -/
def ruleSub (t : Ty) (a b : DWord) : DWord := wrapTo t (unsignedOf t a - unsignedOf t b)
/-- `mul`: the low product. -/
def ruleMul (t : Ty) (a b : DWord) : DWord := wrapTo t (unsignedOf t a * unsignedOf t b)
/-- `mulh`: the high product. -/
def ruleMulh (t : Ty) (a b : DWord) : DWord := wrapTo t (valueOf t a * valueOf t b / 2 ^ t.bits)
/-- `mad`. -/
def ruleMad (t : Ty) (a b d : DWord) : DWord := wrapTo t (unsignedOf t a * unsignedOf t b + unsignedOf t d)
/-- `and`. -/
def ruleAnd (t : Ty) (a b : DWord) : DWord := BitVec.ofNat 64 (unsignedOf t a &&& unsignedOf t b)
/-- `or`. -/
def ruleOr (t : Ty) (a b : DWord) : DWord := BitVec.ofNat 64 (unsignedOf t a ||| unsignedOf t b)
/-- `xor`. -/
def ruleXor (t : Ty) (a b : DWord) : DWord := BitVec.ofNat 64 (unsignedOf t a ^^^ unsignedOf t b)
/-- `shl`. -/
def ruleShl (t : Ty) (a b : DWord) : DWord := wrapTo t (unsignedOf t a * 2 ^ shiftOf t b)
/-- `shr`. -/
def ruleShr (t : Ty) (a b : DWord) : DWord := wrapTo t (unsignedOf t a / 2 ^ shiftOf t b)
/-- `sar`: toward minus infinity. -/
def ruleSar (t : Ty) (a b : DWord) : DWord := wrapTo t (signedOf t a / 2 ^ shiftOf t b)
/-- `rol`. -/
def ruleRol (t : Ty) (a b : DWord) : DWord :=
  wrapTo t (unsignedOf t a * 2 ^ shiftOf t b + unsignedOf t a / 2 ^ (t.bits - shiftOf t b))
/-- `ror`. -/
def ruleRor (t : Ty) (a b : DWord) : DWord :=
  wrapTo t (unsignedOf t a / 2 ^ shiftOf t b + unsignedOf t a * 2 ^ (t.bits - shiftOf t b))
/-- `min`. -/
def ruleMin (t : Ty) (a b : DWord) : DWord := wrapTo t (min (valueOf t a) (valueOf t b))
/-- `max`. -/
def ruleMax (t : Ty) (a b : DWord) : DWord := wrapTo t (max (valueOf t a) (valueOf t b))
/-- `div` (R140): toward zero; by zero all ones; the overflow wraps to the most negative number. -/
def ruleDiv (t : Ty) (a b : DWord) : DWord := if unsignedOf t b = 0 then wrapTo t (-1) else wrapTo t ((valueOf t a).tdiv (valueOf t b))
/-- `rem` (R140): with the sign of a; by zero a. -/
def ruleRem (t : Ty) (a b : DWord) : DWord := if unsignedOf t b = 0 then wrapTo t (valueOf t a) else wrapTo t ((valueOf t a).tmod (valueOf t b))
/-- `abs` (R141). -/
def ruleAbs (t : Ty) (a : DWord) : DWord := wrapTo t (signedOf t a).natAbs
/-- `neg`. -/
def ruleNeg (t : Ty) (a : DWord) : DWord := wrapTo t (-signedOf t a)
/-- `not`. -/
def ruleNot (t : Ty) (a : DWord) : DWord := wrapTo t (-signedOf t a - 1)
/-- `clz`: how many of the highest bits are 0 before the first that is 1. -/
def ruleClz (t : Ty) (a : DWord) : DWord :=
  wrapTo t ((List.range t.bits).filter fun n => unsignedOf t a < 2 ^ (t.bits - 1 - n)).length
/-- `popc`. -/
def rulePopc (t : Ty) (a : DWord) : DWord := wrapTo t ((List.range t.bits).filter fun n => (unsignedOf t a).testBit n).length
/-- `brev`: bit n is bit W − 1 − n. -/
def ruleBrev (t : Ty) (a : DWord) : DWord :=
  wrapTo t ((List.range t.bits).map fun n => if (unsignedOf t a).testBit n then 2 ^ (t.bits - 1 - n) else 0).sum
/-- The position and the length of a bit field (R142); the part that lies within the width. -/
def fieldOf (t : Ty) (b : DWord) : Nat × Nat :=
  let pos := b.toNat % 2 ^ 6
  (pos, min (b.toNat / 2 ^ 8 % 2 ^ 6) (t.bits - pos))
/-- `bfx` (R142). -/
def ruleBfx (t : Ty) (a b : DWord) : DWord :=
  let (pos, len) := fieldOf t b
  let f := unsignedOf t a / 2 ^ pos % 2 ^ len
  if len = 0 then 0 else wrapTo t (if t.signed && decide (2 ^ (len - 1) ≤ f) then (f : Int) - 2 ^ len else f)
/-- `bfi` (R142). -/
def ruleBfi (t : Ty) (a b d : DWord) : DWord :=
  let (pos, len) := fieldOf t b
  let x := unsignedOf t d
  BitVec.ofNat 64 (x - x / 2 ^ pos % 2 ^ len * 2 ^ pos + unsignedOf t a % 2 ^ len * 2 ^ pos)
/-- `lea` (R143). -/
def ruleLea (n : Nat) (a b : DWord) : DWord := BitVec.ofNat 64 (a.toNat + b.toNat * 2 ^ n)

/-- The results of the integer lane instructions. -/
def integerRule : Instr → Option (LaneEnv → Nat → DWord)
  | .add w _ _ _ _ _ => some fun e n => ruleAdd (.B w) (e.a n) (e.b n)
  | .sub w _ _ _ _ _ => some fun e n => ruleSub (.B w) (e.a n) (e.b n)
  | .mul w _ _ _ _ _ => some fun e n => ruleMul (.B w) (e.a n) (e.b n)
  | .mulh i _ _ _ _ _ => some fun e n => ruleMulh (.I i) (e.a n) (e.b n)
  | .mad w _ _ _ _ _ => some fun e n => ruleMad (.B w) (e.a n) (e.b n) (e.d n)
  | .and w _ _ _ _ _ => some fun e n => ruleAnd (.B w) (e.a n) (e.b n)
  | .or w _ _ _ _ _ => some fun e n => ruleOr (.B w) (e.a n) (e.b n)
  | .xor w _ _ _ _ _ => some fun e n => ruleXor (.B w) (e.a n) (e.b n)
  | .shl w _ _ _ _ _ => some fun e n => ruleShl (.B w) (e.a n) (e.b n)
  | .shr w _ _ _ _ _ => some fun e n => ruleShr (.B w) (e.a n) (e.b n)
  | .sar w _ _ _ _ _ => some fun e n => ruleSar (.B w) (e.a n) (e.b n)
  | .rol w _ _ _ _ _ => some fun e n => ruleRol (.B w) (e.a n) (e.b n)
  | .ror w _ _ _ _ _ => some fun e n => ruleRor (.B w) (e.a n) (e.b n)
  | .min i _ _ _ _ _ => some fun e n => ruleMin (.I i) (e.a n) (e.b n)
  | .max i _ _ _ _ _ => some fun e n => ruleMax (.I i) (e.a n) (e.b n)
  | _ => none

/-- The results of `div` and `rem`. -/
def divisionRule : Instr → Option (LaneEnv → Nat → DWord)
  | .div i _ _ _ _ _ => some fun e n => ruleDiv (.I i) (e.a n) (e.b n)
  | .rem i _ _ _ _ _ => some fun e n => ruleRem (.I i) (e.a n) (e.b n)
  | _ => none

/-- The results of the one-operand, bit-field and address instructions. -/
def bitRule : Instr → Option (LaneEnv → Nat → DWord)
  | .abs w _ _ _ _ => some fun e n => ruleAbs (.B w) (e.a n)
  | .neg w _ _ _ _ => some fun e n => ruleNeg (.B w) (e.a n)
  | .not w _ _ _ _ => some fun e n => ruleNot (.B w) (e.a n)
  | .clz w _ _ _ _ => some fun e n => ruleClz (.B w) (e.a n)
  | .popc w _ _ _ _ => some fun e n => rulePopc (.B w) (e.a n)
  | .brev w _ _ _ _ => some fun e n => ruleBrev (.B w) (e.a n)
  | .bfx i _ _ _ _ _ => some fun e n => ruleBfx (.I i) (e.a n) (e.b n)
  | .bfi w _ _ _ _ _ => some fun e n => ruleBfi (.B w) (e.a n) (e.b n) (e.d n)
  | .lea k _ _ _ _ _ => some fun e n => ruleLea k.toNat (e.a n) (e.b n)
  | _ => none

/-- The 16-bit and immediate integer forms (R59, R65, R66): the type at which registers are read and written, the destination, and
each lane's result from a reader of registers. -/
def shortRule (u : UnitKind) : Instr → Option (Ty × Nat × ((Nat → DWord) → DWord))
  | .mov16 d b => some (u.natural, d.toNat, fun r => r b.toNat)
  | .add16 d b => some (u.natural, d.toNat, fun r => ruleAdd u.natural (r d.toNat) (r b.toNat))
  | .sub16 d b => some (u.natural, d.toNat, fun r => ruleSub u.natural (r d.toNat) (r b.toNat))
  | .mul16 d b => some (u.natural, d.toNat, fun r => ruleMul u.natural (r d.toNat) (r b.toNat))
  | .and16 d b => some (u.natural, d.toNat, fun r => ruleAnd u.natural (r d.toNat) (r b.toNat))
  | .or16 d b => some (u.natural, d.toNat, fun r => ruleOr u.natural (r d.toNat) (r b.toNat))
  | .xor16 d b => some (u.natural, d.toNat, fun r => ruleXor u.natural (r d.toNat) (r b.toNat))
  | .shl16 d b => some (u.natural, d.toNat, fun r => ruleShl u.natural (r d.toNat) (r b.toNat))
  | .shr16 d b => some (u.natural, d.toNat, fun r => ruleShr u.natural (r d.toNat) (r b.toNat))
  | .sar16 d b => some (u.natural, d.toNat, fun r => ruleSar u.natural (r d.toNat) (r b.toNat))
  | .min16 d b => some (signedNatural u, d.toNat, fun r => ruleMin (signedNatural u) (r d.toNat) (r b.toNat))
  | .max16 d b => some (signedNatural u, d.toNat, fun r => ruleMax (signedNatural u) (r d.toNat) (r b.toNat))
  | .movImm i d => some (u.natural, d.toNat, fun _ => BitVec.ofInt 64 i.toInt)
  | .addImm i d => some (u.natural, d.toNat, fun r => ruleAdd u.natural (r d.toNat) (BitVec.ofInt 64 i.toInt))
  | .mulImm i d => some (u.natural, d.toNat, fun r => ruleMul u.natural (r d.toNat) (BitVec.ofInt 64 i.toInt))
  | .andImm i d => some (u.natural, d.toNat, fun r => ruleAnd u.natural (r d.toNat) (BitVec.ofNat 64 i.toNat))
  | .orImm i d => some (u.natural, d.toNat, fun r => ruleOr u.natural (r d.toNat) (BitVec.ofNat 64 i.toNat))
  | .xorImm i d => some (u.natural, d.toNat, fun r => ruleXor u.natural (r d.toNat) (BitVec.ofNat 64 i.toNat))
  | .shlImm i d => some (u.natural, d.toNat, fun r => ruleShl u.natural (r d.toNat) (BitVec.ofNat 64 i.toNat))
  | .shrImm i d => some (u.natural, d.toNat, fun r => ruleShr u.natural (r d.toNat) (BitVec.ofNat 64 i.toNat))
  | .sarImm i d => some (u.natural, d.toNat, fun r => ruleSar u.natural (r d.toNat) (BitVec.ofNat 64 i.toNat))
  | .minImm i d => some (signedNatural u, d.toNat, fun r => ruleMin (signedNatural u) (r d.toNat) (BitVec.ofInt 64 i.toInt))
  | .maxImm i d => some (signedNatural u, d.toNat, fun r => ruleMax (signedNatural u) (r d.toNat) (BitVec.ofInt 64 i.toInt))
  | .movh i h d => some (u.natural, d.toNat, fun r =>
      BitVec.ofNat 64 ((r d.toNat).toNat - (r d.toNat).toNat / 2 ^ (16 * h.toNat) % 2 ^ 16 * 2 ^ (16 * h.toNat) + i.toNat * 2 ^ (16 * h.toNat)))
  | _ => none

/-! ## Floating results by the order and the rounding of their rules (R23, R26, R27, R144, R150) -/

/-- The exact value of a carrier's bits in a floating type. -/
def floatOf (t : Ty) (a : DWord) : FV := (Fmt.ofTy t).value (unsignedOf t a)
/-- The canonical quiet NaN of a type. -/
def quietNaN (t : Ty) : DWord := BitVec.ofNat 64 (Fmt.ofTy t).nan
/-- The lesser or the greater of two operands that are no NaN, by the order of R23. -/
def rulePick (larger : Bool) (t : Ty) (a b : DWord) : DWord :=
  BitVec.ofNat 64 (unsignedOf t (if (if larger then (floatOf t a).below (floatOf t b) else (floatOf t b).below (floatOf t a)) then b else a))
/-- `fmin` and `fmax` (R150): with a NaN operand the canonical NaN. -/
def ruleMinimum (larger : Bool) (t : Ty) (a b : DWord) : DWord :=
  if floatOf t a = .nan ∨ floatOf t b = .nan then quietNaN t else rulePick larger t a b
/-- `fminn` and `fmaxn` (R150): a NaN yields to a number. -/
def ruleMinimumNumber (larger : Bool) (t : Ty) (a b : DWord) : DWord :=
  if floatOf t a = .nan then (if floatOf t b = .nan then quietNaN t else BitVec.ofNat 64 (unsignedOf t b))
  else if floatOf t b = .nan then BitVec.ofNat 64 (unsignedOf t a)
  else rulePick larger t a b
/-- `fcmp` by its condition code (R144). -/
def ruleFcmp (t : Ty) (cc : Nat) (a b : DWord) : Bool :=
  let x := floatOf t a
  let y := floatOf t b
  let un : Bool := decide (x = .nan) || decide (y = .nan)
  match cc with
  | 0 => !un && !x.below y && !y.below x
  | 1 => un || x.below y || y.below x
  | 2 => x.below y
  | 3 => !un && !y.below x
  | 4 => y.below x
  | 5 => !un && !x.below y
  | 6 => un
  | _ => !un
/-- The least and the greatest number of an integer type (R24). -/
def leastOf (t : Ty) : Int := if t.signed then -2 ^ (t.bits - 1) else 0
/-- The greatest. -/
def greatestOf (t : Ty) : Int := if t.signed then 2 ^ (t.bits - 1) - 1 else 2 ^ t.bits - 1
/-- `cvt` (R25 to R27): between integers by value modulo 2 to the width, from an integer and between floating formats with one rounding,
and to an integer rounded and kept within its range, with 0 for a NaN. -/
def ruleCvt (r : Rnd) (dst src : Ty) (a : DWord) : DWord :=
  let F := Fmt.ofTy dst
  if !src.floating then
    if !dst.floating then wrapTo dst (valueOf src a)
    else BitVec.ofNat 64 (F.round r (decide (valueOf src a < 0)) (valueOf src a).natAbs 1 0)
  else
    match floatOf src a, dst.floating with
    | .nan, false => 0
    | .inf n, false => wrapTo dst (if n then leastOf dst else greatestOf dst)
    | .fin n m x, false => wrapTo dst (max (leastOf dst) (min (greatestOf dst) (r.ofRat (FV.fin n m x).toRat)))
    | .nan, true => quietNaN dst
    | .inf n, true => BitVec.ofNat 64 (F.signed n (if dst = .e4m3 then F.maxFinite else F.infBits))
    | .fin n m x, true => BitVec.ofNat 64 (F.round r n m 1 x)

/-! ## Reductions and TS blocks (R29 to R37, R153 to R157) -/

/-- The operations of `gred` and `scan` by their code (R77, R157). -/
def ruleReduce (t : Ty) (o : Nat) : DWord → DWord → DWord :=
  if t.floating then
    match o with
    | 0 => aluFadd t .rne
    | 1 => ruleMinimum false t
    | _ => ruleMinimum true t
  else
    match o with
    | 0 => ruleAdd t
    | 1 => ruleMin t
    | 2 => ruleMax t
    | 3 => ruleAnd t
    | 4 => ruleOr t
    | _ => ruleXor t
/-- The identities of `scan.exc` (R157). -/
def ruleIdentity (t : Ty) (o : Nat) : DWord :=
  let F := Fmt.ofTy t
  if t.floating then
    match o with
    | 0 => BitVec.ofNat 64 (2 ^ (t.bits - 1))
    | 1 => BitVec.ofNat 64 F.infBits
    | _ => BitVec.ofNat 64 (2 ^ (t.bits - 1) + F.infBits)
  else
    match o with
    | 1 => wrapTo t (greatestOf t)
    | 2 => wrapTo t (leastOf t)
    | 3 => wrapTo t (-1)
    | _ => 0
/-- The magnitude bits of the TS kinds by their code (chapter 01). -/
def tsWidth (kind : BitVec 2) : Nat := if kind = 0 then 2 else if kind = 1 then 4 else 7
/-- scale(e, f) of R34. -/
def ruleScale (e f : Nat) : ℚ := 2 ^ ((e : Int) - 127) * (1 + (f : ℚ) / 16)
/-- The pairs of R34 in the order of rising scale. -/
def scalePairs : List (Nat × Nat) := (List.range 254).flatMap fun e => (List.range 16).map fun f => (e + 1, f)
/-- A block encoded by R34 to R36: its scale word and its element fields by number. -/
def ruleEncode (k : Nat) (r : Rnd) (x : Nat → FV) : Word × (Nat → Nat) :=
  let mag (i : Nat) : ℚ := |(x i).toRat|
  let mmax : ℚ := (2 ^ k - 1) * 2 ^ (1 - (k : Int))
  let amax : ℚ := (List.range 16).foldl (fun m i => max m (mag i)) 0
  if !(List.range 16).all fun i => (x i).finite then (255 * 2 ^ 4, fun _ => 0)
  else if amax = 0 then (0, fun _ => 0)
  else
    let (e, f) := (scalePairs.find? fun p => decide (amax / mmax ≤ ruleScale p.1 p.2)).getD (254, 15)
    let half (j : Nat) : Bool := decide (max (mag (2 * j)) (mag (2 * j + 1)) ≤ mmax * ruleScale e f / 2)
    let mu := ((List.range 8).map fun j => if half j then 2 ^ j else 0).sum
    (BitVec.ofNat 32 (mu * 2 ^ 12 + e * 2 ^ 4 + f), fun i =>
      let sp := if half (i / 2) then ruleScale e f / 2 else ruleScale e f
      min (r.ofRat ((x i).toRat * 2 ^ (k - 1) / sp)).natAbs (2 ^ k - 1)
        + match x i with
          | .fin true _ _ => 2 ^ k
          | _ => 0)
/-- `tspk` in a lane (R153): the scale word above the element field; the inputs are those of the lane's half-gang, inactive ones as +0. -/
def ruleTspk (kind : BitVec 2) (r : Rnd) (input : Nat) (e : LaneEnv) (n : Nat) : DWord :=
  let t : Ty := if input = 0 then .f32 else if input = 1 then .f16 else .bf16
  let b := ruleEncode (tsWidth kind) r fun i =>
    if e.act.getLsbD (n / 16 * 16 + i) then floatOf t (e.a (n / 16 * 16 + i)) else .fin false 0 0
  BitVec.ofNat 64 (b.1.toNat * 2 ^ 32 + b.2 (n % 16))
/-- `tsupk` in a lane (R154, R30, R31, R37). -/
def ruleTsupk (kind : BitVec 2) (a b : DWord) (n : Nat) : DWord :=
  let k := tsWidth kind
  let w := b.toNat
  let e : Nat := w / 2 ^ 4 % 2 ^ 8
  let mu : Nat := w / 2 ^ (12 + n % 16 / 2) % 2
  if e = 0 then 0
  else if e = 255 then quietNaN .f32
  else BitVec.ofNat 64 (Fmt.f32.round .rne (a.getLsbD k) (a.toNat % 2 ^ k * (16 + w % 2 ^ 4)) 16 ((1 : Int) - k + (e - 127) - mu))
/-- `tssc` (R155). -/
def ruleTssc (a b : DWord) : DWord :=
  let w := a.toNat % 2 ^ 20
  let e : Nat := w / 2 ^ 4 % 2 ^ 8
  let e2 : Int := e + signedOf .i32 b
  if e = 0 ∨ e = 255 then BitVec.ofNat 64 w
  else if e2 < 1 then 0
  else if 254 < e2 then BitVec.ofNat 64 (w / 2 ^ 12 * 2 ^ 12 + 254 * 2 ^ 4 + 15)
  else BitVec.ofNat 64 (w / 2 ^ 12 * 2 ^ 12 + e2.toNat * 2 ^ 4 + w % 2 ^ 4)

/-- The floating results of R147 to R151, with the rounding that the instruction names: what rounds an exact result, and the
approximations, by the format's own operations, which have statements of their own, and the rest by their rules. -/
def floatRule (u : UnitKind) : Instr → Option (LaneEnv → Nat → DWord)
  | .fadd f _ _ _ _ _ => some fun e n => aluFadd (.F f) .rne (e.a n) (e.b n)
  | .fsub f _ _ _ _ _ => some fun e n => aluFsub (.F f) .rne (e.a n) (e.b n)
  | .fmul f _ _ _ _ _ => some fun e n => aluFmul (.F f) .rne (e.a n) (e.b n)
  | .fma f _ _ _ _ _ => some fun e n => aluFma (.F f) .rne (e.a n) (e.b n) (e.d n)
  | .fdiv f _ _ _ _ _ => some fun e n => aluFdiv (.F f) (e.a n) (e.b n)
  | .fmin f _ _ _ _ _ => some fun e n => ruleMinimum false (.F f) (e.a n) (e.b n)
  | .fmax f _ _ _ _ _ => some fun e n => ruleMinimum true (.F f) (e.a n) (e.b n)
  | .fminn f _ _ _ _ _ => some fun e n => ruleMinimumNumber false (.F f) (e.a n) (e.b n)
  | .fmaxn f _ _ _ _ _ => some fun e n => ruleMinimumNumber true (.F f) (e.a n) (e.b n)
  | .fsqrt f _ r _ _ _ => some fun e n => aluFsqrt (.F f) (Rnd.code r.toNat) (e.a n)
  | .frcp f _ _ _ _ => some fun e n => aluFrcp (.F f) (e.a n)
  | .frsq f _ _ _ _ => some fun e n => aluFrsq (.F f) (e.a n)
  | .fexp2 f _ _ _ _ => some fun e n => aluFexp2 (.F f) (e.a n)
  | .flog2 f _ _ _ _ => some fun e n => aluFlog2 (.F f) (e.a n)
  | .fabs f _ _ _ _ => some fun e n => BitVec.ofNat 64 (unsignedOf (.F f) (e.a n) % 2 ^ ((Ty.F f).bits - 1))
  | .fneg f _ _ _ _ => some fun e n => BitVec.ofNat 64 ((unsignedOf (.F f) (e.a n) + 2 ^ ((Ty.F f).bits - 1)) % 2 ^ (Ty.F f).bits)
  | .faddD r _ _ _ _ _ => some fun e n => aluFadd u.floating (.directed r) (e.a n) (e.b n)
  | .fsubD r _ _ _ _ _ => some fun e n => aluFsub u.floating (.directed r) (e.a n) (e.b n)
  | .fmulD r _ _ _ _ _ => some fun e n => aluFmul u.floating (.directed r) (e.a n) (e.b n)
  | .fmaD r _ _ _ _ _ => some fun e n => aluFma u.floating (.directed r) (e.a n) (e.b n) (e.d n)
  | .cvtRne d _ y v _ _ _ => some fun e n => ruleCvt .rne (.code y) (.code (d ++ v)) (e.a n)
  | .cvtRna d _ y v _ _ _ => some fun e n => ruleCvt .rna (.code y) (.code (d ++ v)) (e.a n)
  | .cvtRz d _ y v _ _ _ => some fun e n => ruleCvt .rz (.code y) (.code (d ++ v)) (e.a n)
  | .cvtRup d _ y v _ _ _ => some fun e n => ruleCvt .rup (.code y) (.code (d ++ v)) (e.a n)
  | .cvtRdn d _ y v _ _ _ => some fun e n => ruleCvt .rdn (.code y) (.code (d ++ v)) (e.a n)
  | _ => none

/-- The 16-bit and immediate floating forms (R59, R158). -/
def shortFloatRule (u : UnitKind) : Instr → Option (Nat × ((Nat → DWord) → DWord))
  | .fadd16 d b => some (d.toNat, fun r => aluFadd u.floating .rne (r d.toNat) (r b.toNat))
  | .fsub16 d b => some (d.toNat, fun r => aluFsub u.floating .rne (r d.toNat) (r b.toNat))
  | .fmul16 d b => some (d.toNat, fun r => aluFmul u.floating .rne (r d.toNat) (r b.toNat))
  | .fmax16 d b => some (d.toNat, fun r => ruleMinimum true u.floating (r d.toNat) (r b.toNat))
  | .fmovImm i d => some (d.toNat, fun _ => ruleCvt .rne u.floating .f16 (BitVec.ofNat 64 i.toNat))
  | .faddImm i d => some (d.toNat, fun r => aluFadd u.floating .rne (r d.toNat) (ruleCvt .rne u.floating .f16 (BitVec.ofNat 64 i.toNat)))
  | .fmulImm i d => some (d.toNat, fun r => aluFmul u.floating .rne (r d.toNat) (ruleCvt .rne u.floating .f16 (BitVec.ofNat 64 i.toNat)))
  | .fmaxImm i d => some (d.toNat, fun r => ruleMinimum true u.floating (r d.toNat) (ruleCvt .rne u.floating .f16 (BitVec.ofNat 64 i.toNat)))
  | _ => none

/-- The results of the mask producers in a lane (R144, R146). -/
def maskRule : Instr → Option (LaneEnv → Nat → Bool)
  | .icmp i _ _ _ c _ _ => some fun e n =>
      let x := valueOf (.I i) (e.a n)
      let y := valueOf (.I i) (e.b n)
      if c = 0 then decide (x = y) else if c = 1 then decide (x ≠ y) else if c = 2 then decide (x < y) else if c = 3 then decide (x ≤ y)
      else if c = 4 then decide (y < x) else decide (y ≤ x)
  | .fcmp f _ _ _ c _ _ => some fun e n => ruleFcmp (.F f) c.toNat (e.a n) (e.b n)
  | .kand _ _ _ _ _ => some fun e n => (e.a n).getLsbD n && (e.b n).getLsbD n
  | .kandn _ _ _ _ _ => some fun e n => (e.a n).getLsbD n && !(e.b n).getLsbD n
  | .kor _ _ _ _ _ => some fun e n => (e.a n).getLsbD n || (e.b n).getLsbD n
  | .kxor _ _ _ _ _ => some fun e n => (e.a n).getLsbD n ^^ (e.b n).getLsbD n
  | .knot _ _ _ _ => some fun e n => !(e.a n).getLsbD n
  | .kmov _ _ _ _ => some fun e n => (e.a n).getLsbD n
  | .voteAll _ _ _ _ => some fun e n => (List.range 32).all fun m => !e.act.getLsbD m || (e.a n).getLsbD m
  | .voteAny _ _ _ _ => some fun e n => (List.range 32).any fun m => e.act.getLsbD m && (e.a n).getLsbD m
  | .kset _ _ _ _ => some fun e n => (e.a (((List.range 32).find? fun m => e.act.getLsbD m).getD 0)).getLsbD n
  | _ => none

/-- The results of the selects, shuffles, reductions, scans and TS block instructions (R145, R146, R153 to R157). -/
def crossRule : Instr → Option (LaneEnv → Nat → DWord)
  | .sel k _ _ _ _ _ => some fun e n => if (e.k k.toNat).getLsbD n then e.a n else e.b n
  | .ballot _ _ _ _ => some fun e n => BitVec.ofNat 64 ((e.a n).toNat % 2 ^ 32 &&& e.act.toNat)
  | .shflIdx _ _ _ _ _ => some fun e n => e.a ((e.b n).toNat % 32)
  | .shflUp _ _ _ _ _ => some fun e n => if (e.b n).toNat % 64 ≤ n then e.a (n - (e.b n).toNat % 64) else e.a n
  | .shflDn _ _ _ _ _ => some fun e n => if n + (e.b n).toNat % 64 < 32 then e.a (n + (e.b n).toNat % 64) else e.a n
  | .shflXor _ _ _ _ _ => some fun e n => e.a ((n % 32) ^^^ ((e.b n).toNat % 32))
  | .rotUp _ _ _ _ _ => some fun e n => e.a ((n + 32 - (e.b n).toNat % 32) % 32)
  | .rotDn _ _ _ _ _ => some fun e n => e.a ((n + (e.b n).toNat % 32) % 32)
  | .bcast _ l _ _ _ => some fun e _ => e.a l.toNat
  | .gred t _ c o _ _ _ => some fun e _ =>
      match (List.range 32).filter fun m => e.act.getLsbD m with
      | [] => 0
      | m :: ms => ms.foldl (fun x j => ruleReduce (.IF c t) o.toNat x (e.a j)) (e.a m)
  | .scanInc t _ c o _ _ _ => some fun e n =>
      match (List.range 32).filter fun m => e.act.getLsbD m && decide (m ≤ n) with
      | [] => 0
      | m :: ms => ms.foldl (fun x j => ruleReduce (.IF c t) o.toNat x (e.a j)) (e.a m)
  | .scanExc t _ c o _ _ _ => some fun e n =>
      match (List.range 32).filter fun m => e.act.getLsbD m && decide (m < n) with
      | [] => ruleIdentity (.IF c t) o.toNat
      | m :: ms => ms.foldl (fun x j => ruleReduce (.IF c t) o.toNat x (e.a j)) (e.a m)
  | .tspk t _ r i _ _ _ => some fun e n => ruleTspk t (Rnd.code r.toNat) i.toNat e n
  | .tsupk t _ _ _ _ _ => some fun e n => ruleTsupk t (e.a n) (e.b n) n
  | .tssc _ _ _ _ _ => some fun e n => ruleTssc (e.a n) (e.b n)
  | _ => none

/-! ## Special registers (R57, R12, R98, R99, R287) -/

/-- What a special register of R57 other than `%lane` reads as in a unit. -/
def statusRule (s : State) (u : UnitId) (code : Nat) : DWord :=
  let c := UnitClu u
  match code, u with
  | 1, .a g | 1, .c g => BitVec.ofNat 64 g.slot
  | 2, .a g | 2, .c g => BitVec.ofNat 64 g.core
  | 3, _ => BitVec.ofNat 64 ((s.die c.dieId).remapOf c.clu).logical
  | 4, _ => BitVec.ofNat 64 c.die
  | 5, _ => BitVec.ofNat 64 c.pkg
  | 6, .a g => (s.gang g).exmA.zeroExtend 64
  | 6, .c g => (s.gang g).exmC.zeroExtend 64
  | 7, .a g => BitVec.ofNat 64 (s.gang g).slip
  | 8, _ => BitVec.ofNat 64 (s.pkg c.pkg).time
  | 9, .m c =>
    let x := (s.clu c).ctl
    BitVec.ofNat 16 x.done ++ BitVec.ofNat 3 x.state ++ BitVec.ofNat 3 x.queue.length ++ 0#2 ++ BitVec.ofNat 8 x.col ++ BitVec.ofNat 32 x.kstep
  | _, _ => 0

/-! ## Memory instructions (R251 to R262) -/

/-- The access of a memory instruction of the a-slice. -/
def memAccess : Instr → Option (State → GangId → Access)
  | .ld o q p z a d => some (loadAccess .load o q p z a d)
  | .ldFe o q p z a d => some (loadAccess .loadFe o q p z a d)
  | .ldFec o q p z a d => some (loadAccess .loadFec o q p z a d)
  | .st o q p z a d => some (storeAccess .store o q p z a d)
  | .stFe o q p z a d => some (storeAccess .storeFe o q p z a d)
  | .atomAdd t p b a d => some (atomicAccess 0 (.I t) p b a (some d))
  | .atomMin t p b a d => some (atomicAccess 1 (.I t) p b a (some d))
  | .atomMax t p b a d => some (atomicAccess 2 (.I t) p b a (some d))
  | .atomAnd t p b a d => some (atomicAccess 3 (.I t) p b a (some d))
  | .atomOr t p b a d => some (atomicAccess 4 (.I t) p b a (some d))
  | .atomXor t p b a d => some (atomicAccess 5 (.I t) p b a (some d))
  | .atomExch t p b a d => some (atomicAccess 6 (.I t) p b a (some d))
  | .atomCas t p b a d => some (atomicAccess 7 (.I t) p b a (some d))
  | .redAdd t p b a => some (atomicAccess 0 (.I t) p b a none)
  | .redMin t p b a => some (atomicAccess 1 (.I t) p b a none)
  | .redMax t p b a => some (atomicAccess 2 (.I t) p b a none)
  | .redAnd t p b a => some (atomicAccess 3 (.I t) p b a none)
  | .redOr t p b a => some (atomicAccess 4 (.I t) p b a none)
  | .redXor t p b a => some (atomicAccess 5 (.I t) p b a none)
  | .fatomAdd t p b a d => some (atomicAccess 0 (.F t) p b a (some d))
  | .fatomMin t p b a d => some (atomicAccess 1 (.F t) p b a (some d))
  | .fatomMax t p b a d => some (atomicAccess 2 (.F t) p b a (some d))
  | .fredAdd t p b a => some (atomicAccess 0 (.F t) p b a none)
  | .fredMin t p b a => some (atomicAccess 1 (.F t) p b a none)
  | .fredMax t p b a => some (atomicAccess 2 (.F t) p b a none)
  | _ => none

/-- A full-empty access. -/
def AccessKind.fullEmpty (k : AccessKind) : Bool := k == .loadFe || k == .loadFec || k == .storeFe

/-! ## Fabric instructions (R453 to R459) -/

/-- What a remote instruction does: its kind, its size, its operation and type, its address register, its data, and its destination. -/
structure RemoteShape where
  kind : AccessKind
  size : Nat
  op : Nat
  ty : Ty
  a : BitVec 6
  data : State → GangId → Nat → Nat
  d : Nat

/-- The shape of a remote instruction (R453, R454). -/
def remoteShape : Instr → Option RemoteShape
  | .rld z a d => some ⟨.load, fabBytes z, 0, .b64, a, fun _ _ _ => 0, d.toNat⟩
  | .rst z b a => some ⟨.store, fabBytes z, 0, .b64, a, fabData z b, 64⟩
  | .rredAdd t b a => some ⟨.atomic, (Ty.I t).bits / 8, 0, .I t, a, redData t b, 64⟩
  | .rredMin t b a => some ⟨.atomic, (Ty.I t).bits / 8, 1, .I t, a, redData t b, 64⟩
  | .rredMax t b a => some ⟨.atomic, (Ty.I t).bits / 8, 2, .I t, a, redData t b, 64⟩
  | .rredAnd t b a => some ⟨.atomic, (Ty.I t).bits / 8, 3, .I t, a, redData t b, 64⟩
  | .rredOr t b a => some ⟨.atomic, (Ty.I t).bits / 8, 4, .I t, a, redData t b, 64⟩
  | .rredXor t b a => some ⟨.atomic, (Ty.I t).bits / 8, 5, .I t, a, redData t b, 64⟩
  | _ => none

/-- A multicast instruction's size, address register, record of a lane, and register of its sequences (R458, R459). -/
structure MulticastShape where
  size : Nat
  a : BitVec 6
  act : State → GangId → Nat → Nat → McAct
  d : Option Nat

/-- The shape of a multicast instruction. -/
def multicastShape : Instr → Option MulticastShape
  | .mcst z b a d => some ⟨fabBytes z, a, fun s g off n => .store off (fabBytes z) (fabData z b s g n) false, some d.toNat⟩
  | .mcatomAdd t b a => some ⟨(Ty.I t).bits / 8, a, fun s g off n => .atomic off 0 (.I t) (redData t b s g n) false, none⟩
  | .mcatomMin t b a => some ⟨(Ty.I t).bits / 8, a, fun s g off n => .atomic off 1 (.I t) (redData t b s g n) false, none⟩
  | .mcatomMax t b a => some ⟨(Ty.I t).bits / 8, a, fun s g off n => .atomic off 2 (.I t) (redData t b s g n) false, none⟩
  | .mcatomAnd t b a => some ⟨(Ty.I t).bits / 8, a, fun s g off n => .atomic off 3 (.I t) (redData t b s g n) false, none⟩
  | .mcatomOr t b a => some ⟨(Ty.I t).bits / 8, a, fun s g off n => .atomic off 4 (.I t) (redData t b s g n) false, none⟩
  | .mcatomXor t b a => some ⟨(Ty.I t).bits / 8, a, fun s g off n => .atomic off 5 (.I t) (redData t b s g n) false, none⟩
  | _ => none

/-! ## Anvil instructions (R283 to R285, R304) -/

/-- A captured tile that passes its checks, in an allocation of a size, with rows of some bytes and an alignment. -/
def RawTile.Legal (t : RawTile) (clsz row al : Nat) : Prop :=
  t.reserved = false ∧ t.base % (al : Int) = 0 ∧ t.stride % al = 0 ∧ row ≤ t.stride ∧ 0 ≤ t.base
    ∧ t.base + (max ((t.rows - 1) * t.stride + row) 1 : Nat) ≤ if t.sp then (2 : Int) ^ 57 else clsz

/-- A captured operand tile of a format with its scale array. -/
def RawTile.OperandLegal (t : RawTile) (clsz code scale : Nat) (scaleSp : Bool) : Prop :=
  t.Legal clsz (rowBytes code t.cols) 16
    ∧ (isTs code = true → t.cols % 16 = 0 ∧ scale % 4 = 0
        ∧ scale + max (4 * (t.rows * (t.cols / 16))) 1 ≤ if scaleSp then 2 ^ 57 else clsz)

/-- A captured tile that `acvt` writes, with its scale array: aligned as R33 has it for a TS format, and otherwise to its elements (log
entry 15). -/
def RawTile.OutLegal (t : RawTile) (clsz code scale : Nat) : Prop :=
  t.Legal clsz (rowBytes code t.cols) (if code = 8 then 16 else if isTs code then 2 else max (elemBytes code) 1)
    ∧ (isTs code = true → t.cols % 16 = 0 ∧ scale % 4 = 0 ∧ scale + max (4 * (t.rows * (t.cols / 16))) 1 ≤ clsz)

/-- A captured square tile of a factorisation. -/
def RawTile.SquareLegal (t : RawTile) (clsz e : Nat) : Prop :=
  t.cols = t.rows ∧ t.rows ≤ 128 ∧ t.sp = false ∧ t.Legal clsz (t.cols * e) 16

/-- A controller's instruction has entered the anvil queue, and nothing else has changed. -/
def State.queued (s t : State) (c : CluId) (e : AnvilEntry) : Prop :=
  t.mem = s.mem ∧ s.sameButCtl t c
    ∧ (t.clu c).ctl = { (s.clu c).ctl with
        queue := (s.clu c).ctl.queue ++ [e], state := if (s.clu c).ctl.queue = [] then 1 else (s.clu c).ctl.state, pc := (s.clu c).ctl.pc + 4
        issued := (s.clu c).ctl.issued + 1 }

/-! ## Frames -/

/-- The registers of every unit are the same: vector and uniform registers, masks and the supervisor bank of every gang, and the
registers of every controller. -/
def State.sameRegs (s t : State) : Prop :=
  (∀ g, (t.gang g).a = (s.gang g).a ∧ (t.gang g).s = (s.gang g).s ∧ (t.gang g).ka = (s.gang g).ka ∧ (t.gang g).v = (s.gang g).v
    ∧ (t.gang g).kc = (s.gang g).kc ∧ (t.gang g).sa = (s.gang g).sa ∧ (t.gang g).ss = (s.gang g).ss ∧ (t.gang g).sk = (s.gang g).sk)
  ∧ ∀ c, (t.clu c).ctl.m = (s.clu c).ctl.m ∧ (t.clu c).ctl.sm = (s.clu c).ctl.sm

/-- What a gang's mode, slip, checked mode and trap record are, and the vector table of every core. -/
def State.sameStatus (s t : State) : Prop :=
  (∀ g, (t.gang g).mode = (s.gang g).mode ∧ (t.gang g).slip = (s.gang g).slip ∧ (t.gang g).checked = (s.gang g).checked
    ∧ (t.gang g).record = (s.gang g).record)
  ∧ ∀ c, (t.core c).vectors = (s.core c).vectors

/-- The instructions of a stream that have no destination register when they execute; a load's comes with its data. -/
def noDestination : Instr → Bool
  | .ld _ _ _ _ _ _ | .ldFe _ _ _ _ _ _ | .ldFec _ _ _ _ _ _ | .st _ _ _ _ _ _ | .stFe _ _ _ _ _ _ => true
  | .atomAdd _ _ _ _ _ | .atomMin _ _ _ _ _ | .atomMax _ _ _ _ _ | .atomAnd _ _ _ _ _ | .atomOr _ _ _ _ _ | .atomXor _ _ _ _ _
  | .atomExch _ _ _ _ _ | .atomCas _ _ _ _ _ | .fatomAdd _ _ _ _ _ | .fatomMin _ _ _ _ _ | .fatomMax _ _ _ _ _ => true
  | .redAdd _ _ _ _ | .redMin _ _ _ _ | .redMax _ _ _ _ | .redAnd _ _ _ _ | .redOr _ _ _ _ | .redXor _ _ _ _ => true
  | .fredAdd _ _ _ _ | .fredMin _ _ _ _ | .fredMax _ _ _ _ => true
  | .bra _ _ | .brc _ _ _ _ | .brv _ _ | .brd _ | .nop | .rejoin | .ret | .jmpi _ _ _ | .qdrain _ | .gsync | .gsyncMask _ => true
  | .trap _ | .brk _ | .svc _ | .region | .fence _ | .acq _ | .rel _ | .bind _ _ _ | .unbind _ | .mon _ | .pfL1 _ | .pfL2 _ => true
  | .copy _ _ _ | .tcopy _ _ | .copyt _ _ _ | .cwait _ _ | .mappg _ _ _ _ | .unmappg _ _ | .tlbinv _ _ | .replay _ | .replayall => true
  | .tmwait _ | .ctxsv _ | .ctxld _ | .rtcore _ | .rtclu _ | .replan _ => true
  | .rld _ _ _ | .rst _ _ _ | .rredAdd _ _ _ | .rredMin _ _ _ | .rredMax _ _ _ | .rredAnd _ _ _ | .rredOr _ _ _ | .rredXor _ _ _ => true
  | .mcatomAdd _ _ _ | .mcatomMin _ _ _ | .mcatomMax _ _ _ | .mcatomAnd _ _ _ | .mcatomOr _ _ _ | .mcatomXor _ _ _ | .mcwait _ _ => true
  | .phjoin _ _ | .phleave _ | .phsig _ | .phsigBnd _ | .phwait _ _ | .phsw _ _ | .phswBnd _ _ | .phany _ _ => true
  | .mma _ _ _ _ _ | .mmaz _ _ _ _ _ | .azero _ | .acvt _ _ _ | .tpin _ _ | .awt _ | .pmapply _ _ | .lup _ _ | .chol _ _
  | .qrh _ _ _ | .trsm _ _ _ _ => true
  | _ => false

/-- The instructions of a stream that can write memory when they execute: locks and page-table leaves, and a count word that reads
with an uncorrectable error (R265, R333, R370, R371). A store writes when it is performed. -/
def writesMemory : Instr → Bool
  | .acq _ | .rel _ | .copyt _ _ _ | .cwait _ _ | .mappg _ _ _ _ | .unmappg _ _ => true
  | _ => false

end Sys2Proof.Machine
end

