-- ==== Sys2Proof/Certificates/Slice0/Obligations.lean ====
section
/-! DEFINITION. The statements of this model for the provers. -/

open Sys2Proof Sys2Proof.Machine

/-- The machine right after reset satisfies the invariant of memory that every step keeps: addresses strictly rising and no
zero byte listed (log entry 1 is the model's choice of that form). -/
def Obligations.ResetHoldsInvariant : Prop :=
  State.reset.Inv

/-- For every state whose memory is in canonical form, whatever unit, event or free schedule the step takes, the next state's
memory is in canonical form too, so equal memories stay equal data. -/
def Obligations.StepKeepsInvariant : Prop :=
  ∀ s s' : State, s.Inv → step s = .next s' → s'.Inv

/-- No step is refused, and a step faults only with fetchUnmapped, with no event on the agenda, at a selected unit that can
issue and whose program counter's page has no mapping (log entry 6 is the model's choice there). -/
def Obligations.StepFaultsOnlyAtFetch : Prop :=
  ∀ s : State, (∃ t, step s = .next t)
    ∨ (step s = .fault .fetchUnmapped ∧ s.agenda = [] ∧ ∃ u rest, s.issue = u :: rest
        ∧ ({ s with issue := rest, cur := u } : State).runnable u = true ∧ ({ s with issue := rest, cur := u } : State).fetch u = none)

/-- With no event on the agenda and a unit selected that can issue, whose code neither waits for its frame nor reads marked,
if the halfword or word at its program counter decodes to a well-formed instruction i, the step is exec of i in the state
that the fetch leaves with that unit current and taken off the selection; what the fetch changes is only the TLBs of the
unit's cluster and die and the instruction cache of its core: every other field of the state, and of every cluster, die and
core, is as before. -/
def Obligations.StepRunsDecoded : Prop :=
  ∀ (s : State) (u : UnitId) (rest : List UnitId) (t : State) (w : Word) (i : Instr),
    s.agenda = [] → s.issue = u :: rest →
    ({ s with issue := rest, cur := u } : State).runnable u = true →
    ({ s with issue := rest, cur := u } : State).fetchWaits u = false →
    ({ s with issue := rest, cur := u } : State).fetchMarked u = false →
    ({ s with issue := rest, cur := u } : State).fetch u = some (t, w) →
    decode u.kind (t.mode u) w = .ok i →
    step s = exec i t ∧ t = { s with issue := rest, cur := u, dies := t.dies, clus := t.clus, cores := t.cores }
      ∧ (∀ d, t.die d = { s.die d with tlb := (t.die d).tlb } ∧ (d ≠ (UnitClu u).dieId → t.die d = s.die d))
      ∧ (∀ c, t.clu c = { s.clu c with tlb := (t.clu c).tlb } ∧ (c ≠ UnitClu u → t.clu c = s.clu c))
      ∧ (∀ c, t.core c = { s.core c with l1i := (t.core c).l1i } ∧ (c ≠ UnitCore u → t.core c = s.core c))

/-- Where the word at the program counter of the selected unit neither waits nor reads marked and decodes to no instruction
with detail n, the step raises in that a-slice, c-slice or controller the reserved-instruction cause 2 for detail 1 and the
illegal-instruction cause 1 otherwise (in the c-slice beside a handler cause 16, by row 16 of R124 with R207 and step 1 of
R204), with that detail, info 0 and the active lanes; a slice stops at its instruction, and memory, every program counter and
the flags of the other slice are unchanged. -/
def Obligations.StepTrapsUndecoded : Prop :=
  ∀ (s : State) (u : UnitId) (rest : List UnitId) (t : State) (w : Word) (n : Nat),
    s.agenda = [] → s.issue = u :: rest →
    ({ s with issue := rest, cur := u } : State).runnable u = true →
    ({ s with issue := rest, cur := u } : State).fetchWaits u = false →
    ({ s with issue := rest, cur := u } : State).fetchMarked u = false →
    ({ s with issue := rest, cur := u } : State).fetch u = some (t, w) →
    decode u.kind (t.mode u) w = .error n →
    let cause := if n = 1 then 2 else 1
    let len := if w.getLsbD 0 then 4 else 2
    ∃ x, step s = .next x ∧ x.mem = s.mem ∧ (∀ v, x.pc v = s.pc v) ∧
      match u with
      | .a g => (x.gang g).stopA = true ∧ (x.gang g).trapA = some ⟨cause, n, 0, s.active (.a g), false, len⟩
          ∧ (x.gang g).stopC = (s.gang g).stopC ∧ (x.gang g).trapC = (s.gang g).trapC
      | .c g => (x.gang g).stopC = true
          ∧ (x.gang g).trapC = some ⟨if (s.gang g).mode = .user then cause else 16, n, 0, s.active (.c g), false, len⟩
          ∧ (x.gang g).stopA = (s.gang g).stopA ∧ (x.gang g).trapA = (s.gang g).trapA
      | .m c => (x.clu c).ctl = { (s.clu c).ctl with trap := some ⟨cause, n, 0, 1, false, len⟩, aaddr := none }

/-- For every instruction of a stream that is well formed for a unit in a mode, with every operand at every value that its
encoding admits, the decoder of that unit in that mode reads the instruction back from its word. -/
def Obligations.DecodeOfEncode : Prop :=
  ∀ (u : UnitKind) (m : Mode) (i : Instr), i.isEvent = false → wellFormed u m i = true → decode u m (encode i) = .ok i

/-- Every instruction that a unit's decoder reads from a word, in any mode, is an instruction of a stream and is well formed
for that unit and mode. -/
def Obligations.DecodedIsWellFormed : Prop :=
  ∀ (u : UnitKind) (m : Mode) (w : Word) (i : Instr), decode u m w = .ok i → wellFormed u m i = true ∧ i.isEvent = false

/-- In every unit and mode a word whose low halfword is zero, and the word of all ones, decode to no instruction, with a
detail that is one of the illegal-instruction cause (not 1, which is that of the reserved-instruction cause). (R51) -/
def Obligations.BlankMemoryIsIllegal : Prop :=
  (∀ (u : UnitKind) (m : Mode) (w : Word), w.truncate 16 = (0 : Half) → ∃ n, n ≠ 1 ∧ decode u m w = .error n)
    ∧ (∀ (u : UnitKind) (m : Mode), ∃ n, n ≠ 1 ∧ decode u m 0xFFFFFFFF = .error n)

/-- One word of each family, put together from the encoding tables field by field, decodes to the instruction that it stands
for. -/
def Obligations.DecodesWords : Prop :=
  decode .A .user (0#1 ++ 1#1 ++ 0b0001#4 ++ 5#6 ++ 4#6 ++ 3#6 ++ 0#1 ++ 0x00#6 ++ 1#1) = .ok (.add 1 1 5 4 3 0)
    ∧ decode .C .user (0b10#2 ++ 0b0001#4 ++ 7#6 ++ 6#6 ++ 5#6 ++ 0#1 ++ 0x03#6 ++ 1#1) = .ok (.mulh 2 1 7 6 5 0)
    ∧ decode .A .user ((3#6 ++ 4#5 ++ 1#4 ++ 0#1).zeroExtend 32) = .ok (.add16 3 4)
    ∧ decode .A .user (0x1234#16 ++ 0b01#2 ++ 9#6 ++ 0x30#7 ++ 1#1) = .ok (.addImm 0x1234 9)
    ∧ decode .A .user (0b10#2 ++ 0b0001#4 ++ 7#6 ++ 6#6 ++ 4#3 ++ 2#3 ++ 0#1 ++ 0x13#6 ++ 1#1) = .ok (.icmp 2 1 7 6 4 2 0)
    ∧ decode .A .user (0xF#4 ++ 0#1 ++ 0#2 ++ 1#2 ++ 5#3 ++ 7#6 ++ 8#6 ++ 0x3A#7 ++ 1#1) = .ok (.ld 15 0 1 5 7 8)
    ∧ decode .A .user (0#3 ++ 1#2 ++ 3#2 ++ 2#5 ++ 7#6 ++ 8#6 ++ 0x3C#7 ++ 1#1) = .ok (.atomAdd 1 3 2 7 8)
    ∧ decode .M .user (0x3FFFE#18 ++ 0#1 ++ 5#3 ++ 2#2 ++ 0x36#7 ++ 1#1) = .ok (.brc 0x3FFFE 0 5 2)

/-- Where the current unit cannot issue (its slot is not in use, its launch has not reached its start, it is pre-empted,
stopped by a trap, waiting, or has no running fragment), every instruction of a stream leaves the state as it is. -/
def Obligations.NotRunnableWaits : Prop :=
  ∀ (i : Instr) (s : State), i.isEvent = false → s.runnable s.cur = false → exec i s = .next s

/-- In the a-slice, the c-slice and the controller an instruction of a stream that is not well formed for the unit that
issues it raises the lowest of the details that apply, as cause 2 for detail 1 and cause 1 otherwise (in the c-slice beside a
handler as cause 16, by row 16 of R124 with R207 and step 1 of R204), and apart from the raised trap no register, mask,
queue, memory or join state changes. -/
def Obligations.DecodeFaultPrecise : Prop :=
  ∀ (i : Instr) (s : State) (n : Nat), i.isEvent = false → s.runnable s.cur = true → s.decodeFault i = some n →
    let cause := if n = 1 then 2 else 1
    n ∈ WellFormed.faults s.cur.kind (s.mode s.cur) i ∧ (∀ m ∈ WellFormed.faults s.cur.kind (s.mode s.cur) i, n ≤ m) ∧
    match s.cur with
    | .a g => exec i s = .next (s.modGang g fun x => { x with
        trapA := some ⟨cause, n, 0, s.active (.a g), false, i.size⟩, stopA := true, since := 0 })
    | .c g => exec i s = .next (s.modGang g fun x => { x with
        trapC := some ⟨if x.mode = .user then cause else 16, n, 0, s.active (.c g), false, i.size⟩, stopC := true, since := 0 })
    | .m c => exec i s = .next (s.modCtl c fun x => { x with trap := some ⟨cause, n, 0, 1, false, i.size⟩, aaddr := none })

/-- In supervisor and firmware mode a well-formed lane operation of the a-slice with a queue source or a queue in its sink,
the loads and stores that name an inter-slice queue, and the branches, joins, ends and queue instructions that R207 lists,
raise cause 1 and change nothing else; that the detail is 4, and that the details of decoding come before it, is the model's
choice of log entry 37, since R207 and R79 name no detail for them. -/
def Obligations.HandlerRestrictions : Prop :=
  ∀ (i : Instr) (s : State) (g : GangId), i.isEvent = false → s.cur = .a g → s.runnable (.a g) = true → s.decodeFault i = none →
    (s.gang g).mode ≠ .user →
    ((∃ f, i.laneForm .A = some f ∧ (f.q = 1 ∨ f.sk.getLsbD 1 = true ∨ f.sk.getLsbD 2 = true ∨ f.sk.getLsbD 3 = true))
      ∨ i = .rejoin ∨ i = .exit ∨ i = .region ∨ i = .gsync ∨ i = .mwait ∨ (∃ o k, i = .brv o k) ∨ (∃ a, i = .gsyncMask a)
      ∨ (∃ q d, i = .qpeek q d) ∨ (∃ q d, i = .qcount q d) ∨ (∃ q, i = .qdrain q) ∨ (∃ o, i = .bra o 1) ∨ (∃ o, i = .call o 1)
      ∨ (∃ o k c, i = .brc o 1 k c) ∨ (∃ b a, i = .jmpi b a 1)
      ∨ ∃ o p z a d, i = .ld o 1 p z a d ∨ i = .ldFe o 1 p z a d ∨ i = .ldFec o 1 p z a d ∨ i = .st o 1 p z a d ∨ i = .stFe o 1 p z a d) →
    exec i s = .next (s.modGang g fun x => { x with
      trapA := some ⟨1, 4, 0, s.active (.a g), false, i.size⟩, stopA := true, since := 0 })

/-- A well-formed instruction that must wait for a queue entry, for room in a queue, under the slip limit, for the store
hold, or for a register or an access of its own, leaves the whole state as it is. -/
def Obligations.StallChangesNothing : Prop :=
  ∀ (i : Instr) (s : State), i.isEvent = false → s.decodeFault i = none → supervisorIllegal s.cur (s.mode s.cur) i = false →
    (stallOf s s.cur i).isSome = true → exec i s = .next s

/-- In a unit that can issue, a well-formed lane operation of a slice whose value source is a queue with fewer entries than
it pops, or whose sink names a queue with less room than it pushes, changes nothing. -/
def Obligations.QueueSourceStalls : Prop :=
  ∀ (i : Instr) (s : State) (f : LaneForm), i.isEvent = false → i.laneForm s.cur.kind = some f → s.cur.kind ≠ .M →
    s.decodeFault i = none → supervisorIllegal s.cur (s.mode s.cur) i = false →
    ((f.q = 1 ∧ f.masky = false ∧ (((s.gangOf s.cur).readQueue s.cur.kind f.a.toNat).length < f.pops))
      ∨ (f.q = 1 ∧ f.masky = true ∧ (s.gangOf s.cur).dq = [])
      ∨ (∃ b, 1 ≤ b ∧ b ≤ 3 ∧ f.sk.getLsbD b = true ∧ (s.gangOf s.cur).room s.cur.kind b < f.pushes)) →
    exec i s = .next s

/-- A well-formed mask instruction of the c-slice that takes its mask from dq and meets a record that is no mask record, with
nothing else holding it, raises cause 3, or cause 16 beside a handler, with the record's kind as detail, and the record stays
at the head of dq. -/
def Obligations.KopMisuse : Prop :=
  ∀ (i : Instr) (s : State) (g : GangId) (f : LaneForm) (r : DRec) (rs : List DRec), i.isEvent = false → s.cur = .c g → s.runnable (.c g) = true →
    s.decodeFault i = none → stallOf s (.c g) i = none → i.laneForm .C = some f → f.q = 1 → f.masky = true →
    (s.gang g).dq = r :: rs → r.kind ≠ 3 →
    ∃ t, exec i s = .next t ∧ (t.gang g).dq = r :: rs ∧ (t.gang g).stopC = true ∧ (t.gang g).kc = (s.gang g).kc
      ∧ (t.gang g).cpc = (s.gang g).cpc ∧ (∃ x, (t.gang g).trapC = some x ∧ x.cause = (if (s.gang g).mode = .user then 3 else 16) ∧ x.detail = r.kind)

/-- A lane operation of the a-slice that would issue but for an active lane one of whose sources holds a poison mark (field
a, a register or a queue entry, in the lane that a shuffle takes it from; field b; or the register d that mad, bfi and fma
read), in a gang with no region open, raises cause 10 with detail 0 and changes neither registers nor the program counter. -/
def Obligations.PoisonTraps : Prop :=
  ∀ (i : Instr) (s : State) (g : GangId) (f : LaneForm) (n : Nat), i.isEvent = false → s.cur = .a g → s.runnable (.a g) = true →
    s.decodeFault i = none → supervisorIllegal (.a g) (s.gang g).mode i = false → stallOf s (.a g) i = none →
    kopMisuse s (.a g) i = none → i.laneForm .A = some f → (s.gang g).region = none → n < 32 → (s.active (.a g)).getLsbD n = true → ((f.readB s (.a g) n).poison = true ∨ (f.readD s (.a g) n).poison = true
      ∨ (f.readA s (.a g) (sourceLane i (fun m => (f.readB s (.a g) m).bits) n)).poison = true) →
    ∃ t, exec i s = .next t ∧ (t.gang g).a = (s.gang g).a ∧ (t.gang g).s = (s.gang g).s ∧ (t.gang g).apc = (s.gang g).apc
      ∧ t.mem = s.mem ∧ (∃ x, (t.gang g).trapA = some x ∧ x.cause = 10 ∧ x.detail = 0)

/-- Where the next two comparisons differ, an instruction that would otherwise issue in an a-slice, in a c-slice in checked
mode or in a controller raises cause 11 (in a c-slice beside a handler cause 16, by row 16 of R124 with R207 and step 1 of
R204) with no register, mask or byte of memory written and the program counter where it was; the mismatch count of its core
rises by one and the core's flagged and full bits are set. That the core is core 0 of the cluster for a controller, and that
the count rises here too, is the model's choice (log entry 5). With one that differs the repeat agrees and every instruction
does what it does in the state with the count one higher and no difference to come (in which it issues too). A c-slice that
is not in checked mode compares nothing: every instruction that issues there answers a next state with the differences still
to come and no mismatch counted in any core. -/
def Obligations.SecondMismatchTraps : Prop :=
  ∀ (i : Instr) (s : State), i.isEvent = false → issues i { s with glitch := 0 } = true →
    let t1 : State := { s.modCore (UnitCore s.cur) fun x => { x with mism := x.mism + 1 } with glitch := 0 }
    (s.compared s.cur = true → 2 ≤ s.glitch → ∃ t, exec i s = .next t ∧ t.mem = s.mem ∧ t.pc s.cur = s.pc s.cur ∧ s.sameRegs t
      ∧ (t.core (UnitCore s.cur)).mism = (s.core (UnitCore s.cur)).mism + 1 ∧ (t.core (UnitCore s.cur)).flagged = true
      ∧ (t.core (UnitCore s.cur)).full = true
      ∧ match s.cur with
        | .a g => ∃ x, (t.gang g).trapA = some x ∧ x.cause = 11
        | .c g => ∃ x, (t.gang g).trapC = some x ∧ x.cause = if (s.gang g).mode = .user then 11 else 16
        | .m c => ∃ x, (t.clu c).ctl.trap = some x ∧ x.cause = 11)
    ∧ (s.compared s.cur = true → s.glitch = 1 → issues i t1 = true → exec i s = exec i t1)
    ∧ (∀ g, s.cur = .a g → s.compared s.cur = true)
    ∧ (∀ g, s.cur = .c g → s.compared s.cur = (s.gang g).checked)
    ∧ (s.compared s.cur = false → ∃ t, exec i s = .next t ∧ t.glitch = s.glitch ∧ ∀ c, (t.core c).mism = (s.core c).mism)

/-- A nop that issues moves its unit's program counter 4 bytes on; no register, mask, queue, lane, memory or other unit
changes, and it waits for nothing in the other slice. (R184) -/
def Obligations.NopAdvances : Prop :=
  ∀ (s : State), issues .nop s = true → ∃ t, exec .nop s = .next t ∧ t.pc t.cur = s.pc s.cur + 4 ∧ s.sameButData t s.cur
    ∧ (match s.cur with
        | .a g => t.gang g = { s.gang g with apc := (s.gang g).apc + 4, ran := (t.gang g).ran, since := (t.gang g).since, lossSeen := (t.gang g).lossSeen }
        | .c g => t.gang g = { s.gang g with cpc := (s.gang g).cpc + 4, since := (t.gang g).since }
        | .m c => t.clu c = { s.clu c with ctl := { (s.clu c).ctl with pc := (s.clu c).ctl.pc + 4 } })

/-- For every form of add, sub, mul, mulh, mad, and, or, xor, shl, shr, sar, rol, ror, min and max and every unit that has
it, when it issues it answers the state in which its queue source is popped, each active lane's result, given in integer
arithmetic modulo 2 to the width, is delivered to every consumer of its sink, and the program counter is moved on. -/
def Obligations.IntegerLaneResults : Prop :=
  ∀ (i : Instr) (s : State) (lf : LaneForm) (r : LaneEnv → Nat → DWord), integerRule i = some r → issues i s = true →
    i.laneForm s.cur.kind = some lf →
    let t := s.countIssue s.cur
    exec i s = .next ((lf.deliver (lf.pop t t.cur) t.cur (s.active s.cur) (r (lf.env t t.cur))).advance i)

/-- When div or rem issues in any form it completes, with the quotient rounded toward zero and the remainder of the sign of
a; a zero divisor gives the all-ones quotient and the remainder a, and the most negative number divided by minus one gives
itself with remainder 0. -/
def Obligations.DivisionLaneResults : Prop :=
  ∀ (i : Instr) (s : State) (lf : LaneForm) (r : LaneEnv → Nat → DWord), divisionRule i = some r → issues i s = true →
    i.laneForm s.cur.kind = some lf →
    let t := s.countIssue s.cur
    exec i s = .next ((lf.deliver (lf.pop t t.cur) t.cur (s.active s.cur) (r (lf.env t t.cur))).advance i)

/-- When abs, neg, not, clz, popc, brev, bfx, bfi or lea issues in any form it completes, with the result that R141 to R143
give in integer arithmetic: counts of leading zero and of set bits, reversed bits, a field of position b[5:0] and length
b[13:8] cut at the width, and a plus b scaled by a power of two. -/
def Obligations.BitLaneResults : Prop :=
  ∀ (i : Instr) (s : State) (lf : LaneForm) (r : LaneEnv → Nat → DWord), bitRule i = some r → issues i s = true →
    i.laneForm s.cur.kind = some lf →
    let t := s.countIssue s.cur
    exec i s = .next ((lf.deliver (lf.pop t t.cur) t.cur (s.active s.cur) (r (lf.env t t.cur))).advance i)

/-- When a 16-bit integer instruction (mov, add, sub, mul, and, or, xor, shl, shr, sar, min, max) or an integer instruction
of the immediate format (mov, add, mul, and, or, xor, shl, shr, sar, min, max, movh) issues, it completes, with the result of
the operation at the unit's natural width written to d in every active lane and the program counter moved on. When the 16-bit
fadd, fsub, fmul or fmax, or fmov, fadd, fmul or fmax with an FP16 immediate issues, it completes so too, with the result in
the unit's floating format, the immediate widened exactly. -/
def Obligations.ShortFormResults : Prop :=
  (∀ (i : Instr) (s : State) (ty : Ty) (d : Nat) (r : (Nat → DWord) → DWord), shortRule s.cur.kind i = some (ty, d, r) → issues i s = true →
    let t := s.countIssue s.cur
    exec i s = .next ((t.writeReg t.cur ty d (s.active s.cur) fun n => r fun c => (s.readReg s.cur ty c n).bits).advance i))
  ∧ (∀ (i : Instr) (s : State) (d : Nat) (r : (Nat → DWord) → DWord), shortFloatRule s.cur.kind i = some (d, r) → issues i s = true →
    let t := s.countIssue s.cur
    exec i s = .next ((t.writeReg t.cur s.cur.kind.floating d (s.active s.cur)
      fun n => r fun c => (s.readReg s.cur s.cur.kind.floating c n).bits).advance i))

/-- When fadd, fsub, fmul, fma, fdiv, fmin, fmax, fminn, fmaxn, fsqrt, frcp, frsq, fexp2, flog2, fabs, fneg, the four
directed forms or a conversion with any rounding issues in any form, it completes, with the result of its format's operation
rounded as the instruction says (directed forms in FP32 in the c-slice and FP64 in the a-slice; fabs clears and fneg inverts
the sign bit alone), its queue source popped and its program counter moved on. fmin, fmax, fminn and fmaxn follow the order
of R23 and the NaN rules of R150, and a conversion R25 to R27. What the exact results are, how they round and what the
approximations may give is FloatNaN's, FloatRounding's and ApproximationBounds'. -/
def Obligations.FloatLaneResults : Prop :=
  ∀ (i : Instr) (s : State) (lf : LaneForm) (r : LaneEnv → Nat → DWord), floatRule s.cur.kind i = some r → issues i s = true →
    i.laneForm s.cur.kind = some lf →
    let t := s.countIssue s.cur
    exec i s = .next ((lf.deliver (lf.pop t t.cur) t.cur (s.active s.cur) (r (lf.env t t.cur))).advance i)

/-- In each lane format fsqrt gives the root rounded by its mode, and the canonical NaN below zero. Within one ulp at the
exact result frcp gives the reciprocal and frsq that of the root; within two ulps fexp2 gives the power of two and flog2 the
logarithm, fexp2 exactly for an integer whose result is representable and flog2 for a power of two; beyond the range the
result is the infinity of its sign. A NaN gives the canonical NaN, and infinities, zeros and negative numbers what the table
of R28 gives. In FP16 and BF16 frcp and frsq give the exact result rounded once, and fexp2 and flog2 a value within half an
ulp and a millionth part of one. Which value within the bound the FP32 and FP64 forms give is free (log entry 7). -/
def Obligations.ApproximationBounds : Prop :=
  ∀ (t : Ty) (r : Rnd) (a : DWord), t ∈ [Ty.f32, .f64, .f16, .bf16] →
    let F := Fmt.ofTy t
    let v := floatOf t a
    let x : ℝ := (v.toRat : ℝ)
    let neg := F.neg (unsignedOf t a)
    let top : ℝ := ((F.value F.maxFinite).toRat : ℝ)
    let bits (y : Nat) : DWord := BitVec.ofNat 64 y
    let nan := quietNaN t
    let inf (n : Bool) : DWord := bits (F.signed n F.infBits)
    let zero (n : Bool) : DWord := bits (F.signed n 0)
    let short := t = .f16 ∨ t = .bf16
    (v = .nan → aluFsqrt t r a = nan ∧ aluFrcp t a = nan ∧ aluFrsq t a = nan ∧ aluFexp2 t a = nan ∧ aluFlog2 t a = nan)
    ∧ (v = .inf false → aluFsqrt t r a = inf false ∧ aluFrcp t a = zero false ∧ aluFrsq t a = zero false ∧ aluFexp2 t a = inf false
      ∧ aluFlog2 t a = inf false)
    ∧ (v = .inf true → aluFsqrt t r a = nan ∧ aluFrcp t a = zero true ∧ aluFrsq t a = nan ∧ aluFexp2 t a = zero false ∧ aluFlog2 t a = nan)
    ∧ (v.finite = true → v.toRat = 0 → aluFsqrt t r a = zero neg ∧ aluFrcp t a = inf neg ∧ aluFrsq t a = inf neg ∧ aluFlog2 t a = inf true)
    ∧ (v.finite = true → v.toRat < 0 → aluFsqrt t r a = nan ∧ aluFrsq t a = nan ∧ aluFlog2 t a = nan)
    ∧ (v.finite = true → v.toRat ≠ 0 → ∃ y, aluFrcp t a = bits y ∧ F.Bounded 1 (1 / x) y ∧ (short → |1 / x| ≤ top → F.RoundsTo .rne (1 / x) y))
    ∧ (v.finite = true → 0 < v.toRat → (∃ y, aluFsqrt t r a = bits y ∧ F.RoundsTo r (Real.sqrt x) y)
      ∧ (∃ y, aluFrsq t a = bits y ∧ F.Bounded 1 (1 / Real.sqrt x) y ∧ (short → |1 / Real.sqrt x| ≤ top → F.RoundsTo .rne (1 / Real.sqrt x) y))
      ∧ (∃ y, aluFlog2 t a = bits y ∧ F.Bounded (if short then 1 / 2 + 1 / 2 ^ 20 else 2) (Real.logb 2 x) y
        ∧ ∀ n : ℤ, v.toRat = 2 ^ n → (F.value y).finite = true ∧ (F.value y).toRat = n ∧ (n = 0 → y = 0)))
    ∧ (v.finite = true → ∃ y, aluFexp2 t a = bits y ∧ F.Bounded (if short then 1 / 2 + 1 / 2 ^ 20 else 2) ((2 : ℝ) ^ x) y
      ∧ ∀ n : ℤ, v.toRat = n → 1 - (F.bias : ℤ) - F.fw ≤ n → n ≤ F.bias → (F.value y).finite = true ∧ (F.value y).toRat = 2 ^ n)

/-- When icmp, fcmp, kand, kandn, kor, kxor, knot, kmov, vote.all, vote.any or kset issues in any form, it completes with the
mask that has bit n of lane n's result for an active lane and 0 elsewhere, delivered to its sink, and the program counter
moved on; comparisons of integers are those of their values, signed or unsigned as the type says, and those of floating
numbers those of R144, with the order of R23 and no order where either is a NaN. -/
def Obligations.MaskResults : Prop :=
  ∀ (i : Instr) (s : State) (lf : LaneForm) (r : LaneEnv → Nat → Bool), maskRule i = some r → issues i s = true →
    i.laneForm s.cur.kind = some lf →
    let t := s.countIssue s.cur
    ∃ p : Word, (∀ n, n < 32 → p.getLsbD n = ((s.active s.cur).getLsbD n && r (lf.env t t.cur) n))
      ∧ exec i s = .next ((lf.deliverMask (lf.pop t t.cur) t.cur (s.active s.cur) p).advance i)

/-- When sel, ballot, a shuffle, a rotation, bcast, gred, a scan, tspk, tsupk or tssc issues in any form, it completes: a
shuffle gives lane n the value of its source lane as that lane stands whether active or not, a reduction or scan combines the
active lanes in ascending order, by the operations of R157 (integers by their rules, floating sums rounded once by rne,
minimum and maximum as fmin and fmax), and an exclusive scan begins with the identity of R157's table; tspk encodes the block
of R34 to R36, tsupk decodes by R30, R31 and R37, and tssc steps the exponent; the results go to the sink with the queue
source popped. -/
def Obligations.CrossLaneResults : Prop :=
  ∀ (i : Instr) (s : State) (lf : LaneForm) (r : LaneEnv → Nat → DWord), crossRule i = some r → issues i s = true →
    i.laneForm s.cur.kind = some lf →
    let t := s.countIssue s.cur
    ∃ r' : Nat → DWord, (∀ n, n < 32 → r' n = r (lf.env t t.cur) n)
      ∧ exec i s = .next ((lf.deliver (lf.pop t t.cur) t.cur (s.active s.cur) r').advance i)

/-- For every lane operation, 16-bit form and immediate form of every unit that issues, exec answers a next state: the
program counter is moved past it; every byte of memory, every other gang, core, cluster, die and package, every message and
access in flight, and every field of the unit but its registers, masks, queues, program counter and issue counts is as
before; and every register code but d (and for a 64-bit result of the c-slice d + 1) reads as before, and every mask where
the result is no mask. -/
def Obligations.LaneOperationFrame : Prop :=
  ∀ (i : Instr) (s : State), issues i s = true →
    ((i.laneForm s.cur.kind).isSome = true ∨ (shortRule s.cur.kind i).isSome = true ∨ (shortFloatRule s.cur.kind i).isSome = true) →
    ∃ t, exec i s = .next t ∧ s.sameButData t s.cur ∧ t.pc s.cur = s.pc s.cur + BitVec.ofNat 57 i.size
      ∧ (∀ k, t.readByte k = s.readByte k)
      ∧ (∀ lf, i.laneForm s.cur.kind = some lf → ∀ c n,
          (c ≠ lf.d.toNat ∧ (s.cur.kind = .C → lf.res.wide = true → c ≠ lf.d.toNat + 1) ∨ lf.dOp = .mask) → t.readReg s.cur .b32 c n = s.readReg s.cur .b32 c n)
      ∧ (∀ ty d r, shortRule s.cur.kind i = some (ty, d, r) → ∀ c n, c ≠ d → t.readReg s.cur .b32 c n = s.readReg s.cur .b32 c n)
      ∧ (∀ k, (∀ lf, i.laneForm s.cur.kind = some lf → lf.dOp ≠ .mask ∨ k ≠ lf.d.toNat % 8) → t.readMask s.cur k = s.readMask s.cur k)

/-- A result of a type written in the lanes of a mask reads back in each such lane extended by its type to 64 bits in an a
register and in the controller, and in the c-slice as its low 32 bits with the high 32 bits of a 64-bit type in the next
register; a lane outside the mask reads as before, with its poison mark. In a controller that is not in user mode codes below
24 and above 27 take the result, m24 takes its skip bit 16 alone and keeps its low 16 bits, and m25 to m27 stay as they are
(R293). In the a-slice and the controller the 64 bits that a result is extended to are its value, sign-extended for a signed
integer type and zero-extended for every other type. -/
def Obligations.RegisterWrite : Prop :=
  ∀ (s : State) (t : Ty) (code : Nat) (act : Word) (f : Nat → DWord) (n : Nat), n < 32 →
    (∀ g, code < 48 → (s.writeReg (.a g) t code act f).readReg (.a g) .b64 code n
        = if act.getLsbD n then ⟨extendResult .A t (f n), false⟩ else s.readReg (.a g) .b64 code n)
    ∧ (∀ g, t.wide = true → code < 64 → (s.writeReg (.c g) t code act f).readReg (.c g) .b64 code n
        = if act.getLsbD n then ⟨f n, false⟩ else s.readReg (.c g) .b64 code n)
    ∧ (∀ g, t.wide = false → (s.writeReg (.c g) t code act f).readReg (.c g) .b32 code n
        = if act.getLsbD n then ⟨((extendResult .C t (f n)).truncate 32).zeroExtend 64, false⟩ else s.readReg (.c g) .b32 code n)
    ∧ (∀ c, (s.clu c).ctl.mode = .user ∨ code < 24 ∨ 28 ≤ code → act = 1 →
        (s.writeReg (.m c) t code act f).readReg (.m c) .b64 code n = ⟨extendResult .M t (f 0), false⟩)
    ∧ (∀ c, (s.clu c).ctl.mode ≠ .user → act = 1 →
        ((s.writeReg (.m c) t 24 act f).readReg (.m c) .b64 24 n).bits
            = ((s.readReg (.m c) .b64 24 n).bits &&& 0xFFFF) ||| (extendResult .M t (f 0) &&& 0x10000)
          ∧ (24 < code → code < 28 → s.writeReg (.m c) t code act f = s.modCtl c fun x => x))
    ∧ extendResult .A t (f n) = BitVec.ofInt 64 (if t.signed then signedOf t (f n) else (unsignedOf t (f n) : Int))
    ∧ extendResult .M t (f n) = extendResult .A t (f n)

/-- If an a-slice instruction writes a uniform register, the register then reads in every lane the result of the
lowest-numbered active lane; if no lane is active it is unchanged. (R56) -/
def Obligations.UniformRegisterWrite : Prop :=
  ∀ (s : State) (g : GangId) (t : Ty) (code : Nat) (act : Word) (f : Nat → DWord) (n : Nat), 48 ≤ code →
    (∀ l, l < 32 → act.getLsbD l = true → (∀ m, m < l → act.getLsbD m = false) →
      (s.writeReg (.a g) t code act f).readReg (.a g) .b64 code n = ⟨extendResult .A t (f l), false⟩)
    ∧ (act = 0 → s.writeReg (.a g) t code act f = s.modGang g fun x => x)

/-- A lane operation's value result delivered in the a-slice appends to lq0 and lq1 where sink bits 1 and 2 name them, and in
the c-slice to sq0, sq1 and fq where sink bits 1, 2 and 3 name them: one entry for a result of at most 32 bits, which holds
it extended by its type to 32 bits, and two for a 64-bit one, low word first, each with the active lanes as its valid bits
and zero in inactive lanes; a queue that is not named is unchanged, and with sink bit 0 clear no register is written. -/
def Obligations.SinkDelivery : Prop :=
  ∀ (lf : LaneForm) (s : State) (g : GangId) (act : Word) (r : Nat → DWord),
    let t := lf.deliver s (.a g) act r
    let y := lf.deliver s (.c g) act r
    let pushed (es : List QEntry) : Prop := es.length = (if lf.res.wide then 2 else 1) ∧ (∀ e ∈ es, e.valid = act)
      ∧ (∀ n, n < 32 → act.getLsbD n = true → es.map (fun e => e.word n)
          = if lf.res.wide then [⟨(r n).extractLsb' 0 32, false⟩, ⟨(r n).extractLsb' 32 32, false⟩]
            else [⟨BitVec.ofInt 32 (if lf.res.signed then signedOf lf.res (r n) else (unsignedOf lf.res (r n) : Int)), false⟩])
      ∧ (∀ n, act.getLsbD n = false → ∀ e ∈ es, e.word n = {})
    let appended (before after : List QEntry) (b : Nat) : Prop :=
      (lf.sk.getLsbD b = false → after = before) ∧ (lf.sk.getLsbD b = true → ∃ es, after = before ++ es ∧ pushed es)
    (∀ b, b = 1 ∨ b = 2 → appended (tget (b - 1) [] (s.gang g).lq) (tget (b - 1) [] (t.gang g).lq) b
        ∧ appended (tget (b - 1) [] (s.gang g).sq) (tget (b - 1) [] (y.gang g).sq) b)
    ∧ appended (s.gang g).fq (y.gang g).fq 3
    ∧ ((t.gang g).sq = (s.gang g).sq ∧ (t.gang g).fq = (s.gang g).fq ∧ (y.gang g).lq = (s.gang g).lq)
    ∧ (lf.sk.getLsbD 0 = false → (t.gang g).a = (s.gang g).a ∧ (t.gang g).s = (s.gang g).s ∧ (t.gang g).sa = (s.gang g).sa ∧ (t.gang g).ss = (s.gang g).ss
        ∧ (y.gang g).v = (s.gang g).v)

/-- A mask result P delivered with sink bit 0, in either slice, gives kd the bits of P in active lanes and leaves its other
bits; with sink bit 3 in the a-slice one mask record with P is pushed on dq, in the c-slice one entry on fq whose every
lane's word is P and whose every valid bit is set, and with the bit clear the queue is unchanged. -/
def Obligations.MaskMerge : Prop :=
  ∀ (lf : LaneForm) (s : State) (g : GangId) (act p : Word) (n : Nat), n < 32 → (∀ m, m < 32 → act.getLsbD m = false → p.getLsbD m = false) →
    let t := lf.deliverMask s (.a g) act p
    (lf.sk.getLsbD 0 = true → (t.readMask (.a g) (lf.d.toNat % 8)).getLsbD n
        = if act.getLsbD n then p.getLsbD n else (s.readMask (.a g) (lf.d.toNat % 8)).getLsbD n)
    ∧ (lf.sk.getLsbD 0 = false → t.readMask (.a g) (lf.d.toNat % 8) = s.readMask (.a g) (lf.d.toNat % 8))
    ∧ (lf.sk.getLsbD 3 = false → (t.gang g).dq = (s.gang g).dq)
    ∧ (lf.sk.getLsbD 3 = true → (s.gang g).dqNext = [] → (s.gang g).dq.length < (s.gang g).slip →
        (t.gang g).dq = (s.gang g).dq ++ [⟨3, p.zeroExtend 64⟩])
    ∧ let y := lf.deliverMask s (.c g) act p
      (lf.sk.getLsbD 0 = true → (y.readMask (.c g) (lf.d.toNat % 8)).getLsbD n
          = if act.getLsbD n then p.getLsbD n else (s.readMask (.c g) (lf.d.toNat % 8)).getLsbD n)
      ∧ (lf.sk.getLsbD 0 = false → y.readMask (.c g) (lf.d.toNat % 8) = s.readMask (.c g) (lf.d.toNat % 8))
      ∧ (lf.sk.getLsbD 3 = false → (y.gang g).fq = (s.gang g).fq)
      ∧ (lf.sk.getLsbD 3 = true → ∃ e, (y.gang g).fq = (s.gang g).fq ++ [e] ∧ e.valid = BitVec.allOnes 32 ∧ e.word n = ⟨p, false⟩)
      ∧ (y.gang g).dq = (s.gang g).dq

/-- In each of the lane formats FP32, FP64, FP16 and BF16 a NaN operand of addition, subtraction, multiplication, division or
fma gives the format's canonical quiet NaN whatever the rounding and the other operands. With finite operands each gives the
exact real result rounded once (FloatRounding says what that rounding is), with the sign of the exact result; an exact zero
sum of operands of opposite sign is +0, but -0 under rdn, and one of operands of the same sign keeps it; a product or
quotient has the exclusive or of the signs, zeros included. An infinite operand gives what IEEE 754 gives: the sum or
difference is that infinity, or the NaN for infinity minus infinity; the product is infinite, or the NaN for zero times
infinity; infinity over a finite number is infinite, a finite number over infinity zero, infinity over infinity and zero over
zero the NaN, and another number over zero infinite; fma joins the product's and the sum's rules. -/
def Obligations.FloatNaN : Prop :=
  ∀ (t : Ty) (r : Rnd) (a b c : DWord), t ∈ [Ty.f32, .f64, .f16, .bf16] →
    let F := Fmt.ofTy t
    let va := F.value (lowBits t a)
    let vb := F.value (lowBits t b)
    let vc := F.value (lowBits t c)
    let na := F.neg (lowBits t a)
    let nb := F.neg (lowBits t b)
    let rounded (v : ℚ) (zero : Bool) (w : DWord) : Prop :=
      (v = 0 → w = BitVec.ofNat 64 (F.signed zero 0))
      ∧ (v ≠ 0 → ∃ (num den : Nat) (x : ℤ), 0 < den ∧ |v| = (num : ℚ) / den * 2 ^ x ∧ w = BitVec.ofNat 64 (F.round r (decide (v < 0)) num den x))
    (va = .nan ∨ vb = .nan → aluFadd t r a b = BitVec.ofNat 64 F.nan ∧ aluFsub t r a b = BitVec.ofNat 64 F.nan
      ∧ aluFmul t r a b = BitVec.ofNat 64 F.nan ∧ aluFdiv t a b = BitVec.ofNat 64 F.nan)
    ∧ (va = .nan ∨ vb = .nan ∨ vc = .nan → aluFma t r a b c = BitVec.ofNat 64 F.nan)
    ∧ (va.finite = true → vb.finite = true →
        rounded (va.toRat + vb.toRat) (if na = nb then na else decide (r = .rdn)) (aluFadd t r a b)
        ∧ rounded (va.toRat - vb.toRat) (if na = !nb then na else decide (r = .rdn)) (aluFsub t r a b)
        ∧ rounded (va.toRat * vb.toRat) (na != nb) (aluFmul t r a b)
        ∧ (vb.toRat ≠ 0 → r = .rne → rounded (va.toRat / vb.toRat) (na != nb) (aluFdiv t a b))
        ∧ (vc.finite = true → rounded (va.toRat * vb.toRat + vc.toRat)
            (if (na != nb) = F.neg (lowBits t c) then na != nb else decide (r = .rdn)) (aluFma t r a b c)))
    ∧ (let nan : DWord := BitVec.ofNat 64 F.nan
      let inf (n : Bool) : DWord := BitVec.ofNat 64 (F.signed n F.infBits)
      let zero (n : Bool) : DWord := BitVec.ofNat 64 (F.signed n 0)
      (va = .inf na → vb.finite = true → aluFadd t r a b = inf na ∧ aluFsub t r a b = inf na ∧ aluFdiv t a b = inf (na != nb)
        ∧ aluFmul t r a b = if vb.toRat = 0 then nan else inf (na != nb))
      ∧ (va.finite = true → vb = .inf nb → aluFadd t r a b = inf nb ∧ aluFsub t r a b = inf (!nb) ∧ aluFdiv t a b = zero (na != nb)
        ∧ aluFmul t r a b = if va.toRat = 0 then nan else inf (na != nb))
      ∧ (va = .inf na → vb = .inf nb → aluFadd t r a b = (if na = nb then inf na else nan) ∧ aluFsub t r a b = (if na = nb then nan else inf na)
        ∧ aluFmul t r a b = inf (na != nb) ∧ aluFdiv t a b = nan)
      ∧ (va.finite = true → vb.finite = true → vb.toRat = 0 → aluFdiv t a b = if va.toRat = 0 then nan else inf (na != nb))
      ∧ (let zeroIn : Prop := va.finite = true ∧ va.toRat = 0 ∨ vb.finite = true ∧ vb.toRat = 0
        let infIn : Prop := va = .inf na ∨ vb = .inf nb
        (zeroIn → infIn → aluFma t r a b c = nan)
        ∧ (¬ zeroIn → infIn → va ≠ .nan → vb ≠ .nan → (vc.finite = true → aluFma t r a b c = inf (na != nb))
          ∧ ∀ nc, vc = .inf nc → aluFma t r a b c = if (na != nb) = nc then inf nc else nan))
      ∧ ∀ nc, va.finite = true → vb.finite = true → vc = .inf nc → aluFma t r a b c = inf nc)

/-- For every format, sign and exact positive magnitude num / den * 2^x: in the format's range the result is the finite value
that R19 names (the nearest one, of two equally near the one with an even last bit or the one away from zero; the nearest
toward zero; the least one not below; the greatest one not above), with the sign kept when it rounds to zero. Beyond the
range it is what the table of R25 gives (the two 8-bit formats saturate), the nearest roundings going to the infinity from
half of the last place above the largest finite value on. Every value of a format that is no NaN converts to itself. -/
def Obligations.FloatRounding : Prop :=
  ∀ (F : Fmt) (r : Rnd) (neg : Bool) (num den : Nat) (x : ℤ), F ∈ [Fmt.f32, .f64, .f16, .bf16, .e5m2, .e4m3] → 0 < num → 0 < den →
    let v : ℚ := (if neg then -1 else 1) * ((num : ℚ) / den * 2 ^ x)
    let y := F.round r neg num den x
    let top := (F.value F.maxFinite).toRat
    (|v| ≤ top → F.RoundsTo r (v : ℝ) y ∧ F.neg y = neg)
    ∧ (top < |v| → y = F.signed neg (
        if F = Fmt.e5m2 ∨ F = Fmt.e4m3 then F.maxFinite
        else match r with
          | .rne => if (2 : ℚ) ^ ((F.bias : ℤ) - F.fw - 1) ≤ |v| - top then F.infBits else F.maxFinite
          | .rna => if (2 : ℚ) ^ ((F.bias : ℤ) - F.fw - 1) ≤ |v| - top then F.infBits else F.maxFinite
          | .rz => F.maxFinite
          | .rup => if neg then F.maxFinite else F.infBits
          | .rdn => if neg then F.infBits else F.maxFinite))
    ∧ (∀ b, b < 2 ^ (F.sign + 1) → F.isNaN b = false → F.ofValue r (F.value b) = b)

/-- When bra, brc or call issues, its target is its own address plus twice its signed offset. In the a-slice a branch that is
not given up for a quantum yield sets the program counter to the target or, for brc not taken, past itself, and with p = 1
pushes one decision record with taken; brc tests the active lanes of its mask (any, all, none, not all) or in the controller
a scalar (not zero, zero, negative, not negative). A p = 1 branch that yields pushes no decision record. A call writes its
address plus 4 to s15 in the a-slice, to v62 and v63 in every lane of the fragment in the c-slice, and to m31 in the
controller. -/
def Obligations.UniformBranches : Prop :=
  ∀ (s : State) (o : BitVec 18) (p : BitVec 1) (k : BitVec 3) (c : BitVec 2),
    let u := s.cur
    let r := s.countIssue u
    let target := s.pc u + (o.signExtend 57 <<< 1)
    let next := s.pc u + 4
    let v := s.readMask u k.toNat &&& s.active u
    let any := (c = 0 ∧ v ≠ 0) ∨ (c = 1 ∧ v = s.active u) ∨ (c = 2 ∧ v = 0) ∨ (c = 3 ∧ v ≠ s.active u)
    (∀ g, u = .a g → p = 0 ∨ (r.gang g).yields = false →
      (issues (.bra o p) s = true → exec (.bra o p) s = .next (r.modGang g fun x => { x with
        apc := target, dq := x.dq ++ (if p = 1 then [⟨0, 1⟩] else []) }))
      ∧ (issues (.brc o p k c) s = true →
        (any → exec (.brc o p k c) s = .next (r.modGang g fun x => { x with
          apc := target, dq := x.dq ++ (if p = 1 then [⟨0, 1⟩] else []) }))
        ∧ (¬ any → exec (.brc o p k c) s = .next (r.modGang g fun x => { x with
          apc := next, dq := x.dq ++ (if p = 1 then [⟨0, 0⟩] else []) }))))
    ∧ (∀ g, u = .a g → p = 1 → (r.gang g).yields = true →
      (issues (.bra o p) s = true → ∃ t rs, exec (.bra o p) s = .next t
        ∧ (t.gang g).dq ++ (t.gang g).dqNext = (s.gang g).dq ++ rs ∧ ∀ x ∈ rs, x.kind ≠ 0)
      ∧ (issues (.brc o p k c) s = true → ∃ t rs, exec (.brc o p k c) s = .next t
        ∧ (t.gang g).dq ++ (t.gang g).dqNext = (s.gang g).dq ++ rs ∧ ∀ x ∈ rs, x.kind ≠ 0))
    ∧ (∀ g, u = .a g → issues (.call o p) s = true → ∃ t, exec (.call o p) s = .next t ∧ t.pc u = target
      ∧ (t.gang g).dq = (s.gang g).dq ++ (if p = 1 then [⟨0, 1⟩] else []) ∧ s.sameButData t u
      ∧ ∀ d n, t.readReg u .b64 d n = if d = 63 then ⟨next.zeroExtend 64, false⟩ else s.readReg u .b64 d n)
    ∧ ((∀ g, u ≠ .a g) → issues (.bra o p) s = true → exec (.bra o p) s = .next (r.setPc u target))
    ∧ (∀ m, u = .m m → issues (.brc o p k c) s = true →
      let x := (s.readReg u .b64 k.toNat 0).bits
      exec (.brc o p k c) s = .next (r.setPc u
        (if (c = 0 ∧ x ≠ 0) ∨ (c = 1 ∧ x = 0) ∨ (c = 2 ∧ x.toInt < 0) ∨ (c = 3 ∧ 0 ≤ x.toInt) then target else next)))
    ∧ (∀ g, u = .c g → issues (.call o p) s = true → ∃ t, exec (.call o p) s = .next t ∧ t.pc u = target ∧ s.sameButData t u
      ∧ (∀ d n, d ≠ 62 → d ≠ 63 → t.readReg u .b32 d n = s.readReg u .b32 d n)
      ∧ ∀ n, n < 32 → t.readReg u .b64 62 n = if (s.gang g).cfragMask.getLsbD n then ⟨next.zeroExtend 64, false⟩ else s.readReg u .b64 62 n)
    ∧ (∀ m, u = .m m → issues (.call o p) s = true → ∃ t, exec (.call o p) s = .next t ∧ t.pc u = target ∧ s.sameButData t u
      ∧ ∀ d, t.readReg u .b64 d 0 = if d = 31 then ⟨next.zeroExtend 64, false⟩ else s.readReg u .b64 d 0)

/-- When ret issues, the return register (s15 in the a-slice, v62 and v63 read in the leader lane in the c-slice, m31 in the
controller) gives the program counter by its bits 56 to 0. With any of bits 63 to 57 set it raises cause 9 with detail 6,
otherwise with bit 0 set cause 9 with detail 3; info is the value and nothing else changes. (R170) -/
def Obligations.ReturnTargets : Prop :=
  ∀ (s : State), issues .ret s = true →
    let u := s.cur
    let r := s.countIssue u
    let v := (s.readReg u .b64 (match u with | .a _ => 63 | .c _ => 62 | .m _ => 31) (s.leader u)).bits
    (v.extractLsb' 57 7 ≠ 0 → exec .ret s = .next (r.raise u ⟨9, 6, v, s.active u, false, 4⟩))
    ∧ (v.extractLsb' 57 7 = 0 → v.getLsbD 0 = true → exec .ret s = .next (r.raise u ⟨9, 3, v, s.active u, false, 4⟩))
    ∧ (v.extractLsb' 57 7 = 0 → v.getLsbD 0 = false → exec .ret s = .next (r.setPc u (v.extractLsb' 0 57)))

/-- When brv issues in the a-slice with a fragment running: if one of its sides is empty the branch is uniform, with one
decision record. Otherwise, with a free join record j and a free entry d other than the running one, the side with fewer
lanes (on a tie the one without the lowest lane) becomes ready in d with its own address and lanes, the running fragment
keeps the other side, j awaits the lanes of the fragment under the join it had, and one divergent record tells lanes, entry
and side. With no free entry the not-taken side is deferred in j. With no free join record it raises cause 13 and has pushed
nothing. -/
def Obligations.DivergentBranch : Prop :=
  ∀ (s : State) (g : GangId) (o : BitVec 18) (k : BitVec 3) (e : Nat), s.cur = .a g → issues (.brv o k) s = true →
    (s.gang g).cur = some e →
    let x := s.gang g
    let r := s.countIssue (.a g)
    let tk := s.active (.a g) &&& s.readMask (.a g) k.toNat
    let nt := s.active (.a g) &&& ~~~s.readMask (.a g) k.toNat
    let target := x.apc + (o.signExtend 57 <<< 1)
    let next := x.apc + 4
    (tk = 0 ∨ nt = 0 → exec (.brv o k) s = .next (r.modGang g fun y => { y with
        apc := if tk = 0 then next else target, dq := y.dq ++ [⟨0, if tk = 0 then 0 else 1⟩] }))
    ∧ (tk ≠ 0 → nt ≠ 0 → x.freeJoin = none →
      exec (.brv o k) s = .next (r.raise (.a g) ⟨13, 0, 0, s.active (.a g), false, 4⟩))
    ∧ (∀ j d, tk ≠ 0 → nt ≠ 0 → x.freeJoin = some j → x.freeFrag = some d → d ≠ e → ∃ t taken, exec (.brv o k) s = .next t
      ∧ (taken = true ↔ laneCount nt < laneCount tk
          ∨ laneCount nt = laneCount tk ∧ ∃ n, n < 32 ∧ tk.getLsbD n = true ∧ ∀ m, m < n → nt.getLsbD m = false)
      ∧ t.mem = s.mem
      ∧ let y := t.gang g
        let keep := if taken then tk else nt
        let side := if taken then nt else tk
        y.cur = some e ∧ y.apc = (if taken then target else next) ∧ y.exmA = x.exmA &&& keep
          ∧ (y.frag e).mask = (x.frag e).mask &&& ~~~side ∧ (y.frag e).join = j
          ∧ (y.frag d).state = .ready ∧ (y.frag d).mask = side ∧ (y.frag d).aexm = side ∧ (y.frag d).join = j
          ∧ (y.frag d).apc = (if taken then next else target)
          ∧ y.join j = { pending := (x.frag e).mask, outer := (x.frag e).join }
          ∧ y.dq = x.dq ++ [⟨1, side.zeroExtend 64 ||| (BitVec.ofNat 64 (d + if taken then 16 else 0) <<< 32)⟩])
    ∧ (∀ j, tk ≠ 0 → nt ≠ 0 → x.freeJoin = some j → x.freeFrag = none → ∃ t, exec (.brv o k) s = .next t ∧ t.mem = s.mem
      ∧ let y := t.gang g
        y.cur = some e ∧ y.apc = target ∧ y.exmA = x.exmA &&& tk ∧ (y.frag e).mask = (x.frag e).mask &&& ~~~nt ∧ (y.frag e).join = j
          ∧ y.join j = { pending := (x.frag e).mask, outer := (x.frag e).join, defer := true, dmask := nt, dapc := next }
          ∧ y.dq = x.dq ++ [⟨1, nt.zeroExtend 64 ||| (BitVec.ofNat 64 (j + 48) <<< 32)⟩])

/-- When rejoin issues in the a-slice in a running fragment that has lanes: outside any join it moves past itself and pushes
a release record. Otherwise its lanes arrive at its join j: if every awaited lane has arrived, the lowest-numbered of the
arriving and waiting entries runs on with all of them, past the rejoin, under the outer join; else if a path is deferred, the
fragment becomes that path; else it waits with the address after it. -/
def Obligations.RejoinMerges : Prop :=
  ∀ (s : State) (g : GangId) (e : Nat), s.cur = .a g → issues .rejoin s = true → (s.gang g).cur = some e →
    let x := s.gang g
    let f := x.frag e
    let j := x.join f.join
    let all := j.arrived ||| f.mask
    f.mask ≠ 0 →
    (f.join = 15 → exec .rejoin s = .next ((s.countIssue (.a g)).modGang g fun y => { y with
        apc := y.apc + 4, dq := y.dq ++ [⟨5, f.mask.zeroExtend 64 ||| (15 <<< 32)⟩] }))
    ∧ (f.join ≠ 15 → all = j.pending → ∃ t m, exec .rejoin s = .next t ∧ t.mem = s.mem
      ∧ (m = e ∨ m ∈ x.waitingAt f.join) ∧ m ≤ e ∧ (∀ w ∈ x.waitingAt f.join, m ≤ w)
      ∧ let y := t.gang g
        y.cur = some m ∧ y.apc = x.apc + 4 ∧ (y.frag m).state = .running ∧ (y.frag m).mask = j.pending ∧ (y.frag m).join = j.outer
          ∧ y.exmA = x.exmOf (x.waitingAt f.join) ||| x.exmA ||| j.aArr)
    ∧ (f.join ≠ 15 → all ≠ j.pending → j.defer = true → ∃ t, exec .rejoin s = .next t ∧ t.mem = s.mem
      ∧ let y := t.gang g
        y.cur = some e ∧ y.apc = j.dapc ∧ y.exmA = j.dmask ∧ (y.frag e).mask = j.dmask
          ∧ (y.join f.join).arrived = all ∧ (y.join f.join).defer = false ∧ (y.join f.join).aArr = j.aArr ||| x.exmA)
    ∧ (f.join ≠ 15 → all ≠ j.pending → j.defer = false → ∃ t, exec .rejoin s = .next t ∧ t.mem = s.mem
      ∧ let y := t.gang g
        (y.frag e).state = .waiting ∧ (y.frag e).apc = x.apc + 4 ∧ (y.frag e).mask = f.mask ∧ y.join f.join = { j with arrived := all, rpc := x.apc + 4 })

/-- When exit issues in the a-slice the running fragment's lanes are live no more, and when none is left the end record is
pushed and the slice has ended; in the controller it waits for an empty anvil queue, and while its leaves of phasers must
wait (log entry 31), and then ends the stream with its pins released. When mwait issues in a fragment with lanes it retires
with a decision record and its monitor disarmed if the monitor is triggered or not armed or a wake came, and otherwise parks
at its own address. -/
def Obligations.FragmentEnds : Prop :=
  ∀ (s : State),
    (∀ g e, s.cur = .a g → issues .exit s = true → (s.gang g).cur = some e → ∃ t, exec .exit s = .next t ∧ t.mem = s.mem
      ∧ (t.gang g).live = (s.gang g).live &&& ~~~((s.gang g).frag e).mask
      ∧ ((t.gang g).live = 0 → (t.gang g).aEnd = true ∧ (t.gang g).dq = (s.gang g).dq ++ [⟨6, 0⟩]))
    ∧ (∀ c, s.cur = .m c → issues .exit s = true → (s.clu c).ctl.queue ≠ [] ∨ s.leaveWaits (.m c) = true → exec .exit s = .next s)
    ∧ (∀ c, s.cur = .m c → issues .exit s = true → (s.clu c).ctl.queue = [] → s.leaveWaits (.m c) = false → ∃ t, exec .exit s = .next t ∧ t.mem = s.mem
      ∧ (t.clu c).ctl.inUse = false ∧ (t.clu c).pins = [] ∧ (t.clu c).ctl.tpins = [] ∧ (t.clu c).ctl.m = (s.clu c).ctl.m)
    ∧ (∀ g e, s.cur = .a g → issues .mwait s = true → (s.gang g).cur = some e → ((s.gang g).frag e).mask ≠ 0 →
      let met := ((s.gang g).frag e).woken = true ∨ tfind e (s.gang g).monitors = none
        ∨ ∃ m, tfind e (s.gang g).monitors = some m ∧ m.hit = true
      (met → ∃ t, exec .mwait s = .next t ∧ t.mem = s.mem ∧ (t.gang g).apc = (s.gang g).apc + 4 ∧ (t.gang g).cur = some e
        ∧ (t.gang g).dq = (s.gang g).dq ++ [⟨0, 0⟩] ∧ tfind e (t.gang g).monitors = none)
      ∧ (¬ met → ∃ t, exec .mwait s = .next t ∧ t.mem = s.mem ∧ ((t.gang g).frag e).state = .parked
        ∧ ((t.gang g).frag e).apc = (s.gang g).apc ∧ ((t.gang g).frag e).aexm = (s.gang g).exmA
        ∧ tfind e (t.gang g).monitors = tfind e (s.gang g).monitors))

/-- When brd, jmpi, rejoin, exit or region issues in the c-slice, the record at the head of dq decides. A kind that it does
not accept is queue misuse (cause 3, detail the kind) and stays. A switch record is popped and applied and the instruction is
not executed. Otherwise the record is popped: brd goes the way of a decision record, and by a divergent record goes its side
and gives the other lanes their own place; jmpi goes to the target in the record; rejoin moves past itself, with the merged
lanes that have not been killed, and %exm becomes what it was, together with the saved %exm of every other live fragment that
it merges and the one kept with its join, in the released lanes; exit ends the slice; region opens the region for both
slices, or, where the check of R129 fails at that moment, raises cause 12 in the a-slice at its region, with the part that
fails as info. Two of these are the model's readings of log entry 36: by a divergent record %exm loses the lanes of the
payload (R167 has it so, where R110 would leave the continuing side alone), and region's check is made before its push (R182)
and again at the pop. A deferred path has a join record of its own beside an earlier use of its number (log entry 10). -/
def Obligations.CSliceRecords : Prop :=
  ∀ (s : State) (g : GangId) (r : DRec) (rs : List DRec), s.cur = .c g → (s.gang g).dq = r :: rs →
    let q := s.countIssue (.c g)
    (∀ i accepts, ((∃ o, i = .brd o ∧ accepts = [0, 1, 4]) ∨ (∃ b a p, i = .jmpi b a p ∧ accepts = [2, 4])
        ∨ i = .rejoin ∧ accepts = [4, 5] ∨ i = .exit ∧ accepts = [4, 6] ∨ i = .region ∧ accepts = [4, 7]) → issues i s = true →
      (r.kind ∉ accepts → exec i s = .next (q.raise (.c g) ⟨3, r.kind, 4, s.active (.c g), false, 4⟩))
      ∧ (r.kind = 4 → exec i s = .next (q.modGang g fun x => x.cSwitch r)))
    ∧ (∀ o, issues (.brd o) s = true →
      let target := (s.gang g).cpc + (o.signExtend 57 <<< 1)
      let next := (s.gang g).cpc + 4
      (r.kind = 0 → exec (.brd o) s = .next (q.modGang g fun x => { x.popDq with cpc := if r.payload.getLsbD 0 then target else next }))
      ∧ (r.kind = 1 → ∃ t, exec (.brd o) s = .next t ∧ t.mem = s.mem
        ∧ let taken := r.payload.getLsbD 36
          let idx := (r.payload.extractLsb' 32 4).toNat
          let lanes := r.payload.extractLsb' 0 32
          let other := if taken then next else target
          (t.gang g).dq = (s.gang g).popDq.dq ∧ (t.gang g).cpc = (if taken then target else next) ∧ (t.gang g).exmC = (s.gang g).exmC &&& ~~~lanes
            ∧ (r.payload.getLsbD 37 = true → (t.gang g).cjoins =
              ⟨idx, (tget (s.gang g).ccur {} (s.gang g).cfrags).mask ||| lanes, lanes, other, 0, 0⟩ :: (s.gang g).cjoins)
            ∧ (r.payload.getLsbD 37 = false →
              tget idx {} (t.gang g).cfrags = { live := true, mask := lanes, cexm := lanes, cpc := other })))
    ∧ (∀ b a p, issues (.jmpi b a p) s = true → r.kind = 2 →
      exec (.jmpi b a p) s = .next (q.modGang g fun x => { x.popDq with cpc := r.payload.extractLsb' 0 57 }))
    ∧ (issues .rejoin s = true → r.kind = 5 → ∃ t, exec .rejoin s = .next t ∧ t.mem = s.mem ∧ (t.gang g).cpc = (s.gang g).cpc + 4
      ∧ (t.gang g).dq = (s.gang g).popDq.dq
      ∧ ((r.payload.extractLsb' 32 4).toNat = 15 → (t.gang g).exmC = (s.gang g).exmC ∧ (t.gang g).cfrags = (s.gang g).cfrags)
      ∧ ((r.payload.extractLsb' 32 4).toNat ≠ 15 → (t.gang g).cfragMask = r.payload.extractLsb' 0 32 &&& ~~~(s.gang g).dead
        ∧ ∀ l, l < 32 → ((t.gang g).exmC.getLsbD l = true ↔ r.payload.getLsbD l = true ∧ ((s.gang g).exmC.getLsbD l = true
            ∨ (∃ e, e < 8 ∧ e ≠ (s.gang g).ccur ∧ (tget e {} (s.gang g).cfrags).live = true
                ∧ (tget e {} (s.gang g).cfrags).mask &&& r.payload.extractLsb' 0 32 ≠ 0 ∧ (tget e {} (s.gang g).cfrags).cexm.getLsbD l = true)
            ∨ (∃ c, (s.gang g).cjoins.find? (fun c => c.num == (r.payload.extractLsb' 32 4).toNat && c.lanes &&& r.payload.extractLsb' 0 32 != 0) = some c
                ∧ c.cArr.getLsbD l = true)))))
    ∧ (issues .exit s = true → r.kind = 6 → exec .exit s = .next (q.modGang g fun x => { x.popDq with cEnd := true }))
    ∧ (issues .region s = true → r.kind = 7 →
      let p := q.modGang g fun x => { x.popDq with cpc := x.cpc + 4, regionWait := false }
      (∀ n, (p.gang g).regionBlock = some n → exec .region s = .next (p.raise (.a g) ⟨12, 0, BitVec.ofNat 64 n, p.active (.a g), false, 4⟩))
      ∧ ((p.gang g).regionBlock = none → ∃ t, exec .region s = .next t ∧ t.mem = s.mem ∧ (t.gang g).cpc = (s.gang g).cpc + 4
        ∧ (t.gang g).apc = (s.gang g).apc + 4 ∧ (t.gang g).regionWait = false ∧ (t.gang g).region.isSome = true))

/-- When jmpi issues in the a-slice or the controller its target is its register in the leader lane; a bad target raises
cause 9 with detail 6 or 3, and with p = 1 a second target is checked and pushed as a target record. When qpeek issues it
writes the head entry (of dq the kind of the head record) into d of every active lane, with its poison mark copied and not
consumed (log entry 38, the model's choice), and pops nothing, qcount writes how many entries the queue holds, and qdrain
empties it; each moves past itself. -/
def Obligations.JumpsAndQueueInspection : Prop :=
  ∀ (s : State),
    let u := s.cur
    let r := s.countIssue u
    let bad (v : DWord) : Option Nat := if v.extractLsb' 57 7 ≠ 0 then some 6 else if v.getLsbD 0 then some 3 else none
    (∀ b a p, (∀ g, u ≠ .c g) → issues (.jmpi b a p) s = true →
      let v := (s.readReg u .b64 a.toNat (s.leader u)).bits
      let w := (s.readReg u .b64 b.toNat (s.leader u)).bits
      (∀ n, bad v = some n → exec (.jmpi b a p) s = .next (r.raise u ⟨9, n, v, s.active u, false, 4⟩))
      ∧ (bad v = none → p = 0 → exec (.jmpi b a p) s = .next (r.setPc u (v.extractLsb' 0 57)))
      ∧ (∀ g n, u = .a g → bad v = none → p = 1 → bad w = some n → exec (.jmpi b a p) s = .next (r.raise u ⟨9, n, w, s.active u, false, 4⟩))
      ∧ (∀ g, u = .a g → bad v = none → p = 1 → bad w = none →
        exec (.jmpi b a p) s = .next (r.modGang g fun x => { x with apc := v.extractLsb' 0 57, dq := x.dq ++ [⟨2, w⟩] })))
    ∧ (∀ q d g, u = .a g ∨ u = .c g → issues (.qpeek q d) s = true → ¬ (u = .c g ∧ q = 4) →
      ∃ h hs, (s.gang g).readQueue u.kind q.toNat = h :: hs
        ∧ exec (.qpeek q d) s = .next ((r.writeMarked u .b32 d.toNat (s.active u) fun n =>
          ⟨(h.word n).bits.zeroExtend 64, (h.word n).poison⟩).advance (.qpeek q d)))
    ∧ (∀ d g, u = .c g → issues (.qpeek 4 d) s = true → ∃ x xs, (s.gang g).dq = x :: xs
        ∧ exec (.qpeek 4 d) s = .next ((r.writeMarked u .b32 d.toNat (s.active u) fun _ =>
          ⟨BitVec.ofNat 64 (x.kind % 2 ^ 32), false⟩).advance (.qpeek 4 d)))
    ∧ (∀ q d g, u = .a g ∨ u = .c g → issues (.qcount q d) s = true →
      let n := if u = .c g ∧ q = 4 then (s.gang g).dq.length else ((s.gang g).readQueue u.kind q.toNat).length
      exec (.qcount q d) s = .next ((r.writeReg u .b32 d.toNat (s.active u) fun _ => BitVec.ofNat 64 n).advance (.qcount q d)))
    ∧ (∀ q g, u = .a g ∨ u = .c g → issues (.qdrain q) s = true → ∃ t, exec (.qdrain q) s = .next t ∧ t.pc u = s.pc u + 4 ∧ s.sameButData t u
      ∧ (¬ (u = .c g ∧ q = 4) → (t.gang g).readQueue u.kind q.toNat = [] ∧ (t.gang g).dq = (s.gang g).dq))

/-- When rdsr issues it writes its special register into d of every active lane: %lane gives each lane its number, and %gang,
%core, %clu, %die, %pkg, %exm, %slip, %time and %mprog are the slot, the core, the logical cluster, the die, the package, the
mask, the decision limit, the package's time and the fields of R287 (for a queue and a state that fit their fields). wrsr
writes from the lowest active lane, or nothing with none active: %exm keeps only lanes of the fragment, %slip is held between
1 and 32 and records that wait for room follow as it allows, and the controller's %mprog takes kstep and col in state 3
alone. chk.on sets the checked-mode flag, chk.off clears it unless the launch locks it, chk.q reads flag and lock. gsync and
gsync a raise cause 4 with the first of details 1 to 3 that fails, in the c-slice against what the a-slice's was checked
against; the slice that comes first waits unretired, and when the other comes and its check passes both retire at once, 4
bytes on; where the waiting c-slice's mask fails against the arriving a-slice, the c-slice raises detail 3 and the a-slice
waits. region in the a-slice raises cause 12 with the least blocking value or pushes the region record and waits; in the
controller it opens a region past itself or raises cause 12 with 12. -/
def Obligations.StatusAndRendezvous : Prop :=
  ∀ (s : State),
    let u := s.cur
    let r := s.countIssue u
    (∀ a d, issues (.rdsr a d) s = true → (∀ c, u = .m c → (s.clu c).ctl.queue.length < 8 ∧ (s.clu c).ctl.state < 8) →
      exec (.rdsr a d) s = .next
      ((r.writeReg u (if u.kind = .C then .b32 else .b64) d.toNat (s.active u) fun n =>
        if a = 0 then BitVec.ofNat 64 n else statusRule s u a.toNat).advance (.rdsr a d)))
    ∧ (∀ b a, issues (.wrsr b a) s = true → s.active u = 0 → exec (.wrsr b a) s = .next (r.advance (.wrsr b a)))
    ∧ (∀ b c, u = .m c → issues (.wrsr b 9) s = true → exec (.wrsr b 9) s = .next
      ((if (s.clu c).ctl.state = 3 then r.modCtl c fun x =>
          let v := (s.readReg u .b64 b.toNat 0).bits
          { x with kstep := (v.extractLsb' 0 32).toNat, col := (v.extractLsb' 32 8).toNat }
        else r).advance (.wrsr b 9)))
    ∧ (∀ b g n, u = .a g → issues (.wrsr b 6) s = true → lowestLane (s.active u) = some n → exec (.wrsr b 6) s = .next
      ((r.modGang g fun x => { x with exmA := (s.readReg u .b64 b.toNat n).bits.extractLsb' 0 32 &&& (s.gang g).fragMask }).advance (.wrsr b 6)))
    ∧ (∀ b g n, u = .c g → issues (.wrsr b 6) s = true → lowestLane (s.active u) = some n → exec (.wrsr b 6) s = .next
      ((r.modGang g fun x => { x with exmC := (s.readReg u .b32 b.toNat n).bits.extractLsb' 0 32 &&& (s.gang g).cfragMask }).advance (.wrsr b 6)))
    ∧ (∀ b g n, u = .a g → issues (.wrsr b 7) s = true → lowestLane (s.active u) = some n → exec (.wrsr b 7) s = .next
      ((r.modGang g fun x =>
          ({ x with slip := max 1 (min 32 ((s.readReg u .b64 b.toNat n).bits.toNat % 64)) } : Gang).flush).advance (.wrsr b 7)))
    ∧ (∀ g, u = .a g → issues .chkOff s = true → exec .chkOff s = .next
      ((r.modGang g fun x => { x with checked := x.checked && x.chkLock }).advance .chkOff))
    ∧ (∀ g, u = .a g → issues .chkOn s = true → exec .chkOn s = .next ((r.modGang g fun x => { x with checked := true }).advance .chkOn))
    ∧ (∀ g d, u = .a g → issues (.chkQ d) s = true → exec (.chkQ d) s = .next ((r.writeReg u .b64 d.toNat (s.active u) fun _ =>
      BitVec.ofNat 64 ((if (s.gang g).checked then 1 else 0) + (if (s.gang g).chkLock then 2 else 0))).advance (.chkQ d)))
    ∧ (∀ i m, (i = .gsync ∧ m = (fun _ => BitVec.allOnes 32)) ∨ (∃ a, i = .gsyncMask a ∧ m = fun n => (s.readReg u .b32 a.toNat n).bits.extractLsb' 0 32) →
      issues i s = true →
      let lead : Word := m (s.leader u)
      let act := s.active u
      let one := ∃ n, n < 32 ∧ act.getLsbD n = true ∧ m n ≠ lead
      let two := ∃ n, n < 32 ∧ act.getLsbD n = true ∧ (m n).getLsbD n = false
      let trap (n : Nat) : Raised := ⟨4, n, lead.zeroExtend 64, act, false, 4⟩
      let both (x : Gang) : Gang := { x with gsA := none, gsC := none, apc := x.apc + 4, cpc := x.cpc + 4, era := x.era + 1 }
      (∀ g, u = .a g ∨ u = .c g → one → exec i s = .next (r.raise u (trap 1)))
      ∧ (∀ g, u = .a g ∨ u = .c g → ¬ one → two → exec i s = .next (r.raise u (trap 2)))
      ∧ (∀ g, u = .a g → ¬ one → ¬ two → lead &&& (s.gang g).live &&& ~~~(s.gang g).fragMask ≠ 0 → exec i s = .next (r.raise u (trap 3)))
      ∧ (∀ g, u = .a g → ¬ one → ¬ two → lead &&& (s.gang g).live &&& ~~~(s.gang g).fragMask = 0 →
        let mine : Gsync := ⟨lead, (s.gang g).live, (s.gang g).fragMask, act⟩
        ((s.gang g).gsC = none → exec i s = .next (r.modGang g fun x => { x with gsA := some mine }))
        ∧ (∀ y, (s.gang g).gsC = some y → y.mask &&& (s.gang g).live &&& ~~~(s.gang g).fragMask = 0 → exec i s = .next (r.modGang g both))
        ∧ (∀ y, (s.gang g).gsC = some y → y.mask &&& (s.gang g).live &&& ~~~(s.gang g).fragMask ≠ 0 → exec i s = .next
          ((r.modGang g fun x => { x with gsA := some mine, gsC := none }).raise (.c g) ⟨4, 3, y.mask.zeroExtend 64, y.active, false, 4⟩)))
      ∧ (∀ g, u = .c g → ¬ one → ¬ two → (s.gang g).gsA = none →
        exec i s = .next (r.modGang g fun x => { x with gsC := some ⟨lead, x.live, x.fragMask, act⟩ }))
      ∧ (∀ g y, u = .c g → ¬ one → ¬ two → (s.gang g).gsA = some y → lead &&& y.live &&& ~~~y.frag = 0 → exec i s = .next (r.modGang g both))
      ∧ (∀ g y, u = .c g → ¬ one → ¬ two → (s.gang g).gsA = some y → lead &&& y.live &&& ~~~y.frag ≠ 0 →
        exec i s = .next (r.raise u (trap 3))))
    ∧ (∀ g n, u = .a g → issues .region s = true → (s.gang g).regionBlock = some n →
      exec .region s = .next (r.raise u ⟨12, 0, BitVec.ofNat 64 n, s.active u, false, 4⟩))
    ∧ (∀ g, u = .a g → issues .region s = true → (s.gang g).regionBlock = none →
      exec .region s = .next (r.modGang g fun x => { x with dq := x.dq ++ [⟨7, 0⟩], regionWait := true }))
    ∧ (∀ c, u = .m c → issues .region s = true →
      let busy := (s.clu c).ctl.queue ≠ [] ∨ ∃ p ∈ (s.clu c).pins, p.after ≠ none
      (busy → exec .region s = .next (r.raise u ⟨12, 0, 12, 1, false, 4⟩))
      ∧ (¬ busy → exec .region s = .next (r.modCtl c fun x => { x with region := some (x.pc + 4, 0), pc := x.pc + 4 })))

/-- trap n, brk n and svc n raise causes 6, 5 and 7 with info n, the active lanes and skip, and with no active lane only move
on. Delivery of a raised trap of a gang in user mode, with both slices stopped, no value of an earlier access of a trapping
a-slice outstanding and a valid vector entry for a cause that goes to a handler, writes cause, detail, info, lanes and both
program counters into the record, saves the fragment's %exm, enters supervisor mode with %exm the record's lanes and the
program counter the entry's address, and leaves registers and memory alone; otherwise the gang is killed. rft, from a trap
entry with no lane to kill and nothing held, returns to user mode at the record's address, past the instruction with skip,
with the %exm saved; with no entry in progress it is illegal with detail 4. The controller, with no anvil fault found
meanwhile, does the same with its record in m24 to m27. -/
def Obligations.TrapEntryAndReturn : Prop :=
  (∀ (s : State) (i : Instr) (cause : Nat) (n : BitVec 12), (i = .trap n ∧ cause = 6) ∨ (i = .brk n ∧ cause = 5) ∨ (i = .svc n ∧ cause = 7) →
    issues i s = true →
    (s.active s.cur ≠ 0 → exec i s = .next ((s.countIssue s.cur).raise s.cur ⟨cause, 0, n.zeroExtend 64, s.active s.cur, true, 4⟩))
    ∧ (s.active s.cur = 0 → exec i s = .next ((s.countIssue s.cur).advance i)))
  ∧ (∀ (s : State) (g : GangId) (r : Raised) (slice : Bool),
    let x := s.gang g
    let handler := x.mode = .user ∧ r.cause ∉ [10, 11, 14, 15, 16] ∧ (tget r.cause 0 (s.core g.coreId).vectors).getLsbD 0 = true
    (x.trapA = some r ∧ slice = false ∨ x.trapA = none ∧ x.trapC = some r ∧ slice = true) →
    (s.stoppedFor g slice = true ∨ slice = false ∧ x.mode ≠ .user) → (slice = true ∨ s.valuesOut g = false) →
    (handler → ∃ t, exec (.trapDelivery g) s = .next t ∧ t.mem = s.mem
      ∧ let y := t.gang g
        y.mode = .supervisor ∧ y.entry = .trap ∧ y.exmA = r.lanes ∧ y.trapA = none ∧ y.trapC = none ∧ y.stopC = true
          ∧ y.apc = (tget r.cause 0 (s.core g.coreId).vectors).extractLsb' 0 57 &&& ~~~1
          ∧ y.record.cause = r.cause ∧ y.record.detail = r.detail ∧ y.record.info = r.info ∧ y.record.lanes = r.lanes
          ∧ y.record.skip = r.skip ∧ y.record.kill = 0 ∧ y.record.slice = slice ∧ y.record.cpc = x.cpc.zeroExtend 64
          ∧ (y.record.apc = if x.cur.isSome then x.apc.zeroExtend 64 else 0)
          ∧ (∀ e, x.cur = some e → (y.frag e).aexm = x.exmA ∧ y.cur = some e)
          ∧ y.a = x.a ∧ y.s = x.s ∧ y.ka = x.ka ∧ y.v = x.v ∧ y.kc = x.kc)
    ∧ (¬ handler → ∃ t, exec (.trapDelivery g) s = .next t ∧ t.mem = s.mem ∧ (t.gang g).live = 0 ∧ (t.gang g).aEnd = true
      ∧ (t.gang g).cEnd = true ∧ (t.gang g).mode = .user ∧ (t.gang g).trapA = none))
  ∧ (∀ (s : State) (g : GangId), s.cur = .a g → issues .rft s = true →
    let x := s.gang g
    (x.entry = .none → exec .rft s = .next ((s.countIssue (.a g)).raiseIllegal (.a g) 4 4))
    ∧ (∀ e, x.entry = .trap → x.record.kill = 0 → x.replay = none → x.cur = some e → ∃ t, exec .rft s = .next t ∧ t.mem = s.mem
      ∧ let y := t.gang g
        let past : VAddr := if x.record.skip ∧ x.record.cause ≠ 8 then BitVec.ofNat 57 x.record.len else 0
        y.mode = .user ∧ y.entry = .none ∧ y.exmA = (x.frag e).aexm ∧ y.stopC = false
          ∧ (y.apc = x.record.apc.extractLsb' 0 57 + if x.record.slice then 0 else past)
          ∧ (y.cpc = x.record.cpc.extractLsb' 0 57 + if x.record.slice then past else 0)
          ∧ y.a = x.a ∧ y.s = x.s ∧ y.sa = x.sa ∧ y.ss = x.ss ∧ y.live = x.live))
  ∧ (∀ (s : State) (c : CluId) (r : Raised),
    let x := (s.clu c).ctl
    x.trap = some r → x.inUse = true → x.preempted = false → x.wait = none → x.miss = none → x.afault = none → x.mode = .user →
    r.cause ∉ [10, 11, 14, 15, 16] → (tget r.cause 0 (s.core (c.core 0)).vectors).getLsbD 0 = true → r.cause < 2 ^ 8 → r.detail < 2 ^ 8 →
    ∃ t, exec (.controllerTrapDelivery c) s = .next t ∧ t.mem = s.mem
      ∧ let y := (t.clu c).ctl
        y.mode = .supervisor ∧ y.trap = none ∧ y.m = x.m
          ∧ y.pc = (tget r.cause 0 (s.core (c.core 0)).vectors).extractLsb' 0 57 &&& ~~~1
          ∧ (y.readM 24).bits.toNat = r.cause + r.detail * 2 ^ 8 + (if 5 ≤ r.cause ∧ r.cause ≤ 7 then 2 ^ 16 else 0)
          ∧ (y.readM 25).bits = x.pc.zeroExtend 64 ∧ (y.readM 26).bits = r.info ∧ (y.readM 27).bits = (x.aaddr.getD 0).zeroExtend 64)
  ∧ (∀ (s : State) (c : CluId), s.cur = .m c → issues .rft s = true →
    let x := (s.clu c).ctl
    (tget 27 {} x.sm).bits = 0 → ∃ t, exec .rft s = .next t ∧ t.mem = s.mem
      ∧ (t.clu c).ctl = { x with mode := .user, pc := (tget 25 {} x.sm).bits.extractLsb' 0 57
          + if (tget 24 {} x.sm).bits.getLsbD 16 then BitVec.ofNat 57 x.trapLen else 0 })

/-- Every load, full-empty load, store, full-empty store, atomic and reduction of every width and space that issues with an
active lane or names a queue, each lane passing its address check and each .g lane's page held by the cluster's TLB, or for a
single lane by any TLB, with the permission that it needs, with nothing in the store hold and no fabric access of its core to
the own package still to be served, completes: it moves past itself, its access with every lane's address, data and compare
value is sent behind those in flight, or with its data from a queue is put in the store hold, and memory is as before. With
no active lane and no queue it only moves on. -/
def Obligations.MemoryIssue : Prop :=
  ∀ (i : Instr) (s : State) (g : GangId) (f : State → GangId → Access), memAccess i = some f → s.cur = .a g → issues i s = true →
    let r := s.countIssue (.a g)
    let a := { f r g with id := s.nextId }
    (a.lanes = [] → a.queued = false → exec i s = .next (r.advance i))
    ∧ ((a.lanes ≠ [] ∨ a.queued = true) → (s.gang g).hold = [] →
      (a.space = .g → ∀ m ∈ s.msgs, ∀ r, m.2 = .remote r → r.gang.coreId = g.coreId → r.dst = g.pkg → r.served = true) →
      (∀ l ∈ a.lanes, s.addressDetail g (s.gang g).mode a.space a.size a.kind.fullEmpty l.ea = none) →
      (a.space = .g → ∀ l ∈ a.lanes, ∃ e, s.tlbLookup g.cluId a.ctx l.ea = some e ∧ e.permits (s.gang g).mode (needs a.kind a.dest) = true) →
      (a.space = .g → a.lanes.length = 1 ∨ ∀ l ∈ a.lanes, ∃ e ∈ (s.clu g.cluId).tlb, e.covers a.ctx l.ea = true) →
      ∃ t a', exec i s = .next t ∧ (t.gang g).apc = (s.gang g).apc + 4 ∧ t.mem = s.mem ∧ t.nextId = s.nextId + 1
        ∧ ({ a' with lanes := [] } : Access) = { a with lanes := [] }
        ∧ a'.lanes.map (fun l => (l.lane, l.ea, l.data, l.cmp)) = a.lanes.map (fun l => (l.lane, l.ea, l.data, l.cmp))
        ∧ (∀ l ∈ a'.lanes, l.pa.isSome = true)
        ∧ (a.waitsOn = none → t.flight = s.flight ++ [a'] ∧ (t.gang g).hold = [])
        ∧ (a.waitsOn ≠ none → t.flight = s.flight ∧ (t.gang g).hold = [a']))

/-- Where some lane of a memory instruction that issues fails its address check, it raises cause 9 with the detail and
address of the lowest failing lane and every failing lane; where none does but a .g lane's page, known from a TLB or a walk,
does not permit the access, detail 4 in the same way; nothing else changes. The first failed check of a .g address is detail
6 beyond 57 bits, then 3 misaligned, then 5 full-empty; core scratchpad outside allocation and window is detail 1 and the
window in user mode 2. -/
def Obligations.MemoryFaults : Prop :=
  (∀ (i : Instr) (s : State) (g : GangId) (f : State → GangId → Access), memAccess i = some f → s.cur = .a g → issues i s = true →
    let r := s.countIssue (.a g)
    let a := f r g
    let detail (l : LaneAccess) : Option Nat := s.addressDetail g (s.gang g).mode a.space a.size a.kind.fullEmpty l.ea
    let denied (l : LaneAccess) : Bool := s.forbids g (s.gang g).mode a.ctx (needs a.kind a.dest) l.ea
    (∀ l ls rest d, a.lanes = ls ++ l :: rest → (∀ k ∈ ls, detail k = none) → detail l = some d → exec i s = .next (r.raise (.a g)
      ⟨9, d, BitVec.ofNat 64 l.ea, laneMask ((a.lanes.filter fun k => (detail k).isSome).map (·.lane)), false, 4⟩))
    ∧ (∀ l ls rest, a.space = .g → a.lanes = ls ++ l :: rest → (∀ k ∈ a.lanes, detail k = none) → (∀ k ∈ ls, denied k = false) → denied l = true →
      exec i s = .next (r.raise (.a g) ⟨9, 4, BitVec.ofNat 64 l.ea, laneMask ((a.lanes.filter denied).map (·.lane)), false, 4⟩)))
  ∧ (∀ (s : State) (g : GangId) (m : Mode) (size ea : Nat) (fe : Bool), 0 < size →
    s.addressDetail g m .g size fe ea = (if 2 ^ 57 ≤ ea then some 6 else if ¬ size ∣ ea then some 3 else if fe then some 5 else none)
    ∧ (inAlloc (s.allocOf g .c) ea size = false → ea < 0x40000 ∨ 0x45000 < ea + size ∨ fe = true → s.addressDetail g m .c size fe ea = some 1)
    ∧ (inAlloc (s.allocOf g .c) ea size = false → 0x40000 ≤ ea → ea + size ≤ 0x45000 → fe = false → m = .user →
      s.addressDetail g m .c size fe ea = some 2)
    ∧ (inAlloc (s.allocOf g .c) ea size = true → s.addressDetail g m .c size fe ea = if size ∣ ea then none else some 3))

/-- For a memory in canonical form, a value of n bytes stored at a key of HBM or of any scratchpad has byte i of the value at
address plus i, reads back as the value modulo 2 to the 8 n, and every byte outside is as before; the canonical form is kept. -/
def Obligations.StoredBytes : Prop :=
  ∀ (s : State) (k v n : Nat) (p : Bool), s.Inv → (isHbm k = true ∨ keyRegion k = 1 ∨ keyRegion k = 2 ∨ keyRegion k = 3) →
    let t := s.storeAt k (bytesOfNum v n) p
    t.Inv ∧ (∀ i, i < n → t.readByte (k + i) = BitVec.ofNat 8 (v / 2 ^ (8 * i))) ∧ t.readNum k n = v % 2 ^ (8 * n)
      ∧ ∀ j, (j < k ∨ k + n ≤ j) → t.readByte j = s.readByte j

/-- A lock word whose page a TLB holds with the permission is reached by any agent with nothing of its own before it and, for
a gang, no store of its core in flight and no fabric access of its core to the own package still to be served. An acq of a
free lock makes the word 1, drops the L1 lines bound to the lock and retires; of a held one it waits without changing memory;
rel with nothing bound outstanding makes it 0. A bind that passes its checks adds the binding, an unbind removes it, and both
drop the region's lines from every L1. mon arms the running fragment's monitor on its lanes' lines; fence of a wide scope and
no narrower one drops the context's L1 lines; prefetches change no memory. Each moves past itself. -/
def Obligations.Synchronisation : Prop :=
  (∀ (s : State) (g : GangId) (lane ea : Nat) (k : AccessKind) (d : Dest) (e : TlbEntry), k = .load ∨ k = .store ∨ k = .atomic →
    ea < 2 ^ 57 → ea % 8 = 0 → (s.gang g).hold = [] → (∀ a ∈ s.flight, a.gang ≠ g ∧ a.storeOf g.coreId = false) →
    (∀ m ∈ s.msgs, ∀ r, m.2 = .remote r → r.gang.coreId = g.coreId → r.dst = g.pkg → r.served = true) →
    s.tlbLookup g.cluId (s.gang g).ctx ea = some e → e.permits (s.gang g).mode (needs k d) = true →
    s.reachWord (.a g) lane ea 8 k d = .go (s.fillClu g.cluId e) (hbmKey g.pkg (e.pa ea)))
  ∧ (∀ (s : State) (c : CluId) (lane ea : Nat) (k : AccessKind) (d : Dest) (e : TlbEntry), ea < 2 ^ 57 → ea % 8 = 0 →
    s.tlbLookup c (s.clu c).ctl.ctx ea = some e → e.permits (s.clu c).ctl.mode (needs k d) = true →
    s.reachWord (.m c) lane ea 8 k d = .go (s.fillClu c e) (hbmKey c.pkg (e.pa ea)))
  ∧ (∀ (s t : State) (u : UnitId) (a : BitVec 6) (k : Nat), s.Inv → s.cur = u → issues (.acq a) s = true →
    let r := s.countIssue u
    let h := leaderValue r u .b64 a.toNat
    r.active u ≠ 0 → lockBad h = false → r.reachWord u (r.leader u) (handleName h) 8 .atomic (.reg 0) = .go t k →
    isHbm k = true → t.placeWaits k 8 = false → t.markedAt k 8 = false →
    (t.readNum k 8 = 0 → ∃ v, exec (.acq a) s = .next v ∧ v.readNum k 8 = 1 ∧ v.waitOf u = none ∧ v.pc u = s.pc u + 4
      ∧ (∀ j, (j < k ∨ k + 8 ≤ j) → v.readByte j = s.readByte j)
      ∧ (∀ g, u = .a g → ∀ y ∈ (v.core g.coreId).l1d, y.ctx = (s.gang g).ctx → s.boundTo y.ctx h (64 * (y.vsec / 4)) = false))
    ∧ (t.readNum k 8 ≠ 0 → ∃ v, exec (.acq a) s = .next v ∧ v.mem = s.mem ∧ v.waitOf u = some (.acq k (handleName h) h) ∧ v.pc u = s.pc u))
  ∧ (∀ (s t : State) (u : UnitId) (a : BitVec 6) (k : Nat), s.Inv → s.cur = u → issues (.rel a) s = true →
    let r := s.countIssue u
    let h := leaderValue r u .b64 a.toNat
    r.active u ≠ 0 → lockBad h = false → (∀ g, u = .a g → r.boundBusy g h = false) →
    r.reachWord u (r.leader u) (handleName h) 8 .store .none = .go t k → isHbm k = true → t.placeWaits k 8 = false →
    ∃ v, exec (.rel a) s = .next v ∧ v.readNum k 8 = 0 ∧ v.pc u = s.pc u + 4 ∧ (∀ j, (j < k ∨ k + 8 ≤ j) → v.readByte j = s.readByte j))
  ∧ (∀ (s : State) (g : GangId) (b a d : BitVec 6), s.cur = .a g → issues (.bind b a d) s = true →
    let r := s.countIssue (.a g)
    let h := leaderValue r (.a g) .b64 d.toNat
    let base := (leaderValue r (.a g) .b64 a.toNat).toNat
    let len := (leaderValue r (.a g) .b64 b.toNat).toNat
    let ctx := (s.gang g).ctx
    r.active (.a g) ≠ 0 → bindFault (s.bindingsOf ctx) h base len = none →
    ∃ v, exec (.bind b a d) s = .next v ∧ v.mem = s.mem ∧ (v.gang g).apc = (s.gang g).apc + 4
      ∧ v.bindingsOf ctx = s.bindingsOf ctx ++ [⟨base, len, h⟩] ∧ (∀ x, x ≠ ctx → v.bindingsOf x = s.bindingsOf x)
      ∧ ∀ c, ∀ y ∈ (v.core c).l1d, y ∈ (s.core c).l1d ∧ ¬ (y.ctx = ctx ∧ base ≤ y.vsec * 16 ∧ y.vsec * 16 < base + len))
  ∧ (∀ (s : State) (g : GangId) (a : BitVec 6) (x : Binding), s.cur = .a g → issues (.unbind a) s = true →
    let r := s.countIssue (.a g)
    let base := (leaderValue r (.a g) .b64 a.toNat).toNat
    let ctx := (s.gang g).ctx
    r.active (.a g) ≠ 0 → base % 64 = 0 → base < 2 ^ 57 → (s.bindingsOf ctx).find? (fun y => y.base == base) = some x →
    ∃ v, exec (.unbind a) s = .next v ∧ v.mem = s.mem ∧ (v.gang g).apc = (s.gang g).apc + 4
      ∧ (∀ y, y ∈ v.bindingsOf ctx ↔ y ∈ s.bindingsOf ctx ∧ y.base ≠ base)
      ∧ ∀ c, ∀ y ∈ (v.core c).l1d, y ∈ (s.core c).l1d ∧ ¬ (y.ctx = ctx ∧ x.base ≤ y.vsec * 16 ∧ y.vsec * 16 < x.base + x.len))
  ∧ (∀ (s t : State) (g : GangId) (a : BitVec 6) (e : Nat) (acc : Access), s.cur = .a g → issues (.mon a) s = true →
    let r := s.countIssue (.a g)
    (s.gang g).cur = some e → (lineAccess r g a).lanes ≠ [] → r.reach (lineAccess r g a) (r.pc (.a g)) 4 true = .go t acc →
    ∃ v m, exec (.mon a) s = .next v ∧ v.mem = s.mem ∧ (v.gang g).apc = (s.gang g).apc + 4
      ∧ tfind e (v.gang g).monitors = some m ∧ m.hit = false
      ∧ (∀ n, n ∈ m.vlines ↔ ∃ l ∈ (lineAccess r g a).lanes, l.ea / 64 = n))
  ∧ (∀ (s : State) (c : BitVec 3), issues (.fence c) s = true →
    ∃ v, exec (.fence c) s = .next v ∧ v.mem = s.mem ∧ v.pc s.cur = s.pc s.cur + 4
      ∧ (∀ g, s.cur = .a g → (v.core g.coreId).l1d = if 2 ≤ c.toNat then (s.core g.coreId).l1d.filter fun y => y.ctx != (s.gang g).ctx
          else (s.core g.coreId).l1d))
  ∧ (∀ (s : State) (g : GangId) (a : BitVec 6) (i : Instr), i = .pfL1 a ∨ i = .pfL2 a → s.cur = .a g → issues i s = true →
    ∃ v, exec i s = .next v ∧ v.mem = s.mem ∧ v.gang g = { s.gang g with
      apc := (s.gang g).apc + 4, ran := if (s.gang g).mode = .user then (s.gang g).ran + 1 else (s.gang g).ran, since := (v.gang g).since
      lossSeen := (s.gang g).lossSeen && (s.gang g).mode != .user })

/-- A copy or tcopy whose agent has every write acknowledged, whose descriptor reads unpoisoned and passes its checks, and
whose handle is 0 or reaches its word, enters the engine with the fewest operations unless 64 are queued; a copyt whose
trigger does not fire is armed, one that fires is entered, and one whose trigger object has failed is ended at once. cwait
returns when the count has met its target or the object has failed, and otherwise waits. mappg that passes its checks, with
no page table that its walk reads being zeroed or moved, writes every leaf and has an HBM frame zeroed; unmappg clears every
leaf and leaves no TLB entry of the page in the package; tlbinv leaves none of the page, or of the context, in its scope and
touches nothing outside. fbread returns the oldest record or all ones, replay frees a buffered entry, replayall every
buffered and dropped one. -/
def Obligations.DieInstructions : Prop :=
  (∀ (s t : State) (u : UnitId) (i : Instr) (d : BitVec 6) (o : CopyOp) (bs : List Byte) (x : Nat), s.cur = u → issues i s = true →
    let r := s.countIssue u
    let D := (UnitClu u).dieId
    let desc := leaderValue r u .b64 d.toNat
    let linear (a b : BitVec 6) (armed : Bool) : Option (CopyOp × DWord) :=
      linearOp t u bs (leaderValue t u .b64 a.toNat) (leaderValue t u .b64 b.toNat) armed
    r.active u ≠ 0 → r.unacked u = false → desc.toNat < 2 ^ 57 →
    ((∃ a b, i = .copy b a d ∧ desc.toNat % 32 = 0 ∧ r.readPieces u desc.toNat 2 = (.go t x, bs, false)
        ∧ (linear a b false).map (·.1) = some o)
      ∨ (∃ a, i = .tcopy a d ∧ desc.toNat % 16 = 0 ∧ r.readPieces u desc.toNat 23 = (.go t x, bs, false)
        ∧ tensorOp t u bs (leaderValue t u .b64 a.toNat) = some o) →
      t.opFault o desc = none → (o.handle = 0 ∨ ∃ y z, t.reachObject u o.handle .atomic = .go y z) → (s.die D).opCount < 64 →
      ∃ v, exec i s = .next v ∧ v.mem = s.mem ∧ v.pc u = s.pc u + 4 ∧ (v.die D).engines = ((s.die D).enterOp o).engines)
    ∧ (∀ a b trig k y z, i = .copyt b a d → desc.toNat % 32 = 0 → r.readPieces u desc.toNat 2 = (.go t x, bs, false) →
      linear a b true = some (o, trig) → ∀ w, (o.handle = 0 ∧ w = t ∨ ∃ j, t.reachObject u o.handle .atomic = .go w j) →
      let q := { o with threshold := (leaderValue t u .b64 (d.toNat + 1)).toNat % 2 ^ 48, tva := handleName trig }
      let p := { q with trig := k }
      t.opFault q desc = none → w.reachObject u trig .load = .go y k → isHbm k = true → y.placeWaits k 8 = false → y.markedAt k 8 = false → z = y.readNum k 8 →
      (s.die D).armed.length < 64 →
      (p.fire z = none →
        ∃ v, exec i s = .next v ∧ v.mem = s.mem ∧ v.pc u = s.pc u + 4 ∧ (v.die D).armed = (s.die D).armed ++ [p])
      ∧ (∀ f, p.fire z = some f → f.fault = false → (s.die D).opCount < 64 →
        ∃ v, exec i s = .next v ∧ v.mem = s.mem ∧ v.pc u = s.pc u + 4 ∧ (v.die D).engines = ((s.die D).enterOp f).engines)
      ∧ (∀ f, p.fire z = some f → f.fault = true →
        ∃ v, exec i s = .next v ∧ v.mem = s.mem ∧ v.pc u = s.pc u + 4 ∧ (v.die D).engines = ((s.die D).addOp endedList f).engines)))
  ∧ (∀ (s t : State) (u : UnitId) (b a : BitVec 6) (k : Nat), s.cur = u → issues (.cwait b a) s = true →
    let r := s.countIssue u
    let h := leaderValue r u .b64 a.toNat
    let target := (leaderValue r u .b64 b.toNat).toNat % 2 ^ 48
    r.active u ≠ 0 → r.reachObject u h .load = .go t k → isHbm k = true → t.placeWaits k 8 = false → t.markedAt k 8 = false →
    ∃ v, exec (.cwait b a) s = .next v ∧ v.mem = s.mem
      ∧ (if t.readNum k 8 / 2 ^ 63 % 2 = 1 ∨ countMet (t.readNum k 8) target = true
          then v.pc u = s.pc u + 4 ∧ v.waitOf u = none ∧ ∀ g, u = .a g → ∀ y ∈ (v.core g.coreId).l1d, y.ctx ≠ (s.gang g).ctx
          else v.pc u = s.pc u ∧ v.waitOf u = some (.cwait k h target)))
  ∧ (∀ (s : State) (g : GangId) (z : BitVec 2) (b a d : BitVec 6) (pas : List Nat) (frame : Nat), s.Inv → s.cur = .a g →
    issues (.mappg z b a d) s = true →
    let r := s.countIssue (.a g)
    let value (c : BitVec 6) : DWord := leaderValue r (.a g) .b64 c.toNat
    r.active (.a g) ≠ 0 → s.busy g = false → r.walkWaits g.pkg (s.gang g).ctx (value a).toNat = false → r.mapPlan g z.toNat (value a) (value b) (value d) = .inr (pas, frame) →
    r.frameBusy g.pkg (s.gang g).ctx (value a).toNat frame (2 ^ pageLg z.toNat) = false →
    ∃ v, exec (.mappg z b a d) s = .next v ∧ (v.gang g).apc = (s.gang g).apc + 4
      ∧ (∀ pa ∈ pas, v.readNum (hbmKey g.pkg pa) 8 = leafOf z.toNat frame (value d).toNat % 2 ^ 64)
      ∧ (v.pkg g.pkg).zeroing = (s.pkg g.pkg).zeroing
          ++ if frame + 2 ^ pageLg z.toNat ≤ hbmSize then [(frame, 2 ^ pageLg z.toNat)] else [])
  ∧ (∀ (s : State) (g : GangId) (z : BitVec 2) (a : BitVec 6) (pas : List Nat), s.Inv → s.cur = .a g → issues (.unmappg z a) s = true →
    let r := s.countIssue (.a g)
    let va := leaderValue r (.a g) .b64 a.toNat
    r.active (.a g) ≠ 0 → s.busy g = false → r.walkWaits g.pkg (s.gang g).ctx va.toNat = false → mapFault va z.toNat = none → s.leavesOf g.pkg (s.gang g).ctx va.toNat z.toNat = some pas →
    s.leavesValid g.pkg z.toNat pas = true →
    ∃ v, exec (.unmappg z a) s = .next v ∧ (v.gang g).apc = (s.gang g).apc + 4
      ∧ (∀ pa ∈ pas, v.readNum (hbmKey g.pkg pa) 8 = 0)
      ∧ (∀ c : CluId, c.pkg = g.pkg → ∀ e ∈ (v.clu c).tlb, e.covers (s.gang g).ctx va.toNat = false)
      ∧ (∀ c : DieId, c.pkg = g.pkg → ∀ e ∈ (v.die c).tlb, e.covers (s.gang g).ctx va.toNat = false))
  ∧ (∀ (s : State) (g : GangId) (a : BitVec 6) (c : BitVec 3), s.cur = .a g → issues (.tlbinv a c) s = true →
    let r := s.countIssue (.a g)
    let va := leaderValue r (.a g) .b64 a.toNat
    let dies (d : DieId) : Bool := 5 ≤ c.toNat || (c.toNat = 4 && d.pkg = g.pkg) || (c.toNat = 3 && d = g.dieId)
    let clus (x : CluId) : Bool := dies x.dieId || x = g.cluId
    r.active (.a g) ≠ 0 → va = BitVec.allOnes 64 ∨ va.toNat < 2 ^ 57 →
    ∃ v, exec (.tlbinv a c) s = .next v ∧ v.mem = s.mem ∧ (v.gang g).apc = (s.gang g).apc + 4
      ∧ (∀ d, if dies d then ∀ e ∈ (v.die d).tlb, e ∈ (s.die d).tlb ∧ (e.ctx = (s.gang g).ctx → va ≠ BitVec.allOnes 64 ∧ e.covers e.ctx va.toNat = false)
          else (v.die d).tlb = (s.die d).tlb)
      ∧ (∀ d, if clus d then ∀ e ∈ (v.clu d).tlb, e ∈ (s.clu d).tlb ∧ (e.ctx = (s.gang g).ctx → va ≠ BitVec.allOnes 64 ∧ e.covers e.ctx va.toNat = false)
          else (v.clu d).tlb = (s.clu d).tlb))
  ∧ (∀ (s : State) (g : GangId) (d : BitVec 6), s.cur = .a g → issues (.fbread d) s = true →
    let r := (s.countIssue (.a g)).modDie g.dieId fun x => { x with fb := x.fb.drop 1 }
    let f := s.fragment (.a g)
    let put (w0 w1 w2 w3 : DWord) : State := ((((r.writeReg (.a g) .b64 d.toNat f fun _ => w0).writeReg (.a g) .b64 (d.toNat + 1) f fun _ => w1).writeReg
      (.a g) .b64 (d.toNat + 2) f fun _ => w2).writeReg (.a g) .b64 (d.toNat + 3) f fun _ => w3).advance (.fbread d)
    let ones := BitVec.allOnes 64
    ((s.die g.dieId).fb = [] → exec (.fbread d) s = .next (put ones ones ones ones))
    ∧ (∀ x xs, (s.die g.dieId).fb = x :: xs → x.va < 2 ^ 57 → x.ctx < 2 ^ 16 → x.tag < 512 → x.lvl < 4 → x.acc < 4 → x.why < 16 → x.req < 16 → x.who < 2 ^ 12 →
      exec (.fbread d) s = .next (put 0 0 (BitVec.ofNat 64 (x.who + x.req * 2 ^ 12 + x.why * 2 ^ 16 + x.acc * 2 ^ 20 + x.lvl * 2 ^ 22
        + x.tag * 2 ^ 32 + x.ctx * 2 ^ 48)) (BitVec.ofNat 64 x.va))))
  ∧ (∀ (s : State) (g : GangId) (a : BitVec 6), s.cur = .a g → issues (.replay a) s = true →
    let r := s.countIssue (.a g)
    let tag := (leaderValue r (.a g) .b64 a.toNat).toNat % 512
    r.active (.a g) ≠ 0 →
    (∀ m, tfind tag (s.die g.dieId).merge = some m → m.state = .buffered →
      exec (.replay a) s = .next ((r.advance (.replay a)).freeMerge g.dieId tag false)
      ∧ tfind tag (((r.advance (.replay a)).freeMerge g.dieId tag false).die g.dieId).merge = none)
    ∧ ((∀ m, tfind tag (s.die g.dieId).merge = some m → m.state ≠ .buffered) → exec (.replay a) s = .next (r.advance (.replay a))))
  ∧ (∀ (s : State) (g : GangId), s.cur = .a g → issues .replayall s = true →
    ∃ v, exec .replayall s = .next v ∧ v.mem = s.mem ∧ (v.gang g).apc = (s.gang g).apc + 4
      ∧ ∀ n m, n < 512 → tfind n (v.die g.dieId).merge = some m → m.state = .walking ∨ m.state = .handler)

/-- An enq or a resumed enq for which the queue and the reserve have room, with no dequeuer waiting, appends its lanes'
values in ascending lane order with their marks and retires; with no room it waits with every lane left; to a failed queue it
discards them. deq and deqt, with an item for every active lane, take the oldest items in lane order with status 0 or 1 and
retire; a deqt of 0 with none returns status 2 at once; a failed queue gives status 4. At its deadline a waiting deqt writes
0 and status 2. A failure empties the queue and ends every blocked operation, as does clearing en; cap and ctx are written
only while en is 0; a legal reserve is stored unless scratchpad is allocated or a queue enabled; that a write above 2,048
leaves a free value of at most 2,048 is the model's choice of log entry 14. -/
def Obligations.WorkQueues : Prop :=
  (∀ (s : State) (g : GangId) (n : Nat) (items : List (Nat × Nat × Bool)),
    let x := s.die g.dieId
    let q := x.queue n
    let t := s.pushLanes g.dieId n g items
    (q.en = true → q.deqs = [] → q.items.length + items.length ≤ q.cap → x.cellsUsed + items.length ≤ x.qres * 1024 →
      ((t.die g.dieId).queue n).items = q.items ++ items.map (fun y => (BitVec.ofNat 64 y.2.1, y.2.2))
        ∧ (t.gang g).wait = none ∧ (t.gang g).apc = (s.gang g).apc + 4)
    ∧ (x.roomIn n = false → items ≠ [] → (t.gang g).wait = some (.enq n items) ∧ (t.gang g).apc = (s.gang g).apc
        ∧ ((t.die g.dieId).queue n).items = q.items ∧ g ∈ ((t.die g.dieId).queue n).enqs)
    ∧ ((s.gang g).wait = some (.enq n items) → exec (.enqLaneResume g) s = .next t))
  ∧ (∀ (s : State) (g : GangId) (b a : BitVec 6) (q : WQueue), s.cur = .a g → issues (.enq b a) s = true →
    let r := s.countIssue (.a g)
    let n := leaderValue r (.a g) .b64 a.toNat
    r.active (.a g) ≠ 0 → s.queueCheck g n = some q →
    exec (.enq b a) s = .next (if q.failed then r.advance (.enq b a) else r.pushLanes g.dieId n.toNat g ((lanesOf (s.active (.a g))).map fun l =>
      (l, (r.readReg (.a g) .b64 b.toNat l).bits.toNat, (r.readReg (.a g) .b64 b.toNat l).poison))))
  ∧ (∀ (s : State) (g : GangId) (i : Instr) (a d : BitVec 6) (q : WQueue), i = .deq a d ∨ (∃ b, i = .deqt b a d) → s.cur = .a g →
    issues i s = true →
    let r := s.countIssue (.a g)
    let n := leaderValue r (.a g) .b64 a.toNat
    let act := s.active (.a g)
    act ≠ 0 → s.queueCheck g n = some q →
    (q.failed = true → exec i s = .next ((r.writeStatus g d.toNat act 4).advance i))
    ∧ (q.failed = false → q.deqs = [] → laneCount act ≤ q.items.length → ∃ v, exec i s = .next v ∧ v.mem = s.mem
      ∧ (v.gang g).wait = none ∧ (v.gang g).apc = (s.gang g).apc + 4
      ∧ ((v.die g.dieId).queue n.toNat).items = q.items.drop (laneCount act)
      ∧ ∀ j l item, (lanesOf act)[j]? = some l → q.items[j]? = some item → (d.toNat < 48 ∨ j = 0) →
        (v.gang g).readA d.toNat l = ⟨item.1, item.2⟩ ∧ (v.gang g).readA (d.toNat + 1) l = ⟨if item.2 then 1 else 0, false⟩)
    ∧ (q.failed = false → q.deqs = [] → q.items = [] → ∀ b, (i = .deq a d ∨ i = .deqt b a d ∧ (leaderValue r (.a g) .b64 b.toNat).toNat ≠ 0
        ∧ (s.pkg g.pkg).time < 2 ^ 64 - 1) →
      ∃ v dl, exec i s = .next v ∧ (v.gang g).wait = some (.deq n.toNat act d.toNat dl) ∧ (v.gang g).apc = (s.gang g).apc
        ∧ ((v.die g.dieId).queue n.toNat).deqs = [g] ∧ (dl = none ↔ i = .deq a d))
    ∧ (q.failed = false → q.deqs = [] → q.items = [] → ∀ b, i = .deqt b a d → (leaderValue r (.a g) .b64 b.toNat) = 0 →
      ∃ v, exec i s = .next v ∧ (v.gang g).wait = none ∧ (v.gang g).apc = (s.gang g).apc + 4
        ∧ ∀ l, act.getLsbD l = true → (v.gang g).readA d.toNat l = ⟨0, false⟩ ∧ (v.gang g).readA (d.toNat + 1) l = ⟨2, false⟩))
  ∧ (∀ (s : State) (g : GangId) (n : Nat) (lanes : Word) (d t : Nat), (s.gang g).wait = some (.deq n lanes d (some t)) →
    (t ≤ (s.pkg g.pkg).time → exec (.deqtTimeout g) s = .next ((s.writeStatus g d lanes 2).retireQueue g.dieId n g))
    ∧ ((s.pkg g.pkg).time < t → exec (.deqtTimeout g) s = .next s))
  ∧ (∀ (s : State) (d : DieId) (n : Nat),
    let q := (s.die d).queue n
    ∃ t, exec (.queueFailure d n) s = .next t ∧ t.mem = s.mem ∧ (t.die d).queue n = { q with items := [], deqs := [], enqs := [], failed := true }
      ∧ ∀ g ∈ q.deqs ++ q.enqs, (t.gang g).wait = none)
  ∧ (∀ (s : State) (d : DieId) (n : Nat) (v : DWord), exec (.queueTableWrite d n true v) s = .next s
    ∧ (256 ≤ n → exec (.queueTableWrite d n false v) s = .next s)
    ∧ (n < 256 → ∃ t, exec (.queueTableWrite d n false v) s = .next t ∧ t.mem = s.mem
      ∧ let q := (s.die d).queue n
        let w := (t.die d).queue n
        w.en = v.getLsbD 0 ∧ w.failed = (q.failed && !v.getLsbD 1)
        ∧ (q.en = true → w.cap = q.cap ∧ w.ctx = q.ctx)
        ∧ (q.en = false → w.cap = v.toNat / 2 ^ 48 ∧ w.ctx = v.toNat / 2 ^ 16 % 2 ^ 16)
        ∧ (if q.en = true ∧ v.getLsbD 0 = false then w.items = [] ∧ w.deqs = [] ∧ w.enqs = [] ∧ ∀ g ∈ q.deqs ++ q.enqs, (t.gang g).wait = none
            else w.items = q.items)))
  ∧ (∀ (s : State) (d : DieId) (v : DWord), ∃ t, exec (.qresWrite d v) s = .next t ∧ t.mem = s.mem
    ∧ let busy := (∃ a ∈ (s.die d).allocs, a.size ≠ 0) ∨ ∃ q ∈ (s.die d).queues, q.2.en = true
      (busy → (t.die d).qres = (s.die d).qres) ∧ (¬ busy → (t.die d).qres ≤ 2048)
      ∧ (¬ busy → v.toNat % 2 ^ 12 ≤ 2048 → (t.die d).qres = v.toNat % 2 ^ 12))

/-- tmwait retires at once when the time base has reached its time and otherwise waits, and ends when it is reached. ctxsv,
with no save or restore in progress or held and an address that passes, writes imgaddr, starts the save of its own context
and stops its issue; ctxld of a readable complete image of a context with no units, with none in progress or held and its
header's place not being zeroed or moved, starts its restore. rtcore and rtclu of a core or cluster that holds nothing retire
it, with full set or out of service, and with act return one that is retired; skrd writes the skew state; replan asks for a
re-plan of its own launch or of one of its context. Each moves past itself. That act on a unit that is not retired has no
effect, that a retired spare passes no number on, and which number and role a returned cluster takes are the model's choices
of log entry 21 (its 0 for a spare that of log entry 2). -/
def Obligations.PackageInstructions : Prop :=
  (∀ (s : State) (a : BitVec 6), issues (.tmwait a) s = true →
    let u := s.cur
    let r := s.countIssue u
    let v := (leaderValue r u .b64 a.toNat).toNat
    exec (.tmwait a) s = .next (if r.active u = 0 ∨ v ≤ (s.pkg (unitPkg u)).time then r.advance (.tmwait a) else r.setWait u (some (.tmwait v))))
  ∧ (∀ (s : State) (u : UnitId) (v : Nat), s.waitOf u = some (.tmwait v) →
    exec (.tmwaitExpiry u) s = .next (if v ≤ (s.pkg (unitPkg u)).time then s.retire u else s))
  ∧ (∀ (s : State) (g : GangId) (a : BitVec 6), s.cur = .a g → issues (.ctxsv a) s = true →
    let r := s.countIssue (.a g)
    let v := leaderValue r (.a g) .b64 a.toNat
    let ctx := (s.gang g).ctx
    let x := s.pkg g.pkg
    r.active (.a g) ≠ 0 → x.cstate ≠ 1 → x.cstate ≠ 3 → x.heldPre = [] → 1 ≤ ctx → ctx ≤ 4095 →
    saveFault v.toNat (r.lengthNow g.pkg ctx) (x.durable ctx) = false →
    ∃ t, exec (.ctxsv a) s = .next t ∧ t.mem = s.mem ∧ (t.gang g).apc = (s.gang g).apc + 4 ∧ (t.gang g).preempted = true
      ∧ (t.pkg g.pkg).imgaddr = v ∧ (t.pkg g.pkg).cstate = 1 ∧ (t.pkg g.pkg).cctx = ctx
      ∧ ((t.pkg g.pkg).saving.map fun sv => (sv.ctx, sv.addr, sv.durable)) = some (ctx, v.toNat, x.durable ctx))
  ∧ (∀ (s : State) (g : GangId) (a : BitVec 6) (sv : Saved), s.cur = .a g → issues (.ctxld a) s = true →
    let r := s.countIssue (.a g)
    let v := leaderValue r (.a g) .b64 a.toNat
    r.active (.a g) ≠ 0 → (s.pkg g.pkg).cstate ≠ 1 → (s.pkg g.pkg).cstate ≠ 3 →
    (s.pkg g.pkg).heldPre = [] → s.placeWaits (hbmKey g.pkg v.toNat) 128 = false → s.readHeader g.pkg v.toNat = some sv →
    r.ctxGangs g.pkg sv.ctx = [] → s.ctxCtls g.pkg sv.ctx = [] →
    exec (.ctxld a) s = .next ((r.advance (.ctxld a)).modPkg g.pkg fun x =>
      { x with cstate := 3, cctx := sv.ctx, restoring := some { image := sv } }))
  ∧ (∀ (s : State) (g : GangId) (a : BitVec 6), s.cur = .a g → issues (.rtcore a) s = true →
    let r := s.countIssue (.a g)
    let v := (leaderValue r (.a g) .b64 a.toNat).toNat
    let c : CoreId := ⟨g.pkg, v % 16, v / 16 % 64, v / 2 ^ 10 % 8⟩
    r.active (.a g) ≠ 0 → v < 2 ^ 14 → v % 16 ≤ 11 → v / 16 % 64 ≤ 33 →
    (v / 2 ^ 13 = 0 → (s.core c).retired = false → r.coreHeld c = false →
      exec (.rtcore a) s = .next ((r.modCore c fun x => { x with full := true, retired := true }).advance (.rtcore a)))
    ∧ (v / 2 ^ 13 = 0 → (s.core c).retired = true → exec (.rtcore a) s = .next (r.advance (.rtcore a)))
    ∧ (v / 2 ^ 13 = 0 → (s.core c).retired = false → r.coreHeld c = true → ∃ t, exec (.rtcore a) s = .next t ∧ (t.core c).full = true ∧ t.gangs = s.gangs ∧ t.mem = s.mem)
    ∧ (v / 2 ^ 13 = 1 → ∃ t, exec (.rtcore a) s = .next t ∧ t.mem = s.mem ∧ (t.gang g).apc = (s.gang g).apc + 4
      ∧ t.core c = if (s.core c).retired then { s.core c with retired := false, full := false, flagged := false, corr := 0, poison := 0, mism := 0 } else s.core c))
  ∧ (∀ (s : State) (g : GangId) (a : BitVec 6), s.cur = .a g → issues (.rtclu a) s = true →
    let r := s.countIssue (.a g)
    let v := (leaderValue r (.a g) .b64 a.toNat).toNat
    let d : DieId := ⟨g.pkg, v % 16⟩
    let p := v / 16 % 64
    let m := (s.die d).remapOf p
    r.active (.a g) ≠ 0 → v < 2 ^ 14 → v % 16 ≤ 11 → p ≤ 33 → v / 2 ^ 10 % 8 = 0 →
    (v / 2 ^ 13 = 0 → m.active = false → m.spare = true → (s.die d).retiring = [] → r.cluBusy ⟨g.pkg, v % 16, p⟩ = false →
      ∃ t, exec (.rtclu a) s = .next t ∧ t.mem = s.mem ∧ (t.gang g).apc = (s.gang g).apc + 4
        ∧ (t.die d).remapOf p = { m with active := false, spare := false } ∧ (t.die d).retiring = []
        ∧ ∀ q, q ≠ p → (t.die d).remapOf q = (s.die d).remapOf q)
    ∧ (v / 2 ^ 13 = 0 → m.active = true → (s.die d).retiring = [] → r.cluBusy ⟨g.pkg, v % 16, p⟩ = false → ∀ q,
      (List.range 34).find? (fun q => q != p && ((s.die d).remapOf q).spare) = some q →
      ∃ t, exec (.rtclu a) s = .next t ∧ t.mem = s.mem ∧ (t.gang g).apc = (s.gang g).apc + 4
        ∧ ((t.die d).remapOf p).active = false ∧ ((t.die d).remapOf p).spare = false
        ∧ (t.die d).remapOf q = { (s.die d).remapOf q with active := true, spare := false, logical := m.logical })
    ∧ (v / 2 ^ 13 = 1 → (m.active = true ∨ m.spare = true) → exec (.rtclu a) s = .next (r.advance (.rtclu a)))
    ∧ (v / 2 ^ 13 = 1 → m.active = false → m.spare = false → (s.die d).retiring = [] →
      let n := (s.die d).activeCount
      ∃ t, exec (.rtclu a) s = .next t ∧ t.mem = s.mem ∧ (t.gang g).apc = (s.gang g).apc + 4
        ∧ (t.die d).remapOf p = ⟨decide (n < 32), decide (32 ≤ n), false, if n < 32 then n else 0⟩))
  ∧ (∀ (s : State) (g : GangId) (d : BitVec 6), s.cur = .a g → issues (.skrd d) s = true →
    let x := s.launch g.pkg (s.gang g).launch
    exec (.skrd d) s = .next (((s.countIssue (.a g)).writeReg (.a g) .b64 d.toNat (s.active (.a g)) fun _ =>
      BitVec.ofNat 64 (min x.spread (2 ^ 32 - 1) + x.ended % 2 ^ 16 * 2 ^ 32 + if x.replan then 2 ^ 63 else 0)).advance (.skrd d)))
  ∧ (∀ (s : State) (g : GangId) (a : BitVec 6), s.cur = .a g → issues (.replan a) s = true →
    let r := s.countIssue (.a g)
    let h := leaderValue r (.a g) .b64 a.toNat
    r.active (.a g) ≠ 0 →
    (h = 0 → exec (.replan a) s = .next ((r.requestReplan g.pkg (s.gang g).launch (s.launch g.pkg (s.gang g).launch).status).advance (.replan a)))
    ∧ (∀ l, h ≠ 0 → (s.pkg g.pkg).launches.find? (fun l => l.2.ctx == (s.gang g).ctx && l.2.status == h) = some l →
      exec (.replan a) s = .next ((r.requestReplan g.pkg l.1 h).advance (.replan a)))
    ∧ (h ≠ 0 → (s.pkg g.pkg).launches.find? (fun l => l.2.ctx == (s.gang g).ctx && l.2.status == h) = none →
      exec (.replan a) s = .next (r.raiseAt (.a g) 9 31 h)))

/-- A remote load, store or reduction, a multicast store or atomic, raises the detail of its lowest failing lane with every
failing lane; otherwise, with nothing of R455 and R456 before it and no local access to the same bytes of the own package
(log entry 24), every active lane is sent as one message, or every group's lanes as one batch, in lane order (that one
instruction's lanes for a group go as one batch is the model's reading of log entry 25). A write adds its bytes to the
pending-byte counter, and each moves past itself; an mcst's batch carries the register that awaits its sequences. mcwait of a
group that has joined and not failed retires once the applied sequence meets its target, with no line of the window, nor any
bound line of the context, left in the core's L1, and otherwise waits; of any other group it raises detail 37 with the
group's number. That no bound line stays is no rule's words: it is the model's inference from R241 (mcwait pairs in every
O-before relation) with R229 and R232. Memory is as before. -/
def Obligations.FabricInstructions : Prop :=
  (∀ (i : Instr) (s : State) (g : GangId) (x : RemoteShape), remoteShape i = some x → s.cur = .a g → issues i s = true →
    let act := s.active (.a g)
    let ls := lanesOf act
    let addr (n : Nat) : Nat := laneNum s g x.a.toNat n
    let dst (n : Nat) : Nat := laneNum s g (x.a.toNat + 1) n
    let detail (n : Nat) : Option Nat := if 2 ^ 57 ≤ addr n ∨ 2 ^ 10 ≤ dst n then some 32 else if addr n % x.size ≠ 0 then some 33 else none
    (∀ n d, n < 32 → act.getLsbD n = true → (∀ m, m < n → act.getLsbD m = true → detail m = none) → detail n = some d →
      exec i s = .next ((s.countIssue (.a g)).raise (.a g) ⟨9, d, BitVec.ofNat 64 (addr n), laneMask (ls.filter fun m => (detail m).isSome), false, 4⟩))
    ∧ ((∀ n ∈ ls, detail n = none ∧ s.remoteOverlap g (dst n) (addr n) x.size = false
        ∧ s.ownOverlap g (dst n) (addr n) x.size = false) → (x.kind ≠ .load → s.portHeld g = false) →
      (x.kind = .load → s.feWaits g = false) → s.fenceOpen g (s.gang g).era = false → ∃ t, exec i s = .next t ∧ t.mem = s.mem ∧ (t.gang g).apc = (s.gang g).apc + 4
        ∧ (t.gang g).pending = (s.gang g).pending + (if x.kind = .load then 0 else BitVec.ofNat 64 (x.size * ls.length))
        ∧ t.msgs.map (·.2) = s.msgs.map (·.2) ++ ls.map (fun n => Msg.remote
          { gang := g, ctx := (s.gang g).ctx, sup := (s.gang g).mode != .user, dst := dst n, kind := x.kind, size := x.size, op := x.op
            ty := x.ty, addr := addr n, data := x.data s g n, poison := false, lane := n
            dreg := if 48 ≤ x.d ∧ lowestLane act ≠ some n then 64 else x.d, served := false, lost := false, era := (s.gang g).era, first := s.nextId })))
  ∧ (∀ (i : Instr) (s : State) (g : GangId) (x : MulticastShape), multicastShape i = some x → s.cur = .a g → issues i s = true →
    let act := s.active (.a g)
    let ls := lanesOf act
    let addr (n : Nat) : Nat := laneNum s g x.a.toNat n
    let entry (n : Nat) : Group := s.group g.pkg (windowGroup (addr n))
    let detail (n : Nat) : Option Nat :=
      if windowOffset (addr n) % x.size ≠ 0 then some 33
      else if 2 ^ 44 ≤ addr n ∨ (entry n).en = false ∨ (entry n).ctx ≠ (s.gang g).ctx ∨ (entry n).wlen * 2 ^ 16 < windowOffset (addr n) + x.size
        then some 34 else none
    (∀ n d, n < 32 → act.getLsbD n = true → (∀ m, m < n → act.getLsbD m = true → detail m = none) → detail n = some d →
      exec i s = .next ((s.countIssue (.a g)).raise (.a g) ⟨9, d, BitVec.ofNat 64 (addr n), laneMask (ls.filter fun m => (detail m).isSome), false, 4⟩))
    ∧ ((∀ n ∈ ls, detail n = none ∧ (entry n).state ≠ 5 ∧ s.windowOverlap g (windowGroup (addr n)) (windowOffset (addr n)) x.size = false) → s.portHeld g = false → ls ≠ [] → ∃ t, exec i s = .next t ∧ t.mem = s.mem
      ∧ (t.gang g).pending = (s.gang g).pending + BitVec.ofNat 64 (x.size * ls.length)
      ∧ (t.gang g).apc = (s.gang g).apc + 4
      ∧ t.msgs.map (·.2) = s.msgs.map (·.2) ++ (groupsOf (ls.map fun n => windowGroup (addr n))).map (fun q => Msg.batch
        { gang := some g, group := q, dreg := x.d, held := false, sup := (s.gang g).mode != .user, era := (s.gang g).era
          share := match x.d with
            | some d => s.laneShare g d (laneMask ls)
            | none => 0
          items := (ls.filter fun n => windowGroup (addr n) == q).map fun n => (n, x.act s g (windowOffset (addr n)) n, x.size) }))
    ∧ (ls = [] → exec i s = .next ((s.countIssue (.a g)).addPending g 0 |>.advance i)))
  ∧ (∀ (s : State) (g : GangId) (b a : BitVec 6), s.cur = .a g → issues (.mcwait b a) s = true →
    let r := s.countIssue (.a g)
    let v := leaderValue r (.a g) .b64 a.toNat
    let n := v.toNat % 2 ^ 12
    let target := (leaderValue r (.a g) .b64 b.toNat).toNat % 2 ^ 48
    let e := s.group g.pkg n
    r.active (.a g) ≠ 0 →
    (e.state = 0 ∨ e.state = 1 ∨ e.state = 5 → exec (.mcwait b a) s = .next (r.raiseAt (.a g) 9 37 (BitVec.ofNat 64 n)))
    ∧ (e.state ≠ 0 → e.state ≠ 1 → e.state ≠ 5 → ∃ t, exec (.mcwait b a) s = .next t ∧ t.mem = s.mem
      ∧ (if target = 0 ∨ (e.applied % 2 ^ 48 + 2 ^ 48 - target) % 2 ^ 48 < 2 ^ 47
          then (t.gang g).apc = (s.gang g).apc + 4 ∧ (t.gang g).wait = none
            ∧ ∀ y ∈ (t.core g.coreId).l1d, y.ctx = (s.gang g).ctx →
              (64 * (y.vsec / 4) < e.wva * 2 ^ 16 ∨ e.wva * 2 ^ 16 + e.wlen * 2 ^ 16 ≤ 64 * (y.vsec / 4))
              ∧ ∀ x ∈ s.bindingsOf (s.gang g).ctx, 64 * (y.vsec / 4) < x.base ∨ x.base + x.len ≤ 64 * (y.vsec / 4)
          else (t.gang g).apc = (s.gang g).apc ∧ (t.gang g).wait = some (.mcwait n target))))

/-- With an active lane and a handle of an enabled phaser of the agent's context, and with the role that R450 asks for,
phjoin inside the root's subtree sends its membership change and waits, phleave of a registrant waits likewise, and phleave
of none moves on. phsig, phsigbnd and phany, with no signal held, nothing bound outstanding and for a .bnd form no local
access outstanding, raise the registration's next phase, send or hold the signal, and move on; phsw and phswbnd signal and
wait. phwait of a complete phase retires and otherwise waits. On a failed phaser each moves on. phfind writes the finder's
value, or 0, and the entry's state, with its top bit set for an agent that holds any registration, a proxy's included. A bad
handle raises detail 35. That no role is checked on a failed phaser, and that phsigbnd moves on while its signal is still
held, are the model's readings of log entry 31. -/
def Obligations.PhaserInstructions : Prop :=
  (∀ (s : State) (i : Instr) (a : BitVec 6), (i = .phleave a ∨ i = .phsig a ∨ i = .phsigBnd a ∨ (∃ b, i = .phwait b a ∨ i = .phsw b a ∨ i = .phswBnd b a
      ∨ i = .phany b a) ∨ (∃ d, i = .phfind a d) ∨ ∃ b, i = .phjoin b a ∧ joinFault (leaderValue s s.cur .b64 b.toNat) (s.countIssue s.cur) s.cur (handleName (leaderValue s s.cur .b64 a.toNat)) = none) →
    issues i s = true →
    let u := s.cur
    let h := leaderValue s u .b64 a.toNat
    s.active u ≠ 0 →
    (s.phaserBad u h = true → exec i s = .next ((s.countIssue u).raise u ⟨9, 35, h, s.active u, false, 4⟩))
    ∧ (s.phaserBad u h = false → (s.phaser (agentDie u).pkg (handleName h)).failed = true → (∀ d, i ≠ .phfind a d) →
      exec i s = .next ((s.countIssue u).advance i)))
  ∧ (∀ (s : State) (i : Instr) (a : BitVec 6), (∃ b, i = .phjoin b a) ∨ i = .phleave a ∨ i = .phsig a ∨ i = .phsigBnd a
      ∨ (∃ b, i = .phwait b a ∨ i = .phsw b a ∨ i = .phswBnd b a ∨ i = .phany b a) → issues i s = true →
    let u := s.cur
    let r := s.countIssue u
    let h := leaderValue s u .b64 a.toNat
    let n := handleName h
    let p := (agentDie u).pkg
    let value (b : BitVec 6) : DWord := leaderValue s u .b64 b.toNat
    s.active u ≠ 0 → s.phaserBad u h = false → (s.phaser p n).failed = false →
    (∀ b, i = .phjoin b a → joinFault (value b) r u n = none → (s.phaser p n).inside (agentDie u) = true →
      ((value b).toNat ≤ 2 ∨ ∃ w k, r.reachObject u (value b) .load = .go w k) →
      ∃ t, exec i s = .next t ∧ t.mem = s.mem ∧ t.waitOf u = some (.join n none) ∧ t.pc u = s.pc u
        ∧ t.msgs = s.msgs ++ [(s.nextId, .change ⟨n, u, true, if (value b).toNat ≤ 2 then (value b).toNat else 3,
            if (value b).toNat ≤ 2 then 0 else value b, false, .die (agentDie u), none⟩)])
    ∧ (i = .phleave a → (∀ x ∈ s.regsOf u, x.phaser ≠ n) → exec i s = .next (r.advance i))
    ∧ (i = .phleave a → (∃ x ∈ s.regsOf u, x.phaser = n) → s.releaseWaits u h = false →
      ∃ t, exec i s = .next t ∧ t.mem = s.mem ∧ t.waitOf u = some (.leave n) ∧ t.pc u = s.pc u
        ∧ t.msgs = s.msgs ++ [(s.nextId, .change ⟨n, u, false, 0, 0, false, .die (agentDie u), none⟩)])
    ∧ (∀ x q, s.ownReg u n = some x → (∀ y ∈ s.heldOf u, y.phaser = n → y.proxy ≠ 0) → s.releaseWaits u h = false → x.signals = true →
      (∀ f, (i = .phsig a ∧ f = none) ∨ (∃ b, i = .phany b a ∧ f = some (value b) ∧ (s.phaser p n).anyof = true) →
        exec i s = .next ((r.signal u x false f).advance i))
      ∧ (i = .phsigBnd a → s.boundWaits u true = false → exec i s = .next ((r.signal u x true none).advance i))
      ∧ (∀ b c, x.waits = true → (i = .phsw b a ∧ c = false) ∨ (i = .phswBnd b a ∧ c = true) → s.boundWaits u c = false → q = (value b).truncate 32 →
        exec i s = .next (((r.signal u x c none).setWait u (some (.phwait n q true))).endPhWait u n)))
    ∧ (∀ b x q, i = .phwait b a → s.ownReg u n = some x → x.waits = true → q = (value b).truncate 32 →
      ∃ t, exec i s = .next t ∧ t.mem = s.mem
        ∧ (if ((s.weir (.die (agentDie u)) n).phase - 1 - q).toNat < 2 ^ 31 then t.pc u = s.pc u + 4 ∧ t.waitOf u = none
            else t.pc u = s.pc u ∧ t.waitOf u = some (.phwait n q false))))
  ∧ (∀ (s : State) (u : UnitId) (r : PhReg) (bnd : Bool) (f : Option DWord), r ∈ s.regsOf u →
    let t := s.signal u r bnd f
    t.mem = s.mem ∧ t.pc u = s.pc u ∧ { r with next := r.next + 1 } ∈ t.regsOf u
    ∧ (bnd = true → s.pendingOf u ≠ 0 → t.heldOf u = s.heldOf u ++ [⟨r.phaser, r.next, bnd, f, true, r.proxy⟩] ∧ t.msgs = s.msgs)
    ∧ (bnd = false ∨ s.pendingOf u = 0 → phaseDone (s.weir (.die (agentDie u)) r.phaser).phase (r.next - 1) = true →
      t.heldOf u = s.heldOf u ∧ t.msgs = s.msgs ++ [(s.nextId, .arrival ⟨r.phaser, .die (agentDie u), r.next, bnd,
        f.map fun v => (v, s.identity u (r.proxy != 0)), r.proxy != 0, none, some u⟩)])
    ∧ (bnd = false ∨ s.pendingOf u = 0 → phaseDone (s.weir (.die (agentDie u)) r.phaser).phase (r.next - 1) = false →
      t.heldOf u = s.heldOf u ++ [⟨r.phaser, r.next, bnd, f, false, r.proxy⟩] ∧ t.msgs = s.msgs))
  ∧ (∀ (s : State) (a d : BitVec 6), issues (.phfind a d) s = true →
    let u := s.cur
    let h := leaderValue s u .b64 a.toNat
    let x := s.phaser (agentDie u).pkg (handleName h)
    s.active u ≠ 0 → s.phaserBad u h = false →
    exec (.phfind a d) s = .next ((((s.countIssue u).writeReg u .b64 d.toNat (s.active u) fun _ => if x.fnd then x.fval else 0).writeReg u .b64
      (d.toNat + 1) (s.active u) fun _ => BitVec.ofNat 64 (x.done.toNat + (x.fid.toNat % 2 ^ 28) * 2 ^ 32 + (if x.fnd then 2 ^ 60 else 0)
        + (if x.bnd then 2 ^ 61 else 0) + (if x.failed then 2 ^ 62 else 0)
        + if (s.regsOf u).any (fun r => r.phaser == handleName h) then 2 ^ 63 else 0)).advance (.phfind a d)))

/-- With a free place in the queue and unpoisoned captures, mma and mmaz of a permitted pairing with tiles of matching legal
shape, azero, acvt, pmapply with a permutation nothing queued still writes, lup, chol, qrh and trsm of legal tiles each enter
the queue with what they captured and move past themselves; with four queued each changes nothing. tpin of a legal operand
tile of at most 256 rows, with a block of a permitted pairing, hands its lines to the fetch unit; awt returns once done has
reached its value or the queue is empty and otherwise waits; gerd writes the estimate that nothing queued still writes. A
tile with a reserved bit raises detail 13 with its number: the first tile of every instruction, and the second or third where
the tiles before it and the sizes pass; so does a tpin tile of more than 256 rows. -/
def Obligations.AnvilInstructions : Prop :=
  ∀ (s : State) (c : CluId), s.cur = .m c →
    let k := (s.clu c).ctl
    let clsz := (s.cluAlloc c).size
    let own (o : AnvilOp) : AnvilEntry := { op := o, pc := k.pc, sup := k.mode != .user }
    let tile (n : BitVec 4) (rank : Nat) (t : RawTile) : Prop := s.readTile c n.toNat rank = (t, false)
    let block (x : BitVec 3) (b : Block) : Prop := s.readBlock c x.toNat = (⟨x.toNat, false, b⟩, false)
    let lens (code len : Nat) : Prop := len = if isTs code then 1 else 0
    let size (x : BitVec 3) : Nat := if x.getLsbD 2 then 8 else 4
    let bad (t : BitVec 4) : State := s.raise (.m c) ⟨9, 13, BitVec.ofNat 64 t.toNat, 1, false, 4⟩
    (∀ i, (∃ t y z x m, i = .mma t y z x m ∨ i = .mmaz t y z x m) ∨ (∃ t, i = .azero t) ∨ (∃ t y x, i = .acvt t y x ∨ i = .qrh t y x)
        ∨ (∃ t x, i = .pmapply t x ∨ i = .lup t x ∨ i = .chol t x) ∨ (∃ t y f x, i = .trsm t y f x) →
      issues i s = true → 4 ≤ k.queue.length → exec i s = .next s)
    ∧ (k.queue.length < 4 →
      (∀ i zero t y z x m tx ty tz b kd f, i = (if zero then .mmaz t y z x m else .mma t y z x m) → issues i s = true →
        tile t 0 tx → tile y 1 ty → tile z 2 tz → block x b → pairing b.afmt b.bfmt = some (kd, f) → lens b.afmt b.ablen → lens b.bfmt b.bblen →
        let steps := (k.readM m.toNat).bits.toNat
        steps ≠ 0 → ty.cols = steps * kd → tz.cols = steps * kd → tx.rows = ty.rows → tx.cols = tz.rows → tx.rows ≤ 128 → tx.cols ≤ 256 →
        tx.sp = false → ty.sp = false → tx.Legal clsz (tx.cols * elemBytes f) 64 → ty.OperandLegal clsz b.afmt b.ascale false →
        tz.OperandLegal clsz b.bfmt b.bscale b.bsp →
        ∃ u, exec i s = .next u ∧ s.queued u c { own (.mma zero) with x := tx.tile, y := ty.tile, z := tz.tile, blk := b, steps := steps })
      ∧ (∀ t tx, issues (.azero t) s = true → tile t 0 tx → tx.rows ≤ 128 → tx.cols ≤ 512 → tx.sp = false → tx.Legal clsz (4 * tx.cols) 64 →
        ∃ u, exec (.azero t) s = .next u ∧ s.queued u c { own .azero with x := tx.tile })
      ∧ (∀ i t tx, issues i s = true → tile t 0 tx → tx.reserved = true →
        (i = .azero t ∨ (∃ x, i = .lup t x ∨ i = .chol t x)
          ∨ (∃ x, i = .pmapply t x ∧ ∀ e ∈ k.queue, e.op.writesIndex (x.toNat % 4) = false)
          ∨ (∃ y x ty, tile y 1 ty ∧ (i = .qrh t y x ∨ (∃ f, i = .trsm t y f x) ∨ i = .acvt t y x ∧ (s.readBlock c x.toNat).2 = false))
          ∨ (∃ y z x m ty tz, tile y 1 ty ∧ tile z 2 tz ∧ (s.readBlock c x.toNat).2 = false ∧ (i = .mma t y z x m ∨ i = .mmaz t y z x m))) →
        exec i s = .next (bad t))
      ∧ (∀ i t y x tx ty, issues i s = true → tile t 0 tx → tile y 1 ty → ty.reserved = true →
        (tx.SquareLegal clsz (size x) ∧ (i = .qrh t y x ∨ ∃ f, i = .trsm t y f x)
          ∨ ∃ b, block x b ∧ i = .acvt t y x ∧ tx.rows = ty.rows ∧ tx.cols = ty.cols ∧ tx.rows ≤ 128 ∧ tx.cols ≤ 256
            ∧ tx.Legal clsz (tx.cols * elemBytes b.bfmt) 64) →
        exec i s = .next (bad y))
      ∧ (∀ i t y z x m tx ty tz b kd f, i = .mma t y z x m ∨ i = .mmaz t y z x m → issues i s = true → tile t 0 tx → tile y 1 ty → tile z 2 tz →
        block x b → pairing b.afmt b.bfmt = some (kd, f) → tx.rows = ty.rows → tx.cols = tz.rows → tx.rows ≤ 128 → tx.cols ≤ 256 →
        tx.Legal clsz (tx.cols * elemBytes f) 64 →
        let steps := (k.readM m.toNat).bits.toNat
        (ty.reserved = true → exec i s = .next (bad y))
        ∧ (steps ≠ 0 → ty.cols = steps * kd → ty.OperandLegal clsz b.afmt b.ascale false → tz.reserved = true → exec i s = .next (bad z)))
      ∧ (∀ t y x tx ty b, issues (.acvt t y x) s = true → tile t 0 tx → tile y 1 ty → block x b → isAcc b.bfmt = true → b.afmt ≤ 10 → b.rnd ≤ 4 →
        b.bblen = 0 → lens b.afmt b.ablen → tx.rows = ty.rows → tx.cols = ty.cols → tx.rows ≤ 128 → tx.cols ≤ 256 → tx.sp = false →
        ty.sp = false → tx.Legal clsz (tx.cols * elemBytes b.bfmt) 64 → ty.OutLegal clsz b.afmt b.ascale →
        ∃ u, exec (.acvt t y x) s = .next u ∧ s.queued u c { own .acvt with x := tx.tile, y := ty.tile, blk := b })
      ∧ (∀ t x tx, issues (.pmapply t x) s = true → tile t 0 tx →
        let j := x.toNat % 4
        let wide := tget j false k.pmw
        let n := if x.getLsbD 2 then tx.cols else tx.rows
        (∀ e ∈ k.queue, e.op.writesIndex j = false) → n ≤ 128 → (if x.getLsbD 2 then tx.rows ≤ 128 else tx.cols ≤ 256) →
        (∀ q, q < n → q ∈ (k.perm j).take n) → tx.sp = false → tx.Legal clsz (tx.cols * if wide then 8 else 4) 16 →
        ∃ u, exec (.pmapply t x) s = .next u
          ∧ s.queued u c { own (.pmapply j (x.getLsbD 2)) with x := tx.tile, perm := k.perm j, wide := wide })
      ∧ (∀ i o t x tx, (i = .lup t x ∧ o = .lup (x.toNat % 4) (x.getLsbD 2)) ∨ (i = .chol t x ∧ o = .chol (x.toNat % 4) (x.getLsbD 2)) →
        issues i s = true → tile t 0 tx → tx.SquareLegal clsz (size x) →
        ∃ u, exec i s = .next u ∧ s.queued u c { own o with x := tx.tile, steps := tx.rows })
      ∧ (∀ t y x tx ty, issues (.qrh t y x) s = true → tile t 0 tx → tile y 1 ty → tx.SquareLegal clsz (size x) → ty.rows = 1 →
        ty.cols = tx.cols → ty.sp = false → ty.Legal clsz (ty.cols * size x) 16 →
        ∃ u, exec (.qrh t y x) s = .next u
          ∧ s.queued u c { own (.qrh (x.toNat % 4) (x.getLsbD 2)) with x := tx.tile, y := ty.tile, steps := tx.rows })
      ∧ (∀ t y f x tx ty, issues (.trsm t y f x) s = true → tile t 0 tx → tile y 1 ty → tx.SquareLegal clsz (size x) → ty.sp = false →
        (if f.getLsbD 0 then ty.cols = tx.rows ∧ ty.rows ≤ 128 else ty.rows = tx.rows ∧ ty.cols ≤ 256) → ty.Legal clsz (ty.cols * size x) 16 →
        ∃ u, exec (.trsm t y f x) s = .next u
          ∧ s.queued u c { own (.trsm (x.toNat % 4) (x.getLsbD 2) (!f.getLsbD 0) (f.getLsbD 1) (f.getLsbD 2)) with
              x := tx.tile, y := ty.tile, steps := tx.rows }))
    ∧ (∀ t x tx b, issues (.tpin t x) s = true → tile t 0 tx → block x b → (pairing b.afmt b.bfmt).isSome = true → lens b.afmt b.ablen → lens b.bfmt b.bblen →
      tx.OperandLegal clsz b.bfmt b.bscale b.bsp → tx.rows ≤ 256 →
      ∃ u, exec (.tpin t x) s = .next u ∧ u.mem = s.mem ∧ (u.clu c).ctl.pc = k.pc + 4 ∧ (u.clu c).ctl.queue = k.queue
        ∧ ∃ ls, (u.clu c).ctl.tpins = k.tpins ++ ls
          ∧ ∀ l p n, (l, p, n) ∈ ls ↔ tx.sp = true ∧ l ∈ operandLines tx.tile b 0 tx.cols ∧ p = (k.mode != .user) ∧ n = k.issued)
    ∧ (∀ t x tx, issues (.tpin t x) s = true → tile t 0 tx → (s.readBlock c x.toNat).2 = false → tx.reserved = true ∨ 256 < tx.rows →
      exec (.tpin t x) s = .next (bad t))
    ∧ (∀ m, issues (.awt m) s = true →
      let v := (k.readM m.toNat).bits.toNat % 2 ^ 16
      exec (.awt m) s = .next (if k.queue = [] ∨ (k.done + 2 ^ 16 - v) % 2 ^ 16 < 2 ^ 15 then s.advance (.awt m) else s.setWait (.m c) (some (.awt v))))
    ∧ (∀ j m, issues (.gerd j m) s = true → (∀ e ∈ k.queue, e.op.writesIndex j.toNat = false) →
      exec (.gerd j m) s = .next ((s.writeReg (.m c) .b64 m.toNat 1 fun _ => (tget j.toNat 0 k.ge).zeroExtend 64).advance (.gerd j m)))

/-- A load, store or atomic in flight whose lanes all have their places and that something earlier holds back changes nothing
(one of a restored gang that lacks a place looks for it again and changes no memory and no register); one of a single lane
that is free and whose place can be accessed leaves flight: the load's value, extended by its size code and with its mark, is
in its register, the store's bytes are at their place, the atomic's old value is in its register and its new value in memory.
A full-empty load of a gang that is not pre-empted is served when its granules are full and earlier waiters on them served,
and the clearing one empties them. A held store whose queue has its entries, whose two computations agree and which meets no
fabric access to its bytes of the own package, takes them and is sent; a marked entry is consumed instead, with the store and
its entries left in place. gsync retires both slices together, whatever accesses are outstanding. A dropped monitor wakes its
fragment. A waiting acq of an agent that no pre-emption has stopped, behind no store of its core in flight, and cwait are
evaluated again, and a cwait whose word a write has met without a mark returns. -/
def Obligations.MemoryEvents : Prop :=
  (∀ (s : State) (n : Nat) (a : Access), s.flight.find? (fun x => x.id == n) = some a → (∃ l ∈ a.lanes, l.pa = none) →
    ∀ i, i = .loadDataReturn n ∨ i = .storeAck n → ∃ t, exec i s = .next t ∧ t.mem = s.mem ∧ t.gangs = s.gangs)
  ∧ (∀ (s : State) (n : Nat) (a : Access), s.flight.find? (fun x => x.id == n) = some a → (∀ l ∈ a.lanes, l.pa ≠ none) →
    (a.kind = .load → a.lanes ≠ [] → s.freeToGo a = false → exec (.loadDataReturn n) s = .next s)
    ∧ (a.kind = .store ∨ a.kind = .storeFe ∨ a.kind = .atomic → s.freeToGo a = false → exec (.storeAck n) s = .next s)
    ∧ (∀ l d, a.kind = .load → a.lanes = [l] → a.got = [] → l.lane < 32 → a.dest = .reg d → a.size ≠ 16 → s.freeToGo a = true →
      s.placeWaits l.key a.size = false → a.sup = ((s.gang a.gang).mode != .user) →
      let r : State := { s with clock := s.clock + 1 }
      ∃ t, exec (.loadDataReturn n) s = .next t ∧ t.mem = s.mem ∧ t.flight = s.flight.filter (fun x => x.id != n)
        ∧ (t.gang a.gang).readA d l.lane = ⟨extLoad a.op (r.loadLane a l).2.val, (r.loadLane a l).2.poison⟩
        ∧ (a.space ≠ .g ∨ isHbm l.key = false → (r.loadLane a l).2 = ⟨l.lane, (s.readAt l.key a.size).1, (s.readAt l.key a.size).2⟩))
    ∧ (∀ l, a.kind = .store ∨ a.kind = .storeFe → s.Inv → a.lanes = [l] → s.freeToGo a = true → s.placeWaits l.key a.size = false → isHbm l.key = true →
      ∃ t, exec (.storeAck n) s = .next t ∧ t.flight = s.flight.filter (fun x => x.id != n) ∧ t.readNum l.key a.size = l.data % 2 ^ (8 * a.size)
        ∧ (a.kind = .storeFe → l.key / 16 ∈ t.full) ∧ ∀ j, (j < l.key ∨ l.key + a.size ≤ j) → t.readByte j = s.readByte j)
    ∧ (∀ l, a.kind = .atomic → s.Inv → a.lanes = [l] → a.got = [] → l.lane < 32 → s.freeToGo a = true → s.placeWaits l.key a.size = false →
      isHbm l.key = true → a.sup = ((s.gang a.gang).mode != .user) →
      let old := s.readNum l.key a.size
      ∃ t, exec (.storeAck n) s = .next t ∧ t.flight = s.flight.filter (fun x => x.id != n)
        ∧ t.readNum l.key a.size = (atomicNew a.ty a.op old l.data l.cmp).getD old % 2 ^ (8 * a.size)
        ∧ ∀ d, a.dest = .reg d → (t.gang a.gang).readA d l.lane = ⟨extendResult .A a.ty (BitVec.ofNat 64 old), s.markedAt l.key a.size⟩)
    ∧ (∀ d, a.feLoad = true → a.lanes ≠ [] → a.dest = .reg d → s.freeToGo a = true →
      ((∃ l ∈ a.lanes, l.key / 16 ∉ s.full) → exec (.fullEmptyServe n) s = .next s)
      ∧ ((s.gang a.gang).preempted = true → exec (.fullEmptyServe n) s = .next s)
      ∧ (s.feReady a = true → (s.gang a.gang).preempted = false → ∃ t, exec (.fullEmptyServe n) s = .next t ∧ t.mem = s.mem ∧ t.flight = s.flight.filter (fun x => x.id != n)
        ∧ ∀ k, k ∈ t.full ↔ k ∈ s.full ∧ (a.kind = .loadFec → ∀ l ∈ a.lanes, l.key / 16 ≠ k))))
  ∧ (∀ (s : State) (g : GangId) (a : Access) (q : Nat) (rest : List Access),
    let x := s.gang g
    let es := (tget q [] x.sq).take (heldEntries a)
    x.preempted = false → x.hold = a :: rest → a.waitsOn = some q → es.length = heldEntries a → a.lanes ≠ [] →
    ((∃ e ∈ es, ∃ l ∈ a.lanes, (e.word l.lane).poison = true) → x.trapA = none → x.region = none → ∃ t r,
      exec (.storeHoldDataArrival g) s = .next t ∧ t.mem = s.mem ∧ t.flight = s.flight ∧ (t.gang g).hold = x.hold ∧ (t.gang g).sq = x.sq
        ∧ (t.gang g).trapA = some r ∧ r.cause = 10)
    ∧ (s.glitch = 0 → (∀ l ∈ a.lanes, l.pa ≠ none) → s.meetsOwn a = false → (∀ e ∈ es, ∀ l ∈ a.lanes, (e.word l.lane).poison = false) → ∃ t b, exec (.storeHoldDataArrival g) s = .next t ∧ t.mem = s.mem ∧ t.flight = s.flight ++ [b] ∧ b.id = a.id ∧ b.waitsOn = none
      ∧ b.lanes = a.lanes.map (fun l => { l with data := entryData es l.lane a.size })
      ∧ tget q [] (t.gang g).sq = (tget q [] x.sq).drop (heldEntries a) ∧ ∀ h ∈ (t.gang g).hold, h.id ≠ a.id))
  ∧ (∀ (s : State) (g : GangId),
    let x := s.gang g
    (x.gsA.isSome → x.gsC.isSome → x.preempted = false → x.trapA = none → x.trapC = none →
      exec (.gsyncRendezvous g) s = .next (s.setGang g { x with
        gsA := none, gsC := none, apc := x.apc + 4, cpc := x.cpc + 4, era := x.era + 1 }))
    ∧ ((x.gsA = none ∨ x.gsC = none) → exec (.gsyncRendezvous g) s = .next s))
  ∧ (∀ (s : State) (g : GangId) (e : Nat) (m : Monitor), tfind e (s.gang g).monitors = some m →
    ∃ t, exec (.monitorDrop g e) s = .next t ∧ t.mem = s.mem ∧ tfind e (t.gang g).monitors = some { m with hit := true }
      ∧ (((s.gang g).frag e).state = .parked → ((t.gang g).frag e).woken = true ∧ ((t.gang g).frag e).state ≠ .parked))
  ∧ (∀ (s : State) (u : UnitId) (k va : Nat) (h : DWord), s.waitOf u = some (.acq k va h) →
    (s.placeWaits k 8 = true ∨ s.stopped u = true → exec (.acqAttempt u) s = .next s)
    ∧ (s.Inv → s.stopped u = false → s.placeWaits k 8 = false → s.markedAt k 8 = false → isHbm k = true →
      (∀ g, u = .a g → ∀ f ∈ s.flight, f.storeOf g.coreId = false) →
      ∃ t, exec (.acqAttempt u) s = .next t ∧ t.readNum k 8 = (if s.readNum k 8 = 0 then 1 else s.readNum k 8)
        ∧ t.waitOf u = (if s.readNum k 8 = 0 then none else some (.acq k va h))))
  ∧ (∀ (s : State) (u : UnitId) (k target : Nat) (h : DWord), s.waitOf u = some (.cwait k h target) → isHbm k = true → s.placeWaits k 8 = false →
    s.markedAt k 8 = false →
    ∃ t, exec (.cwaitEvaluate u) s = .next t ∧ t.mem = s.mem
      ∧ (if s.readNum k 8 / 2 ^ 63 % 2 = 1 ∨ countMet (s.readNum k 8) target = true then t.pc u = s.pc u + 4 ∧ t.waitOf u = none
          else t.pc u = s.pc u ∧ t.waitOf u = some (.cwait k h target)))
  ∧ (∀ (s : State) (u : UnitId), s.waitOf u = some .counted →
    ∃ t, exec (.cwaitEvaluate u) s = .next t ∧ t.mem = s.mem ∧ t.pc u = s.pc u + 4 ∧ t.waitOf u = none)
  ∧ (∀ (s : State) (g : GangId) (k n a target : Nat) (h : DWord), (s.gang g).wait = some (.cwait a h target) → a < k + n → k < a + 8 →
    ((s.meetCwaits k n).gang g).wait = if s.markedAt a 8 = false ∧ (s.readNum a 8 / 2 ^ 63 % 2 = 1 ∨ countMet (s.readNum a 8) target = true) then some .counted
      else some (.cwait a h target))

/-- The fetch unit waiting for a page is idle; the first line the current k-step wants is pinned where it translates, makes
the unit wait where it has no translation, and stops the anvil with detail 4 where it may not be read (the line's address
standing for both: log entry 15). A step of the head (a k-step whose lines are pinned, a column, azero, acvt or pmapply)
reads its sectors some at a time, each as it then stands, and is computed on them: an unpoisoned k-step is to add to each
accumulator element, as it stands at that write (or to 0 at the first step of mmaz), the sum of the products, exact modulo 2
to the 32 for integers and for floats rounded once (log entry 35); a factorisation forms amax and resets its registers, and a
column meets poison, raises its detail, or has its writes in pseudocode order; azero is to write zeros, pmapply of rows the
permuted tile, acvt and pmapply of columns their next row, read once those before it are written (poison there begins again
at row 0, log entry 15). Writes go in order, some at a time; with the last the k-step or column is counted with its registers
set, and a last one, a last row or another queued operation completes the head. A waiting awt returns when its value is
reached. A fired operation enters the queue where it has room, its agent's earlier writes are acknowledged and its context is
not stopped. An operation without an engine, ended, waiting for a page or of a stopped context is not run. Otherwise the
engine runs 1 to all of its elements; in visiting order (log entry 15) each element whose two places can be reached is read,
converted and written; a missing page, of its source or else of its destination, makes it wait, and one that does not permit
the access ends it with fault. An ended operation of a context not stopped (the engine's first, or else one its trigger
ended) with handle 0 leaves; one with a reachable handle raises the count by 1 modulo 2 to the 48, sets fault for a faulted
operation, and leaves. -/
def Obligations.AnvilAndCopyEvents : Prop :=
  (∀ (s : State) (c : CluId),
    let x := s.clu c
    (x.ctl.fetchMiss.isSome = true → exec (.tileFetchLine c) s = .next s)
    ∧ (∀ e l, x.ctl.fetchMiss = none → x.ctl.head = some e → x.lineWanted e x.ctl.kstep = some l →
      (s.lineTranslate c l e.sup = .miss → exec (.tileFetchLine c) s = .next (s.modCtl c fun k => { k with fetchMiss := some (64 * l, 3) }))
      ∧ (s.lineTranslate c l e.sup = .denied → x.ctl.trap = none → exec (.tileFetchLine c) s = .next (s.modCtl c fun k =>
        { k with trap := some ⟨9, 4, BitVec.ofNat 64 (64 * l), 1, false, 4⟩, aaddr := some e.pc, state := 3 }))
      ∧ (∀ k lg, s.lineTranslate c l e.sup = .at k lg → s.placeWaits k 64 = false → x.pins.length < 4096 → x.pin x.ctl.ctx l = none →
        exec (.tileFetchLine c) s = .next (s.modClu c fun y => { y with
          pins := (y.claimPins e y.ctl.kstep).pins ++ [⟨y.ctl.ctx, l, k / 64, some y.ctl.kstep, none, e.sup, lg⟩] })))
    ∧ (∀ l sup n rest k lg, x.ctl.fetchMiss = none → x.ctl.head = none → x.ctl.tpins = (l, sup, n) :: rest → x.pins.length < 4096 →
      s.lineTranslate c l sup = .at k lg → s.placeWaits k 64 = false → x.pin x.ctl.ctx l = none →
      ∃ t, exec (.tileFetchLine c) s = .next t ∧ t.mem = s.mem ∧ (t.clu c).ctl.tpins = rest
        ∧ (t.clu c).pins = x.pins ++ [⟨x.ctl.ctx, l, k / 64, none, some n, sup, lg⟩]))
  ∧ (∀ (s : State) (c : CluId) (e : AnvilEntry) (zero : Bool) (kd acc : Nat),
    let x := s.clu c
    let step := x.ctl.kstep
    let u := s.modClu c fun y => y.claimPins e step
    let v := u.view c
    let as := v.operandRows c e.y e.blk.afmt e.blk.ascale false kd step
    let bs := v.operandRows c e.z e.blk.bfmt e.blk.bscale e.blk.bsp kd step
    let size := elemBytes acc
    let fresh := zero && step == 0
    x.ctl.head = some e → e.op = .mma zero → pairing e.blk.afmt e.blk.bfmt = some (kd, acc) → step < e.steps → x.ctl.applying = none →
    (∀ l, x.lineWanted e step = some l → exec (.anvilKstep c) s = .next (s.modCtl c fun k => { k with state := if s.awaitsReplay c then 2 else k.state }))
    ∧ (x.lineWanted e step = none → (∀ l ∈ e.linesAt step, ∀ p, x.pin x.ctl.ctx l = some p → s.placeWaits (64 * p.pline) 64 = false) →
      (u.unread c e ≠ [] → ∃ gs : List Nat, gs.Sublist (u.unread c e) ∧ exec (.anvilKstep c) s = .next { u.modCtl c fun q => { q with
          seen := q.seen ++ gs.map fun g => (g, s.readBytes (16 * g) 16, s.marks.contains g) } with clock := s.clock + (u.unread c e).length })
      ∧ (u.unread c e = [] → as.2 = false → bs.2 = false → (fresh = false → s.tileMarked c e.x size = false) →
        s.Inv → s.glitch = 0 → e.x.cols * size ≤ e.x.stride →
        ∃ a, exec (.anvilKstep c) s = .next ((u.modCtl c fun q => { q with seen := [] }).modCtl c fun q => { q with applying := some a })
          ∧ a.column = none
          ∧ ∀ r j, r < e.x.rows → j < e.x.cols → ∀ t : State, Memory.wf t.mem = true → t.cluAlloc c = s.cluAlloc c →
            ((t.puts a.writes).tileElem c e.x size r j).1 = accumulate acc fresh (if fresh then 0 else (t.tileElem c e.x size r j).1) (dotExact (as.1.getD r []) (bs.1.getD j [])) % 2 ^ (8 * size))))
  ∧ (∀ (s : State) (c : CluId) (e : AnvilEntry) (i : Instr),
    let k := (s.clu c).ctl
    k.head = some e → k.applying = none → s.unread c e ≠ [] →
    (i = .anvilColumn c ∧ e.factor.isSome = true ∧ k.col < e.steps ∨ i = .anvilQueuedOperation c ∧ e.queued = true) →
    ∃ gs : List Nat, gs.Sublist (s.unread c e) ∧ exec i s = .next { s.modCtl c fun q => { q with
        seen := q.seen ++ gs.map fun g => (g, s.readBytes (16 * g) 16, s.marks.contains g) } with clock := s.clock + (s.unread c e).length })
  ∧ (∀ (s : State) (c : CluId) (e : AnvilEntry) (j : Nat) (w : Bool) (y : Tile) (f : Nat → Nat → Bool),
    let k := (s.clu c).ctl
    let v := s.view c
    let u := s.modCtl c fun q => { q with seen := [] }
    let size := if w then 8 else 4
    k.head = some e → e.factor = some (j, w, y, f) → k.col < e.steps → k.applying = none → s.unread c e = [] →
    (e.growth = none → (v.readMat c y size f).2 = false → ∃ t, exec (.anvilColumn c) s = .next t ∧ t.mem = s.mem
      ∧ (t.clu c).ctl.perm j = List.range 128 ∧ tget j 1 (t.clu c).ctl.ge = 0 ∧ (∃ g, (t.clu c).ctl.head = some { e with growth := some g }))
    ∧ (e.growth.isSome = true →
      (∀ z, v.columnOf c e k.col = (z, true) → exec (.anvilColumn c) s = .next (u.anvilPoison c e))
      ∧ (∀ d, v.columnOf c e k.col = (.fault d, false) → k.trap = none → exec (.anvilColumn c) s = .next (u.modCtl c fun q =>
        { q with trap := some ⟨9, d, BitVec.ofNat 64 k.col, 1, false, 4⟩, aaddr := some e.pc, state := 3 }))
      ∧ (∀ ws g tau swap, v.columnOf c e k.col = (.done ws g tau swap, false) → s.glitch = 0 →
        ∃ a p h z, exec (.anvilColumn c) s = .next (u.modCtl c fun q => { q with applying := some a })
          ∧ a.writes = s.putElems c y size ws ++ (match tau with
            | some x => [s.cluPut c (e.y.base + k.col * size) (bytesOfNum x size)]
            | none => [])
          ∧ a.column = some (j, p, h, z)
          ∧ p = (match e.op with
            | .lup _ _ => ((k.perm j).set k.col ((k.perm j).getD swap 0)).set swap ((k.perm j).getD k.col 0)
            | _ => k.perm j))))
  ∧ (∀ (s : State) (c : CluId) (e : AnvilEntry) (a : Applying) (i : Instr),
    let k := (s.clu c).ctl
    k.head = some e → k.applying = some a →
    (i = .anvilKstep c ∧ (∃ zero, e.op = .mma zero) ∧ (pairing e.blk.afmt e.blk.bfmt).isSome = true
      ∨ i = .anvilColumn c ∧ e.factor.isSome = true ∨ i = .anvilQueuedOperation c ∧ e.queued = true) →
    ∃ n, n ≤ a.writes.length ∧ (a.writes = [] ∨ 0 < n)
      ∧ let r := { s with clock := s.clock + 1 }.puts (a.writes.take n)
        exec i s = .next (if n = a.writes.length then r.stepDone c e { a with writes := [] }
          else r.modCtl c fun q => { q with applying := some { a with writes := a.writes.drop n } }))
  ∧ (∀ (s : State) (c : CluId) (e : AnvilEntry) (a : Applying),
    let k := { (s.clu c).ctl with applying := none }
    let t := ((s.stepDone c e a).clu c).ctl
    (s.stepDone c e a).mem = s.mem
    ∧ (∀ zero, e.op = .mma zero → t = if e.steps ≤ k.kstep + 1 then k.finish else { k with kstep := k.kstep + 1, state := 1 })
    ∧ (∀ j p g z, e.factor.isSome = true → a.column = some (j, p, g, z) →
      t.done = (if e.steps ≤ k.col + 1 then (k.done + 1) % 2 ^ 16 else k.done) ∧ t.col = (if e.steps ≤ k.col + 1 then 0 else k.col + 1)
        ∧ t.perm j = p ∧ tget j 0 t.ge = g ∧ t.queue = if e.steps ≤ k.col + 1 then k.queue.drop 1 else { e with growth := some z } :: k.queue.drop 1)
    ∧ (e.queued = true → a.column = none → t = if e.byRow = true ∧ k.row + 1 < e.x.rows then { k with row := k.row + 1 } else k.finish))
  ∧ (∀ (F : Fmt) (a : Mat) (n k d : Nat), k < n →
    (cholColumn F a n k = .fault d ↔ d = 18 ∧ (F.isNaN (a.at k k) = true ∨ F.isZero (a.at k k) = true ∨ F.neg (a.at k k) = true)))
  ∧ (∀ (s : State) (c : CluId) (e : AnvilEntry),
    let k := (s.clu c).ctl
    let v := s.view c
    let u := s.modCtl c fun q => { q with seen := [] }
    let size := if e.wide then 8 else 4
    s.Inv → k.head = some e → k.applying = none → s.unread c e = [] →
    (e.op = .acvt ∧ v.rowMarked c e.x (elemBytes e.blk.bfmt) k.row = true ∨ (∃ i, e.op = .pmapply i true) ∧ v.rowMarked c e.x size k.row = true →
      exec (.anvilQueuedOperation c) s = .next ((u.modCtl c fun q => { q with row := 0 }).anvilPoison c e))
    ∧ (e.op = .azero ∨ e.op = .acvt ∧ v.rowMarked c e.x (elemBytes e.blk.bfmt) k.row = false
        ∨ (∃ i, e.op = .pmapply i true) ∧ v.rowMarked c e.x size k.row = false ∨ (∃ i, e.op = .pmapply i false) ∧ v.tileMarked c e.x size = false →
      ∃ a, exec (.anvilQueuedOperation c) s = .next (u.modCtl c fun q => { q with applying := some a }) ∧ a.column = none
        ∧ (e.op = .azero → ∀ r j, r < e.x.rows → j < 4 * e.x.cols →
          (s.puts a.writes).readByte (cluKey c ((s.cluAlloc c).base + (e.x.base + r * e.x.stride + j))) = 0)
        ∧ (e.op = .acvt → a.writes = v.acvtRow c e k.row)
        ∧ (∀ i columns, e.op = .pmapply i columns → e.x.cols * size ≤ e.x.stride → ∀ r j, r < e.x.rows → j < e.x.cols →
          ((s.puts a.writes).tileElem c e.x size r j).1
            = (if columns = false then (v.tileElem c e.x size (e.perm.getD r 0) j).1
                else if r = k.row then (v.tileElem c e.x size r (e.perm.getD j 0)).1 else (s.tileElem c e.x size r j).1))))
  ∧ (∀ (s : State) (c : CluId) (v : Nat), (s.clu c).ctl.wait = some (.awt v) →
    exec (.awtReturn c) s = .next (if (s.clu c).ctl.queue = [] ∨ ((s.clu c).ctl.done + 2 ^ 16 - v % 2 ^ 16) % 2 ^ 16 < 2 ^ 15 then s.retire (.m c) else s))
  ∧ (∀ (s : State) (d : DieId) (o : CopyOp), (s.die d).engine firedList = [o] → (s.die d).opCount < 64 → s.unackedBefore o.agent o.before = false →
    s.ctxStopped d.pkg o.ctx = false → ∀ e, e < 4 →
    let t := s.admitFired d [o]
    t.mem = s.mem ∧ (t.die d).engine firedList = []
      ∧ (t.die d).engine e = (s.die d).engine e ++ if e = (s.die d).leastEngine then [o] else [])
  ∧ (∀ (r : State) (d : DieId) (e : Nat) (o : CopyOp) (rest : List CopyOp),
    let s := r.admitFired d ((r.die d).engine firedList)
    (s.die d).engine e = o :: rest →
    (4 ≤ e ∨ o.ended = true ∨ o.miss.isSome = true ∨ s.ctxStopped d.pkg o.ctx = true → exec (.copyOpStart d e) r = .next s)
    ∧ (e < 4 → o.ended = false → o.miss = none → s.ctxStopped d.pkg o.ctx = false → ∃ n, n < o.total ∧ exec (.copyOpStart d e) r = .next
      (({ s with clock := s.clock + 1 } : State).copyElems d e (n + 1))))
  ∧ (∀ (s : State) (d : DieId) (e : Nat) (o : CopyOp) (rest : List CopyOp), (s.die d).engine e = o :: rest →
    (let sa := (elementAt o.sbase o.done o.srcDims).toNat
      let da := (elementAt o.dbase o.done o.dstDims).toNat
      let t := s.copyElem d e o
      (s.reachElem d o o.sspace sa false = .miss → t.mem = s.mem ∧ (t.die d).engine e = { o with miss := some (sa, 3) } :: rest)
      ∧ (s.reachElem d o o.sspace sa false = .fault → t.mem = s.mem ∧ (t.die d).engine e = { o with fault := true } :: rest)
      ∧ (∀ a, s.reachElem d o o.sspace sa false = .go a → s.reachElem d o o.dspace da true = .miss →
        t.mem = s.mem ∧ (t.die d).engine e = { o with miss := some (da, 1) } :: rest)
      ∧ (∀ a, s.reachElem d o o.sspace sa false = .go a → s.reachElem d o o.dspace da true = .fault →
        t.mem = s.mem ∧ (t.die d).engine e = { o with fault := true } :: rest)
      ∧ (∀ a b, s.Inv → s.reachElem d o o.sspace sa false = .go a → s.reachElem d o o.dspace da true = .go b → s.placeWaits a o.ssize = false →
        s.placeWaits b o.dsize = false → (isHbm b = true ∨ keyRegion b = 1 ∨ keyRegion b = 2) →
        ((t.die d).engine e).head? = some { o with done := o.done + 1 } ∧
        t.readNum b o.dsize = o.convert (s.readAt a o.ssize).1 % 2 ^ (8 * o.dsize) ∧ ∀ j, (j < b ∨ b + o.dsize ≤ j) → t.readByte j = s.readByte j)))
  ∧ (∀ (s : State) (d : DieId) (e : Nat) (o : CopyOp) (rest : List CopyOp), (s.die d).engine e = o :: rest →
    (s.countable d e = true ↔ o.ended = true ∧ o.miss = none ∧ s.ctxStopped d.pkg o.ctx = false))
  ∧ (∀ (s : State) (d : DieId) (q : Nat), s.countable d q = false → s.countable d endedList = false → exec (.copyOpComplete d q) s = .next s)
  ∧ (∀ (s : State) (d : DieId) (q : Nat) (o : CopyOp) (rest : List CopyOp),
    let e := if s.countable d q then q else endedList
    (s.die d).engine e = o :: rest → s.countable d e = true →
    (o.handle = 0 → exec (.copyOpComplete d q) s = .next (s.modDie d fun x => x.dropOp e))
    ∧ (∀ t, s.Inv → o.handle ≠ 0 → (s.die d).tlb.find? (fun t => t.covers o.ctx (handleName o.handle)) = some t →
      t.permits (if o.sup then .supervisor else .user) (true, true) = true →
      let k := hbmKey d.pkg (t.pa (handleName o.handle))
      s.placeWaits k 8 = false → s.markedAt k 8 = false → isHbm k = true →
      let w := s.readNum k 8
      ∃ v, exec (.copyOpComplete d q) s = .next v ∧ rest <+: (v.die d).engine e
        ∧ v.readNum k 8 = w / 2 ^ 48 * 2 ^ 48 + (w + 1) % 2 ^ 48 + (if o.fault = true ∧ w / 2 ^ 62 % 2 = 0 then 2 ^ 62 else 0)))

/-- A miss whose page the die TLB holds is reissued; one that a live entry covers joins its waiters, and where that entry is
buffered or dropped a gang raises cause 8 with its lowest missing lane's address and its missing lanes of the page; otherwise
it takes the lowest free entry, and waits unchanged when all 512 are live; a requester that a pre-emption has stopped takes
none. A walk that waits for a frame that is being zeroed or moved changes nothing. One that finds a mapping fills the die TLB
and frees the entry; one that finds none, with room in the fault buffer, appends the record, with the requester of the miss
that made the entry, and leaves the entry buffered, and with none counts a drop. The zeroing of a frame ends with every byte
of it 0. fbcfg takes ie, and its clamped capacity only while the buffer is empty; ones written to fbstat clear; a legal frame
is pushed on its pool. The bound of 256 stops the other slice; 1,024 cycles of mutual stall with no access outstanding, a
fabric write included, raise cause 15. -/
def Obligations.TranslationEvents : Prop :=
  (∀ (s : State) (r : Requester) (i : Instr), i = .dieTlbMiss r ∨ i = .mergeEntryWaitRetry r →
    let d := requesterDie r
    let x := s.die d
    (s.missOf r = none → exec i s = .next s)
    ∧ (s.requesterStopped r = true → exec i s = .next s)
    ∧ (∀ m, s.missOf r = some m → x.waits r = false → s.requesterStopped r = false →
      (x.tlb.any (fun e => e.covers m.ctx m.va) = true → exec i s = .next (s.reissue r))
      ∧ (x.tlb.any (fun e => e.covers m.ctx m.va) = false →
        (∀ t ts e, x.mergeTags (fun e => e.covers m.ctx m.va) = t :: ts → tfind t x.merge = some e → e.state = .walking ∨ e.state = .handler →
          exec i s = .next (s.modDie d fun y => { y with merge := tset t { e with waiters := e.waiters ++ [r] } y.merge }))
        ∧ (∀ t ts e, x.mergeTags (fun e => e.covers m.ctx m.va) = t :: ts → tfind t x.merge = some e → e.state = .buffered ∨ e.state = .dropped →
          ∃ v, exec i s = .next v ∧ v.mem = s.mem ∧ tfind t (v.die d).merge = some { e with waiters := e.waiters ++ [r] }
            ∧ ∀ g h l ls, r = .gang g → (s.gang g).held false = some h → h.missing = l :: ls → ∃ q, (v.gang g).trapA = some q ∧ (v.gang g).stopA = true
              ∧ q.cause = 8 ∧ q.detail = 0 ∧ q.info = BitVec.ofNat 64 l.ea
              ∧ q.lanes = laneMask ((h.missing.filter fun k => e.covers h.access.ctx k.ea).map (·.lane)))
        ∧ (∀ t, x.mergeTags (fun e => e.covers m.ctx m.va) = [] → t < 512 → tfind t x.merge = none → (∀ k, k < t → (tfind k x.merge).isSome) →
          exec i s = .next (s.modDie d fun y =>
            { y with merge := tset t ⟨m.ctx, m.va / 2 ^ 13 * 2 ^ 13, 13, m.va, m.acc, .walking, [r], m.req, m.who⟩ y.merge }))
        ∧ (x.mergeTags (fun e => e.covers m.ctx m.va) = [] → (∀ k, k < 512 → (tfind k x.merge).isSome) → exec i s = .next s))))
  ∧ (∀ (s : State) (d : DieId) (tag : Nat) (m : Merge), tfind tag (s.die d).merge = some m →
    let x := s.die d
    (m.state ≠ .walking ∨ s.walkWaits d.pkg m.ctx m.va = true → exec (.pageTableWalkEnd d tag) s = .next s)
    ∧ (m.state = .walking → s.walkWaits d.pkg m.ctx m.va = false →
      (∀ e, s.walk d.pkg m.ctx m.va = .mapped e → ∃ t, exec (.pageTableWalkEnd d tag) s = .next t ∧ t.mem = s.mem ∧ e ∈ (t.die d).tlb
        ∧ tfind tag (t.die d).merge = none)
      ∧ (∀ lvl bad, s.walk d.pkg m.ctx m.va = .miss lvl bad none →
        ∃ t, exec (.pageTableWalkEnd d tag) s = .next t ∧ t.mem = s.mem
          ∧ (x.fb.length < 2 ^ x.lg → (t.die d).fb = x.fb ++ [⟨m.va, m.ctx, tag, lvl, m.acc, if bad then 1 else 0, m.req, m.who⟩]
              ∧ tfind tag (t.die d).merge = some { m with state := .buffered })
          ∧ (2 ^ x.lg ≤ x.fb.length → (t.die d).fb = x.fb ∧ (t.die d).drops = (x.drops + 1) % 2 ^ 16 ∧ (t.die d).dropped = true
              ∧ tfind tag (t.die d).merge = some { m with state := .dropped }))
      ∧ (∀ lvl bad size g rest v, s.walk d.pkg m.ctx m.va = .miss lvl bad (some size) → m.waiters = .gang g :: rest →
        (s.core g.coreId).vector 0 = some v → tget size [] x.pools ≠ [] → (s.gang g).mode = .user → (s.gang g).replay.isSome = true →
        ∃ t, exec (.pageTableWalkEnd d tag) s = .next t ∧ t.mem = s.mem ∧ ∃ n, tfind tag (t.die d).merge = some n ∧ n.state = .handler
          ∧ n.lg = pageLg size ∧ n.page = m.va / 2 ^ pageLg size * 2 ^ pageLg size ∧ n.waiters = m.waiters)))
  ∧ (∀ (s : State) (p frame : Nat),
    ((∀ z ∈ (s.pkg p).zeroing, z.1 ≠ frame) → exec (.frameZeroingDone p frame) s = .next s)
    ∧ (∀ z, s.Inv → (s.pkg p).zeroing.find? (fun z => z.1 == frame) = some z → ∃ t, exec (.frameZeroingDone p frame) s = .next t
      ∧ (t.pkg p).zeroing = (s.pkg p).zeroing.erase z ∧ (∀ j, j < z.2 → t.readByte (hbmKey p frame + j) = 0)
      ∧ ∀ j, (j < hbmKey p frame ∨ hbmKey p frame + z.2 ≤ j) → t.readByte j = s.readByte j))
  ∧ (∀ (s : State) (d : DieId) (v : DWord),
    let n := v.toNat % 16
    exec (.fbcfgWrite d v) s = .next (s.modDie d fun x => { x with
      ie := v.getLsbD 8, lg := if x.fb = [] then (if n < 3 then 3 else if 10 < n then 10 else n) else x.lg })
    ∧ exec (.fbstatWrite d v) s = .next (s.modDie d fun x => { x with
      dropped := x.dropped && !v.getLsbD 16, empty := x.empty && !v.getLsbD 17 }))
  ∧ (∀ (s : State) (d : DieId) (z : BitVec 2) (v : DWord),
    let pool := tget z.toNat [] (s.die d).pools
    exec (.poolpush d z v) s = .next (s.modDie d fun x =>
      if v.toNat % 2 ^ pageLg z.toNat = 0 ∧ v.toNat + 2 ^ pageLg z.toNat ≤ hbmSize ∧ pool.length < 1024
        then { x with pools := tset z.toNat (v.toNat :: pool) x.pools } else x))
  ∧ (∀ (s : State) (g : GangId),
    let x := s.gang g
    (x.since < 256 → exec (.otherSliceStopBound g) s = .next s)
    ∧ (256 ≤ x.since → x.trapA.isSome = true → x.stopC = false → exec (.otherSliceStopBound g) s = .next (s.setGang g { x with stopC := true, bound := true }))
    ∧ (256 ≤ x.since → x.trapA = none → x.trapC.isSome = true → x.stopA = false →
      exec (.otherSliceStopBound g) s = .next (s.setGang g { x with stopA := true, bound := true })))
  ∧ (∀ (s : State) (g : GangId),
    let x := s.gang g
    (x.lockedA < 1024 ∨ x.lockedC < 1024 ∨ s.accessOut g = true → exec (.queueDeadlockTimeout g) s = .next s)
    ∧ (∀ a c, 1024 ≤ x.lockedA → 1024 ≤ x.lockedC → s.accessOut g = false → s.queueStall (.a g) = some a → s.queueStall (.c g) = some c →
      ∃ t r, exec (.queueDeadlockTimeout g) s = .next t ∧ t.mem = s.mem ∧ (t.gang g).trapA = some r ∧ r.cause = 15 ∧ r.lanes = s.active (.a g)
        ∧ (t.gang g).stopA = true ∧ (t.gang g).stopC = true
        ∧ (∀ q, a = .pop q → r.detail = q) ∧ (∀ l, a = .push l → r.detail = 4 + l) ∧ (a = .slip → r.detail = 8) ∧ (a = .gsync → r.detail = 9)
        ∧ (∀ q, a = .hold q → r.detail = q + 1) ∧ (a = .region → r.detail = 10)))

/-- A notify within the ring sets the tail, one beyond it sets ovr, one backward or to a disabled queue is ignored; clearing
en resets head and tail. A packet with the stamp of its generation is taken and the head moves on; one of the next generation
stops the queue with ovr; a packet of a context that is being saved or restored waits (log entry 11, read from R399), and so
does one whose stamp reads marked (log entry 18). A packet that passes its checks is entered, in the round that log entry 16
gives; another, or one that reads marked, is told with its code, with no record where the status address is not mapped
writable. A launch whose units are all free, and which no save or restore keeps (log entry 11), starts with every gang of its
crews in the state of R97, otherwise nothing changes; its held gangs go at the start time. An ended gang with nothing
outstanding, whose crew's chunk can be read, frees its slot and keeps its record. A launch that is done, and which no save or
restore keeps (log entry 11), disarms its armed copies, then is closed and removed; before, a stopped controller whose leaves
need wait no more is freed (log entry 31). lend ends its launch with code 7 and both slices of its gangs. A chunk that may be
taken is taken. -/
def Obligations.LaunchEvents : Prop :=
  (∀ (s : State) (p n : Nat) (tail : Word), (64 ≤ n → exec (.submissionNotify p n tail) s = .next s)
    ∧ (n < 64 → ∃ t, exec (.submissionNotify p n tail) s = .next t ∧ t.mem = s.mem
      ∧ let q : SubQ := tget n {} (s.pkg p).subqs
        tget n {} (t.pkg p).subqs = if q.en = false ∨ 2 ^ 31 ≤ (tail - q.tail).toNat then q
          else if 2 ^ q.lg < (tail - q.head).toNat then { q with ovr := true } else { q with tail := tail }))
  ∧ (∀ (s : State) (p n : Nat) (v : DWord), (64 ≤ n → exec (.qcfgWrite p n v) s = .next s)
    ∧ (n < 64 → ∃ t, exec (.qcfgWrite p n v) s = .next t ∧ t.mem = s.mem
      ∧ let q : SubQ := tget n {} (s.pkg p).subqs
        let w : SubQ := tget n {} (t.pkg p).subqs
        w.en = v.getLsbD 0 ∧ w.ovr = (q.ovr && !v.getLsbD 1) ∧ (q.en = true → w.lg = q.lg ∧ w.ctx = q.ctx)
        ∧ (q.en = false → w.lg = max 4 (min 12 (v.toNat / 2 ^ 32 % 16)) ∧ w.ctx = v.toNat / 2 ^ 16 % 2 ^ 16)
        ∧ (if v.getLsbD 0 then w.head = q.head ∧ w.tail = q.tail else w.head = 0 ∧ w.tail = 0)))
  ∧ (∀ (s : State) (p n : Nat),
    let x := s.pkg p
    let q : SubQ := tget n {} x.subqs
    let slot := q.base + 256 * (q.head.toNat % 2 ^ q.lg)
    let stamp := s.readNum (hbmKey p (slot + 0xF8)) 2
    (x.booted = false ∨ 64 ≤ n ∨ q.en = false ∨ q.stopped = true ∨ q.head = q.tail ∨ (∃ l ∈ x.launches, l.2.queue = n ∧ l.2.state = .accepted)
        ∨ (∃ v, x.saving = some v ∧ v.ctx = q.ctx) ∨ (∃ r, x.restoring = some r ∧ r.image.ctx = q.ctx) ∨ s.markedAt (hbmKey p (slot + 0xF0)) 16 = true →
      exec (.launchPacketStampRead p n) s = .next s)
    ∧ (x.booted = true → n < 64 → q.en = true → q.stopped = false → q.head ≠ q.tail → slot + 256 ≤ hbmSize →
      s.placeWaits (hbmKey p slot) 256 = false → (∀ l ∈ x.launches, l.2.queue = n → l.2.state ≠ .accepted) →
      (∀ v, x.saving = some v → v.ctx ≠ q.ctx) → (∀ r, x.restoring = some r → r.image.ctx ≠ q.ctx) →
      s.markedAt (hbmKey p (slot + 0xF0)) 16 = false →
      (stamp = (q.head.toNat / 2 ^ q.lg + 1) % 2 ^ 16 → s.packetWaits p q.ctx (s.readBytes (hbmKey p slot) 256) = false →
        exec (.launchPacketStampRead p n) s = .next
          ((s.modPkg p fun x => x.modSubq n fun q => { q with head := q.head + 1 }).takePacket p n q.ctx (s.readBytes (hbmKey p slot) 256)
            (s.markedAt (hbmKey p slot) 256) (s.markedAt (hbmKey p (slot + 0x20)) 16)))
      ∧ (stamp = ((q.head.toNat + 2 ^ q.lg) / 2 ^ q.lg + 1) % 2 ^ 16 → ∃ t, exec (.launchPacketStampRead p n) s = .next t ∧ t.mem = s.mem
        ∧ let w : SubQ := tget n {} (t.pkg p).subqs
          w = { q with ovr := true, stopped := true })
      ∧ (stamp ≠ (q.head.toNat / 2 ^ q.lg + 1) % 2 ^ 16 → stamp ≠ ((q.head.toNat + 2 ^ q.lg) / 2 ^ q.lg + 1) % 2 ^ 16 →
        exec (.launchPacketStampRead p n) s = .next s)))
  ∧ (∀ (s : State) (p n ctx : Nat) (k : List Byte) (code : Nat) (x : Launch), s.checkPacket p ctx k = (code, x) →
    let y : Launch := { x with queue := n, firmware := (s.pkg p).mgmtQueues.contains n }
    let mapped := (s.virtPlaces p ctx (piecesOf 8192 x.status.toNat 128)).isSome
    (code = 0 → mapped = true →
      let t := s.takePacket p n ctx k false false
      t.mem = s.mem ∧ (t.pkg p).nextLaunch = (s.pkg p).nextLaunch + 1 ∧ tfind (s.pkg p).nextLaunch (t.pkg p).launches
        = some { y with origin := (p, (s.pkg p).nextLaunch), coll := x.coll.map fun c => { c with round := s.roundOf p y } })
    ∧ (code ≠ 0 → mapped = true → s.takePacket p n ctx k false false = s.report p { y with code := code } true)
    ∧ (mapped = true → s.takePacket p n ctx k true false = s.report p { y with code := 2 } true)
    ∧ (∀ marked, mapped = false → s.takePacket p n ctx k marked false = s.report p { y with code := 2 } false)
    ∧ ∀ marked, s.takePacket p n ctx k marked true = s.report p { y with code := 2, comp := 0 } false)
  ∧ (∀ (s : State) (p l : Nat) (x : Launch), tfind l (s.pkg p).launches = some x →
    (x.state ≠ .accepted ∨ x.code ≠ 0 ∨ (s.pkg p).stopped = true ∨ s.inImage p x = true → exec (.launchStart p l) s = .next s)
    ∧ (x.state = .accepted → x.code = 0 → (s.pkg p).stopped = false → s.inImage p x = false →
      (s.startLaunch p l x = none → exec (.launchStart p l) s = .next s)
      ∧ (∀ t, s.startLaunch p l x = some t → exec (.launchStart p l) s = .next t ∧ ∃ y, tfind l (t.pkg p).launches = some y
        ∧ y.state ≠ .accepted ∧ y.crews.length = x.places.length ∧ ∀ w ∈ y.crews, w.ended = false ∧ w.slots.length = x.image.crew ∧ ∀ n ∈ w.slots,
          let g := t.gang (w.core.slot n)
          g.inUse = true ∧ g.launch = l ∧ g.crew = w.entry ∧ g.ctx = x.ctx ∧ g.mode = (if x.firmware then .firmware else .user) ∧ g.live = BitVec.allOnes 32
            ∧ g.a = [] ∧ g.s = [] ∧ g.v = [] ∧ g.apc = BitVec.ofNat 57 (x.image.base + x.image.aent)
            ∧ g.cpc = BitVec.ofNat 57 (x.image.base + x.image.cent)))
    ∧ (x.state ≠ .holding ∨ (s.pkg p).time < x.start.toNat → exec (.startTimeReached p l) s = .next s)
    ∧ (x.state = .holding → x.start.toNat ≤ (s.pkg p).time → ∃ t, exec (.startTimeReached p l) s = .next t ∧ t.mem = s.mem
      ∧ tfind l (t.pkg p).launches = some { x with state := .running }
      ∧ (∀ w ∈ x.crews, ∀ n ∈ w.slots, (t.gang (w.core.slot n)).holdStart = false) ∧ ∀ c ∈ x.ctls, (t.clu c).ctl.holdStart = false)
    ∧ (s.launchDone p l x = false → (s.freeable l x = none → exec (.launchEnd p l) s = .next (if x.code = 0 ∨ x.code = 4 then s else s.leaveImage p l))
      ∧ ∀ c, s.freeable l x = some c → exec (.launchEnd p l) s = .next (s.freeController c))
    ∧ (s.launchDone p l x = true → (x.code = 0 ∨ x.code = 4) → s.inImage p x = true → exec (.launchEnd p l) s = .next s)
    ∧ (s.launchDone p l x = true → (x.code ≠ 0 ∧ x.code ≠ 4 ∨ s.inImage p x = false) → s.armedLeft p l = true → exec (.launchEnd p l) s = .next (s.disarmCopies p l))
    ∧ (s.launchDone p l x = true → (x.code ≠ 0 ∧ x.code ≠ 4 ∨ s.inImage p x = false) → s.armedLeft p l = false → exec (.launchEnd p l) s = .next (s.closeLaunch p l x)
      ∧ tfind l ((s.closeLaunch p l x).pkg p).launches = none))
  ∧ (∀ (s : State) (g : GangId),
    let x := s.gang g
    (x.aEnd = false ∨ x.cEnd = false ∨ s.gangBusy g = true ∨ s.chunkWaits g.pkg x.launch x.crew = true → exec (.gangEnd g) s = .next s)
    ∧ (x.inUse = true → x.aEnd = true → x.cEnd = true → x.preempted = false → s.gangBusy g = false → s.chunkWaits g.pkg x.launch x.crew = false →
      ∃ t, exec (.gangEnd g) s = .next t ∧ t.gang g = { record := x.record, ft := x.ft }))
  ∧ (∀ (s : State) (p : Nat) (v : DWord),
    ((∀ x ∈ (s.pkg p).launches, x.2.status ≠ v) → exec (.lendWrite p v) s = .next s)
    ∧ (∀ x, (s.pkg p).launches.find? (fun x => x.2.status == v) = some x → exec (.lendWrite p v) s = .next (s.stopLaunch p x.1 7 [])))
  ∧ (∀ (s : State) (p l code : Nat) (bs : List Byte) (x : Launch), tfind l (s.pkg p).launches = some x →
    let t := s.stopLaunch p l code bs
    t.mem = s.mem ∧ (∃ y, tfind l (t.pkg p).launches = some y ∧ y.code = if x.code = 0 ∨ x.code = 4 ∧ code ≠ 4 then code else x.code)
      ∧ (∀ g ∈ s.gangs.map (·.1), g.pkg = p → (s.gang g).inUse = true → (s.gang g).launch = l → (t.gang g).aEnd = true ∧ (t.gang g).cEnd = true)
      ∧ t.armedLeft p l = false)
  ∧ (∀ (s : State) (p l chunk : Nat) (x : Launch) (c : Coll), tfind l (s.pkg p).launches = some x → x.coll = some c →
    (c.finished = true ∨ c.ranks.length ≤ chunk ∨ chunk ∈ c.written ∨ s.inImage p x = true → exec (.collectiveChunkWrite p l chunk) s = .next s)
    ∧ (∀ k, x.state ≠ .accepted → (x.code = 0 ∨ x.code = 4) → s.inImage p x = false → c.finished = false → chunk < c.ranks.length → chunk ∉ c.written →
      (c.ranks.getD chunk p = p ∨ c.ownPending p = false) → s.collWaits p x.ctx c = false → s.chunkOf p x c chunk = some k →
      exec (.collectiveChunkWrite p l chunk) s = .next (s.takeChunk p l x c k)))

/-- A preempt write that names a free context starts its save, where the image fits its address, and stops its agents, or is
held while a save or restore runs or others are held, to start in its turn when that ends. Context 0 or a number above 4,095,
and an address that the image does not fit, have no effect (log entry 18, the model's choice), and the length that is fixed
then stays the image's (log entry 11). A capture with every sent access complete and no step of an anvil begun takes what the
agents hold and writes the image's sections behind its header; its completion writes the header, whose context, length and
complete bit read back, frees the agents and reads saved. A restore reads line after line, turns to the second copy at a
poisoned line that was not stored so, and without one loses the context, whose launches end with code 5 on every package. A
context entry is written but 0. go, once what is being zeroed is zero, fails with state 5 for an unmapped page, or a page or
frame that is misaligned or out of range: that those fail so, and the zeroing first, are the model's reading (log entry 18).
The final pass, the switch within 40 µs and the timeout of a migration move its state, the sixteenth abort failing it. -/
def Obligations.ContextEvents : Prop :=
  (∀ (s : State) (p : Nat) (v : DWord),
    let x := s.pkg p
    let ctx := v.toNat % 2 ^ 16
    (ctx = 0 ∨ 4095 < ctx ∨ x.cstate = 1 ∧ x.cctx = ctx ∨ (∃ h ∈ x.heldPre, h.1 = ctx) → exec (.preemptWrite p v) s = .next s)
    ∧ (1 ≤ ctx → ctx ≤ 4095 → (∀ h ∈ x.heldPre, h.1 ≠ ctx) →
      (x.cstate ≠ 1 → x.cstate ≠ 3 → x.heldPre = [] → saveFault x.imgaddr.toNat (s.lengthNow p ctx) (x.durable ctx) = true →
        exec (.preemptWrite p v) s = .next s)
      ∧ (x.cstate ≠ 1 → x.cstate ≠ 3 → x.heldPre = [] → saveFault x.imgaddr.toNat (s.lengthNow p ctx) (x.durable ctx) = false → ∃ t, exec (.preemptWrite p v) s = .next t ∧ t.mem = s.mem ∧ (t.pkg p).cstate = 1 ∧ (t.pkg p).cctx = ctx
        ∧ ((t.pkg p).saving.map fun sv => (sv.ctx, sv.addr, sv.durable, sv.length)) = some (ctx, x.imgaddr.toNat, x.durable ctx, s.lengthNow p ctx)
        ∧ (∀ g, g.pkg = p → (s.gang g).inUse = true → (s.gang g).ctx = ctx → (t.gang g).preempted = true)
        ∧ ∀ c, c.pkg = p → (s.clu c).ctl.inUse = true → (s.clu c).ctl.ctx = ctx → (t.clu c).ctl.preempted = true)
      ∧ (x.cstate = 3 ∨ x.cstate = 1 ∧ x.cctx ≠ ctx ∨ x.cstate ≠ 1 ∧ x.heldPre ≠ [] → exec (.preemptWrite p v) s = .next (s.modPkg p fun y => { y with heldPre := y.heldPre ++ [(ctx, x.imgaddr)] }))))
  ∧ (∀ (s : State) (p : Nat) (h : Nat × DWord) (hs : List (Nat × DWord)), (s.pkg p).heldPre = h :: hs →
    ((s.pkg p).cstate = 1 ∨ (s.pkg p).cstate = 3 → exec (.preemptHeldStart p) s = .next s)
    ∧ ((s.pkg p).cstate ≠ 1 → (s.pkg p).cstate ≠ 3 →
      exec (.preemptHeldStart p) s = .next ((s.modPkg p fun x => { x with heldPre := hs }).startSave p h.1 h.2.toNat)))
  ∧ (∀ (s : State) (p : Nat) (sv : Saved), (s.pkg p).saving = some sv →
    (sv.id = 0 → (∃ g ∈ s.ctxGangs p sv.ctx, s.gangQuiet g = false) ∨ (∃ c ∈ s.ctxCtls p sv.ctx, (s.clu c).ctl.begun = true) ∨ s.imageWaits p sv = true → exec (.contextCapture p) s = .next s)
    ∧ (sv.id = 0 → (∀ g ∈ s.ctxGangs p sv.ctx, s.gangQuiet g = true) → (∀ c ∈ s.ctxCtls p sv.ctx, (s.clu c).ctl.begun = false) → s.imageWaits p sv = false → ∃ t w, exec (.contextCapture p) s = .next t ∧ (t.pkg p).saving = some w
      ∧ w.id = s.nextId + 1 ∧ w.ctx = sv.ctx ∧ w.addr = sv.addr ∧ w.durable = sv.durable ∧ w.length = sv.length ∧ w.second = sv.second
      ∧ (∀ a ∈ t.flight, a.gang ∉ s.ctxGangs p sv.ctx) ∧ (∀ g ∈ s.ctxGangs p sv.ctx, (t.gang g).heldSignals = [] ∧ (t.gang g).wait = none)
      ∧ (s.Inv → sv.durable = false → t.readBytes (hbmKey p (sv.addr + 128)) w.body.length = w.body))
    ∧ (s.Inv → sv.id ≠ 0 → s.imageWaits p sv = false → sv.durable = false → sv.addr + 128 ≤ hbmSize → sv.ctx < 2 ^ 16 → sv.length < 2 ^ 64 →
      ∃ t, exec (.contextImageComplete p) s = .next t ∧ (t.pkg p).cstate = 2 ∧ (t.pkg p).saving = none
        ∧ t.readNum (hbmKey p sv.addr) 4 = 0x45584943 ∧ t.readNum (hbmKey p (sv.addr + 6)) 2 = sv.ctx
        ∧ t.readNum (hbmKey p (sv.addr + 8)) 8 = sv.length ∧ t.readNum (hbmKey p (sv.addr + 16)) 4 = 2
        ∧ ∀ g ∈ s.ctxGangs p sv.ctx, (t.gang g).inUse = false))
  ∧ (∀ (s : State) (p : Nat) (r : Restore), (s.pkg p).restoring = some r → 64 * r.line < r.image.length → s.imageWaits p r.image = false →
    let copy := if r.second then r.image.second else r.image.addr
    let set (r : Restore) : State := s.modPkg p fun x => { x with restoring := some r }
    exec (.restoreLineRead p) s = .next (
      if s.lineBad p r = false then
        set { r with line := r.line + 1, second := false, bytes := r.bytes ++ s.readBytes (hbmKey p (copy + 64 * r.line)) 64 }
      else if r.second = false ∧ r.image.second ≠ 0 then set { r with second := true } else s.loseContext p r.image.ctx))
  ∧ (∀ (s : State) (p ctx : Nat), ((s.loseContext p ctx).pkg p).cstate = 5 ∧ (s.loseContext p ctx).mem = s.mem
    ∧ ∀ q l x, tfind l (s.pkg q).launches = some x → x.ctx = ctx → x.code = 0 →
      ∃ y, tfind l ((s.loseContext p ctx).pkg q).launches = some y ∧ y.code = 5)
  ∧ (∀ (s : State) (p n : Nat) (v : DWord), (n = 0 ∨ 4095 < n → exec (.contextEntryWrite p n v) s = .next s)
    ∧ (1 ≤ n → n ≤ 4095 → ∃ t, exec (.contextEntryWrite p n v) s = .next t ∧ t.mem = s.mem
      ∧ let old : CtxEntry := tget n {} (s.pkg p).contexts
        let e : CtxEntry := tget n {} (t.pkg p).contexts
        e.root = v.toNat / 2 ^ 17 % 2 ^ 35 * 2 ^ 17
        ∧ e.en = (v.getLsbD 0 || (old.en && s.ctxNamed p n))
        ∧ (v.getLsbD 0 = true → old.en = false → ∀ c : CluId, c.pkg = p → ∀ y ∈ (t.clu c).tlb, y.ctx ≠ n)))
  ∧ (∀ (s : State) (p : Nat) (v : DWord),
    let m := (s.pkg p).mig
    let size := v.toNat / 2 ^ 16 % 4
    let n := 2 ^ pageLg size
    (v.getLsbD 18 = false → exec (.migctlGo p v) s = .next (s.modPkg p fun x => { x with mig := { x.mig with ctx := v.toNat % 2 ^ 16, size := size } }))
    ∧ (v.getLsbD 18 = true → m.state ≠ .copying → m.state ≠ .final →
      let z := (s.modPkg p fun x => { x with mig := { x.mig with ctx := v.toNat % 2 ^ 16, size := size } }).finishZeroing p
      (m.va.toNat % n ≠ 0 ∨ 2 ^ 57 ≤ m.va.toNat ∨ m.frame.toNat % n ≠ 0 ∨ hbmSize < m.frame.toNat + n ∨ z.mappedFrame p (v.toNat % 2 ^ 16) m.va.toNat size = none →
        ∃ t, exec (.migctlGo p v) s = .next t ∧ t.mem = z.mem ∧ (t.pkg p).mig.state = .failedLeaf)
      ∧ (∀ old pas, m.va.toNat % n = 0 → m.va.toNat < 2 ^ 57 → m.frame.toNat % n = 0 → m.frame.toNat + n ≤ hbmSize →
        z.mappedFrame p (v.toNat % 2 ^ 16) m.va.toNat size = some (old, pas) → old + n ≤ hbmSize →
        ∃ t, exec (.migctlGo p v) s = .next t ∧ (t.pkg p).mig.state = .copying ∧ (t.pkg p).mig.old = old ∧ (t.pkg p).mig.newFrame = m.frame.toNat
          ∧ (t.pkg p).mig.aborts = 0)))
  ∧ (∀ (s : State) (p : Nat),
    let x := s.pkg p
    (x.mig.state ≠ .copying → exec (.migrationFinalStart p) s = .next s)
    ∧ (x.mig.state = .copying → ∃ t, exec (.migrationFinalStart p) s = .next t ∧ (t.pkg p).mig.state = .final ∧ (t.pkg p).mig.heldSince = x.time)
    ∧ (x.mig.state ≠ .final ∨ x.mig.heldSince + 40000 ≤ x.time ∨ s.migBusy p x.mig = true → exec (.migrationSwitch p) s = .next s)
    ∧ (x.mig.state = .final → x.time < x.mig.heldSince + 40000 → s.migBusy p x.mig = false → ∃ t, exec (.migrationSwitch p) s = .next t
      ∧ ((t.pkg p).mig.state = .done ∨ (t.pkg p).mig.state = .failedLeaf))
    ∧ (x.mig.state ≠ .final ∨ x.time < x.mig.heldSince + 40000 → exec (.migrationHoldTimeout p) s = .next s)
    ∧ (x.mig.state = .final → x.mig.heldSince + 40000 ≤ x.time → ∃ t, exec (.migrationHoldTimeout p) s = .next t ∧ t.mem = s.mem
      ∧ (t.pkg p).mig.aborts = x.mig.aborts + 1 ∧ (t.pkg p).mig.state = if 16 ≤ x.mig.aborts + 1 then .failedAborts else .copying))

/-- After a cold reset every gang, core, cluster and die of the package is fresh, what is fused stays, its windows read zero
and other packages are as before; that the bytes of the other memories, the fused fields and what written images hold stay is
log entries 2 and 11, the model's choice. A boot stage with the fused key's valid signature and count extends its measurement
register; an invalid one stops the boot; the stage that releases the work dies also settles which submission queues are the
management controller's (log entry 40). An attestation report has 448 bytes, its nonce and a signature of the rest. A host
write to HBM writes its bytes alone, a host read returns them with their mark; an access that no BAR reaches does nothing
(log entry 40, the model's choice). Scrubbing counts corrections and marks lines, a row that is due is copied to a spare. The
arithmetic clock moves by 25 MHz within its range; a thermal stop stops every gang. Wear, time and routing entries take their
values. A register write lands or is ignored. A cycle adds at most two gangs of each slice and the controller to the issue
list. -/
def Obligations.UpkeepEvents : Prop :=
  (∀ (s : State) (p : Nat), ∃ t, exec (.packageColdReset p) s = .next t
    ∧ (∀ g, g.pkg = p → t.gang g = {}) ∧ (∀ c, c.pkg = p → t.core c = {}) ∧ (∀ c, c.pkg = p → t.clu c = {}) ∧ (∀ d, d.pkg = p → t.die d = {})
    ∧ t.pkg p = { serial := (s.pkg p).serial, idkey := (s.pkg p).idkey, minVersion := (s.pkg p).minVersion
                  bootKey := (s.pkg p).bootKey, keyDigest := (s.pkg p).keyDigest, mgmtQueues := (s.pkg p).mgmtQueues
                  images := (s.pkg p).images, nextLaunch := (s.pkg p).nextLaunch }
    ∧ (∀ q, q ≠ p → t.pkg q = s.pkg q) ∧ (∀ g, g.pkg ≠ p → t.gang g = s.gang g)
    ∧ (s.Inv → ∀ k, t.readByte k = if keyPkg k = p ∧ keyRegion k = 4 then 0 else s.readByte k))
  ∧ (∀ (s : State) (p : Nat) (image : List Byte) (sig : BitVec 512) (version : Nat) (reg : BitVec 3),
    let x := s.pkg p
    let digest := digestBytes (Config.sm3 image)
    let good := Config.sm3 (bytesOfNum x.bootKey.toNat 64) = x.keyDigest ∧ Config.sm2Valid x.bootKey digest sig = true ∧ x.minVersion ≤ version
    (x.booted = true ∨ x.bootFailed = true → exec (.secureBootStage p image sig version reg) s = .next s)
    ∧ (x.booted = false → x.bootFailed = false → ∃ t, exec (.secureBootStage p image sig version reg) s = .next t ∧ t.mem = s.mem
      ∧ t.clock = s.clock + 65
      ∧ (∀ q, q ≠ p → t.pkg q = s.pkg q) ∧ (∀ n ∈ (t.pkg p).mgmtQueues, n ∈ x.mgmtQueues ∨ n < 64 ∧ (t.pkg p).booted = true)
      ∧ (good → (t.pkg p).version = version ∧ (t.pkg p).bootFailed = false ∧ ∀ r, tget r 0 (t.pkg p).measure =
          if r = reg.toNat then Config.sm3 (digestBytes (tget r 0 x.measure) ++ digest) else tget r 0 x.measure)
      ∧ (¬ good → (t.pkg p).bootFailed = true ∧ (t.pkg p).booted = false ∧ (t.pkg p).measure = x.measure)))
  ∧ (∀ (s : State) (p : Nat) (nonce : BitVec 256), ∃ t r, exec (.attestationRequest p nonce) s = .next t ∧ t.mem = s.mem
    ∧ (t.pkg p).replies = (s.pkg p).replies ++ [(r, false)] ∧ r.length = 448 ∧ (r.drop 32).take 32 = digestBytes nonce
    ∧ r.drop 384 = bytesOfNum (Config.sm2Sign (s.pkg p).idkey.toNat (digestBytes (Config.sm3 (r.take 384)))).toNat 64)
  ∧ (∀ (s : State) (p port addr : Nat) (data : List Byte),
    (data = [] → exec (.hostWrite p port addr data) s = .next s)
    ∧ (data ≠ [] → addr + data.length ≤ hbmSize → s.placeWaits (hbmKey p addr) data.length = true → exec (.hostWrite p port addr data) s = .next s)
    ∧ (s.Inv → data ≠ [] → addr + data.length ≤ hbmSize → s.placeWaits (hbmKey p addr) data.length = false →
      ∃ t, exec (.hostWrite p port addr data) s = .next t
        ∧ (∀ i, i < data.length → t.readByte (hbmKey p addr + i) = data.getD i 0)
        ∧ ∀ k, k < hbmKey p addr ∨ hbmKey p addr + data.length ≤ k → t.readByte k = s.readByte k)
    ∧ (data ≠ [] → inBar0 addr = true → exec (.hostWrite p port addr data) s = .next (s.storeBlock p addr data))
    ∧ (hbmSize ≤ addr → inBar0 addr = false → exec (.hostWrite p port addr data) s = .next s))
  ∧ (∀ (s : State) (p port addr len : Nat),
    (addr < hbmSize → s.placeWaits (hbmKey p addr) len = true → exec (.hostRead p port addr len) s = .next s)
    ∧ (addr + len ≤ hbmSize → addr < hbmSize → s.placeWaits (hbmKey p addr) len = false → exec (.hostRead p port addr len) s =
      .next (s.modPkg p fun x => { x with replies := x.replies ++ [(s.readBytes (hbmKey p addr) len, s.markedAt (hbmKey p addr) len)] }))
    ∧ (inBar0 addr = true → exec (.hostRead p port addr len) s =
      .next (s.modPkg p fun x => { x with
        replies := x.replies ++ [(bytesOfNum (s.readAt (hbmKey p addr) len).1 len, (s.readAt (hbmKey p addr) len).2)] }))
    ∧ (hbmSize ≤ addr → inBar0 addr = false → exec (.hostRead p port addr len) s = .next s))
  ∧ (∀ (s : State) (p stack : Nat) (corrected bad : List Nat), (24 ≤ stack → exec (.baseDieScrub p stack corrected bad) s = .next s)
    ∧ (stack < 24 → ∃ t, exec (.baseDieScrub p stack corrected bad) s = .next t ∧ t.mem = s.mem
      ∧ (tget (14 + stack) (wearReset (14 + stack)) (t.pkg p).wear).errors
          = ((tget (14 + stack) (wearReset (14 + stack)) (s.pkg p).wear).errors + corrected.length) % 2 ^ 32
      ∧ ∀ n ∈ bad, stackLine stack n < hbmSize → t.markedAt (hbmKey p (stackLine stack n)) 64 = true))
  ∧ (∀ (s : State) (p stack bank row : Nat), 
    let due := (tget (stack, bank, row) ({} : RowErrs) (s.pkg p).rows).due
    (24 ≤ stack ∨ due = false → exec (.rowSpareCopy p stack bank row) s = .next s)
    ∧ (stack < 24 → due = true → ∃ t, exec (.rowSpareCopy p stack bank row) s = .next t ∧ t.mem = s.mem ∧ t.marks = s.marks
      ∧ let used := tget (stack, bank) 0 (s.pkg p).spares
        tget (stack, bank) 0 (t.pkg p).spares = (if used < 64 then used + 1 else used)
        ∧ (used < 64 → (t.pkg p).rows = tdel (stack, bank, row) (s.pkg p).rows)
        ∧ (tget (14 + stack) (wearReset (14 + stack)) (t.pkg p).wear).rows = (t.pkg p).rowsLeft stack))
  ∧ (∀ (s : State) (p : Nat) (up : Bool),
    exec (.clockAdjust p up) s = .next (s.modPkg p fun x => { x with fclk := if up then min (x.fclk + 25) 850 else max (x.fclk - 25) 425 })
    ∧ exec (.thermalThrottle p) s = .next (s.modPkg p fun x => { x with fclk := max (x.fclk - 25) 425 })
    ∧ ∃ t, exec (.thermalStop p) s = .next t ∧ t.mem = s.mem ∧ (t.pkg p).stopped = true
      ∧ (∀ g, g.pkg = p → (s.gang g).inUse = true → t.gang g = { s.gang g with preempted := true })
      ∧ (∀ g, g.pkg ≠ p → t.gang g = s.gang g)
      ∧ ∀ c, c.pkg = p → (s.clu c).ctl.inUse = true → (t.clu c).ctl.preempted = true)
  ∧ (∀ (s : State) (p : Nat) (vs : List DWord), ∃ t, exec (.wearRecompute p vs) s = .next t ∧ t.mem = s.mem
    ∧ (∀ u, u < vs.length → u < 62 → let w := tget u (wearReset u) (t.pkg p).wear
      w.days = (vs.getD u 0).toNat % 2 ^ 16 ∧ w.errors = (vs.getD u 0).toNat / 2 ^ 32)
    ∧ ∀ u, u < vs.length → u < 62 → 365 ≤ (tget u (wearReset u) (s.pkg p).wear).days → (vs.getD u 0).toNat % 2 ^ 16 < 365 →
      let r : IntRoute := tget 77 {} (s.pkg p).routes
      (r.enable = true → (r.port, r.vector) ∈ (t.pkg p).sent) ∧ (r.enable = false → (tget 77 ({} : IntRoute) (t.pkg p).routes).pending = true))
  ∧ (∀ (s : State) (p : Nat) (offs : Word) (locked : Bool) (forward : Nat),
    exec (.ptpMessage p offs locked forward) s = .next (s.modPkg p fun x =>
      let time := if x.launched then x.time else x.time + forward
      { x with offs := offs, hold := false, lock := locked && s.timeAgrees p time, time := time })
    ∧ exec (.ptpSyncLoss p) s = .next (s.modPkg p fun x => { x with hold := true, lock := false }))
  ∧ (∀ (s : State) (p n : Nat) (v : DWord), (81 ≤ n → exec (.interruptRouteWrite p n v) s = .next s)
    ∧ (n < 81 → ∃ t, exec (.interruptRouteWrite p n v) s = .next t ∧ t.mem = s.mem
      ∧ let old : IntRoute := tget n {} (s.pkg p).routes
        let r : IntRoute := tget n {} (t.pkg p).routes
        r.vector = v.toNat % 2 ^ 11 ∧ r.port = v.toNat / 2 ^ 11 % 2 ∧ r.enable = v.getLsbD 12 ∧ r.pending = (old.pending && !v.getLsbD 12)
        ∧ (t.pkg p).sent = if v.getLsbD 12 && old.pending then (s.pkg p).sent ++ [(r.port, r.vector)] else (s.pkg p).sent))
  ∧ (∀ (s : State) (p addr : Nat) (v : DWord),
    (addr % 8 ≠ 0 ∨ paKind addr = .nothing → exec (.registerWrite p addr v) s = .next s)
    ∧ (addr = pkgBlock + 0x20 → exec (.registerWrite p addr v) s = .next (s.modPkg p fun x => { x with imgaddr := v })
      ∧ ((s.modPkg p fun x => { x with imgaddr := v }).readAt (hbmKey p addr) 8) = (v.toNat, false))
    ∧ (addr = pkgBlock + 0x30 → 1000 ≤ v.toNat % 2 ^ 16 → v.toNat % 2 ^ 16 ≤ 10000 → ∃ t, exec (.registerWrite p addr v) s = .next t ∧ t.mem = s.mem
      ∧ t.readAt (hbmKey p addr) 8 = (v.toNat % 2 ^ 16, false))
    ∧ (addr = pkgBlock + 0x40 ∨ addr = pkgBlock + 0x50 → ∃ t, exec (.registerWrite p addr v) s = .next t ∧ t.mem = s.mem
      ∧ t.readAt (hbmKey p addr) 8 = (v.toNat, false))
    ∧ (addr = pkgBlock + 0x38 ∨ addr = pkgBlock + 0x58 ∨ addr = pkgBlock + 0x900 → exec (.registerWrite p addr v) s = .next s))
  ∧ (∀ (s : State) (c : CoreId), ∃ t l, exec (.issueCycle c) s = .next t ∧ t.mem = s.mem ∧ t.issue = s.issue ++ l ∧ l.Nodup
    ∧ (∀ u ∈ l, (∃ n, n < 16 ∧ (u = .a (c.slot n) ∨ u = .c (c.slot n))) ∨ c.core = 0 ∧ u = .m c.cluId)
    ∧ (l.filter fun u => u.kind == .A).length ≤ 2 ∧ (l.filter fun u => u.kind == .C).length ≤ 2
    ∧ (∀ n, n < 16 → (.a (c.slot n) ∈ l → (t.gang (c.slot n)).waitA = 0)
      ∧ (.a (c.slot n) ∉ l → (t.gang (c.slot n)).waitA = (s.gang (c.slot n)).waitA ∨ (t.gang (c.slot n)).waitA = (s.gang (c.slot n)).waitA + 1))
    ∧ (t.pkg c.pkg).time = (s.pkg c.pkg).time + s.timeRoom c.pkg (Config.timeAdvance (s.clock + 3)))

/-- A flit that the peer of a linked port has sent comes, in the order of sending; in sequence with a good CRC and a known
type it is taken and acknowledged, and handed on towards another package; any other is discarded (one of a type above 6 by
log entry 22, the model's choice). A port numbers, frames and keeps what it sends, while its window has room; a timeout
resends all; ten missed keepalives put a port down and its paths away; lanes retire to the spare, to half width, or down (a
lane that the spare replaced is not good for half width, log entry 22); keepalives are well-formed flits; route costs are
learnt as the peer offers them; a port that is down begins training, and its end gives full width (log entry 22). A dead
package is marked dead and its phasers fail. A remote access is served at its page or lost, one that cannot be reached at
once in that step (log entry 24, the model's choice); its return and acknowledgement remove the message. A batch is stamped
with the next sequences, held at the window, or waits; a member applies the next record; stable trims what is kept; joins,
leaves, failures and rehoming move the entry's state, a join of a package that maps the window (log entry 18), and a write of
en that R431 does not list changing nothing (log entry 19). An arrival counts at its weir in the order of its link, is passed
up with the last, and the last at an unheld root completes the phase. A membership change goes up to the root in its link's
order and is taken there (log entry 31). Failure, takeover and the writes of a phaser entry have their effects, a write of
failed clearing what the bit reads alone (log entry 31); the weirs of a phaser are fresh at its enabling, and hold takes
effect at the root at once (log entry 31, the model's choice). -/
def Obligations.FabricEvents : Prop :=
  (∀ (s : State) (p port : Nat) (f : List Byte),
    let x := (s.pkg p).port port
    let comes := port < 24 ∧ x.carries = true ∧ s.linked p port = true ∧ f ∈ (s.peerPort x).wire
    let good := flitOk f = true ∧ flitType f ≤ 6 ∧ flitLseq f = x.aseq + 1
    (¬ comes → exec (.flitReceive p port f) s = .next s)
    ∧ (comes → x.ppkg ≠ p → ∃ t, exec (.flitReceive p port f) s = .next t ∧ (t.pkg x.ppkg).port x.pport = (s.peerPort x).dropSent f)
    ∧ (comes → ¬ good → ∃ t, exec (.flitReceive p port f) s = .next t ∧ t.mem = s.mem ∧ ∀ q n, (q, n) ≠ (x.ppkg, x.pport) → (t.pkg q).port n = (s.pkg q).port n)
    ∧ (comes → good → ∃ t, exec (.flitReceive p port f) s = .next t ∧ t.mem = s.mem ∧ ((t.pkg p).port port).aseq = flitLseq f
      ∧ (x.retry.filter fun y => !decide ((flitAseq f - flitLseq y).toNat < 2 ^ 15)) <+: ((t.pkg p).port port).retry
      ∧ (x.queue = [] → flitType f = 0 ∨ flitType f = 6 ∨ flitDst f = p →
        ((t.pkg p).port port).retry = x.retry.filter fun y => !decide ((flitAseq f - flitLseq y).toNat < 2 ^ 15))
      ∧ (1 ≤ flitType f → flitType f ≤ 5 → flitDst f ≠ p → ∀ n, (tget (flitDst f) ({} : Route) (s.pkg p).paths).out = some n → n ≠ port → x.ppkg ≠ p →
        (t.pkg p).port n = ((s.pkg p).port n).enqueue (flitBody f))))
  ∧ (∀ (x : Port) (b : FlitBody), b.payload.length = 64 → x.carries = true → x.queue = [] → x.resend = 0 → x.retry.length < x.window →
    let y := x.enqueue b
    y.lseq = x.lseq + 1 ∧ y.queue = [] ∧ ∃ f, y.retry = x.retry ++ [f] ∧ y.wire = x.wire ++ [f] ∧ flitOk f = true ∧ flitLseq f = x.lseq
      ∧ flitAseq f = x.aseq ∧ flitType f = b.kind % 256 ∧ flitDst f = b.dst % 1024)
  ∧ (∀ (x : Port) (b : FlitBody), x.carries = false ∨ x.window ≤ x.retry.length → let y := x.enqueue b
    y.lseq = x.lseq ∧ y.retry = x.retry ∧ y.queue = x.queue ++ [b])
  ∧ (∀ (s : State) (p port : Nat),
    let x := (s.pkg p).port port
    (24 ≤ port ∨ x.carries = false ∨ x.retry = [] → exec (.linkRetryTimeout p port) s = .next s)
    ∧ (port < 24 → x.carries = true → x.retry ≠ [] → ∃ t, exec (.linkRetryTimeout p port) s = .next t ∧ t.mem = s.mem
      ∧ x.wire ++ x.retry <+: ((t.pkg p).port port).wire
      ∧ (x.queue = [] → (t.pkg p).port port = { x with wire := x.wire ++ x.retry, resend := 0 })
      ∧ (tget (38 + port) (wearReset (38 + port)) (t.pkg p).wear).errors = ((tget (38 + port) (wearReset (38 + port)) (s.pkg p).wear).errors + 1) % 2 ^ 32)
    ∧ (24 ≤ port ∨ x.state = 0 ∨ x.missed < 10 → exec (.portDown p port) s = .next s)
    ∧ (port < 24 → x.state ≠ 0 → 10 ≤ x.missed → ∃ t, exec (.portDown p port) s = .next t ∧ t.mem = s.mem ∧ ((t.pkg p).port port).state = 0
      ∧ ((t.pkg p).port port).lanes = 0 ∧ ((t.pkg p).port port).retry = []
      ∧ ∀ n r, tfind n (s.pkg p).paths = some r → r.porta ≠ r.portb → ∃ y, tfind n (t.pkg p).paths = some y ∧ y.porta ≠ port ∧ y.portb ≠ port)
    ∧ (port < 24 → ∃ t, exec (.laneSwapDone p port) s = .next t ∧ t.mem = s.mem ∧ ((t.pkg p).port port).swapping = false
      ∧ (2 ≤ x.state → x.wire ++ x.retry.take x.resend <+: ((t.pkg p).port port).wire)
      ∧ (x.state < 2 ∨ x.queue = [] ∧ x.resend = 0 → (t.pkg p).port port = { x with swapping := false }))
    ∧ (24 ≤ port → exec (.laneSwapDone p port) s = .next s)
    ∧ (∀ heard, 24 ≤ port ∨ x.carries = false → exec (.keepaliveSend p port heard) s = .next s)
    ∧ (∀ heard, port < 24 → x.carries = true → ∃ t, exec (.keepaliveSend p port heard) s = .next t ∧ t.mem = s.mem
      ∧ ((t.pkg p).port port).missed = (if heard then 0 else x.missed + 1)
      ∧ (x.retry.length < x.window → ((t.pkg p).port port).lseq = x.lseq + 1 ∧ ∃ f, ((t.pkg p).port port).retry = x.retry ++ [f] ∧ ((t.pkg p).port port).wire = x.wire ++ [f]
        ∧ flitOk f = true ∧ flitType f = 6 ∧ flitLseq f = x.lseq ∧ flitAseq f = x.aseq)
      ∧ (x.window ≤ x.retry.length → ((t.pkg p).port port).retry = x.retry))
    ∧ (∀ ppkg pport, 24 ≤ port ∨ 1 < x.state → exec (.linkTrainingComplete p port ppkg pport) s = .next s)
    ∧ (∀ ppkg pport, port < 24 → x.state = 0 → x.retired = [] → ∃ t, exec (.linkTrainingComplete p port ppkg pport) s = .next t
      ∧ t.mem = s.mem ∧ (t.pkg p).port port = { x with state := 1 })
    ∧ (∀ ppkg pport, port < 24 → x.state = 1 → x.retired = [] → ∃ t, exec (.linkTrainingComplete p port ppkg pport) s = .next t
      ∧ t.mem = s.mem ∧ let y := (t.pkg p).port port
        y.state = 2 ∧ y.lanes = 0xFF ∧ y.ppkg = ppkg % 2 ^ 10 ∧ y.pport = pport % 24 ∧ (x.queue = [] → y.retry = []))
    ∧ (∀ ppkg pport, port < 24 → x.state ≤ 1 → ∃ t, exec (.linkTrainingComplete p port ppkg pport) s = .next t ∧ t.mem = s.mem
      ∧ let y := (t.pkg p).port port
        y.retired = x.retired ∧ (2 ≤ y.state → ∀ l ∈ x.retired, l < 8 → y.lanes.testBit l = false)))
  ∧ (∀ (s : State) (p port lane : Nat),
    let x := (s.pkg p).port port
    let bad := x.retired ++ [lane]
    (24 ≤ port ∨ 8 < lane ∨ x.state < 2 ∨ lane ∈ x.retired → exec (.laneRetire p port lane) s = .next s)
    ∧ (port < 24 → lane ≤ 8 → 2 ≤ x.state → lane ∉ x.retired → ∃ t, exec (.laneRetire p port lane) s = .next t ∧ t.mem = s.mem
      ∧ let y := (t.pkg p).port port
        y.retired = bad
        ∧ (lane < 8 → x.state ≠ 4 → x.spare = false → 8 ∉ x.retired → y.state = 3 ∧ y.lanes = 0xFF - 2 ^ lane ∧ y.spare = true ∧ y.swapping = true)
        ∧ (x.state = 3 → x.spare = true → (∃ l ∈ x.retired, l < 8) →
          if (List.range 4).all fun n => !bad.contains n then y.state = 4 ∧ y.lanes = 0x0F ∧ y.swapping = true
          else if [4, 5, 6, 7].all fun n => !bad.contains n then y.state = 4 ∧ y.lanes = 0xF0 ∧ y.swapping = true
          else y.state = 0 ∧ y.lanes = 0)
        ∧ (lane = 8 → x.spare = false → y.state = x.state ∧ y.lanes = x.lanes)
        ∧ (lane < 8 → x.state = 4 → x.lanes / 2 ^ lane % 2 = 0 → y.state = 4 ∧ y.lanes = x.lanes)))
  ∧ (∀ (s : State) (p n port cost : Nat),
    let x := (s.pkg p).port port
    (24 ≤ port ∨ 1024 ≤ n ∨ x.carries = false ∨ s.linked p port = false ∨ cost ≠ s.offered x.ppkg n → exec (.routeExchange p n port cost) s = .next s)
    ∧ (port < 24 → n < 1024 → x.carries = true → s.linked p port = true → cost = s.offered x.ppkg n → ∃ t held, exec (.routeExchange p n port cost) s = .next t ∧ t.mem = s.mem ∧ held ≤ 100
      ∧ let r : Route := tget n {} (s.pkg p).paths
        let y : Route := tget n {} (t.pkg p).paths
        let c := cost + (if x.state = 4 then 32 else 16) + held
        (tget p ({} : Route) (t.pkg p).paths).self = true
        ∧ (n ≠ p → c < 0xFFFF → (r.porta = port ∨ r.porta = 31 ∧ r.portb ≠ port → y.porta = port ∧ y.costa = c))
        ∧ (n ≠ p → 0xFFFF ≤ c → r.porta ≠ r.portb → y.porta ≠ port ∧ y.portb ≠ port)))
  ∧ (∀ (s : State) (n : Nat), ∃ t, exec (.packageDead n) s = .next t ∧ t.mem = s.mem
    ∧ (∀ p, p ≠ n → (tfind p s.pkgs).isSome → (tget n ({} : Route) (t.pkg p).paths).dead = true)
    ∧ ∀ m ∈ s.doomedPhasers n, (s.phaser m.1 m.2).en = true → (t.phaser m.1 m.2).failed = true)
  ∧ (∀ (s : State) (n : Nat) (r : Remote), tfind n s.msgs = some (.remote r) →
    let lose : State := { s with msgs := tset n (.remote { r with served := true, lost := true }) s.msgs }
    let held := remoteEarlier n r s.msgs || s.fenceOpen r.gang r.era || s.inQueue r.request r.gang.pkg r.dst n
    let back := s.inQueue r.answer r.dst r.gang.pkg n
    (r.served = true ∨ held = true → exec (.remoteAccessServe n) s = .next s)
    ∧ (r.served = false → held = false →
      (s.unreachable r.gang.pkg r.dst = true → exec (.remoteAccessServe n) s = .next lose)
      ∧ (s.unreachable r.gang.pkg r.dst = false → s.walkWaits r.dst r.ctx r.addr = true → exec (.remoteAccessServe n) s = .next s)
      ∧ (s.unreachable r.gang.pkg r.dst = false → s.walkWaits r.dst r.ctx r.addr = false → ∀ a b c, s.walk r.dst r.ctx r.addr = .miss a b c →
        exec (.remoteAccessServe n) s = .next lose)
      ∧ (s.unreachable r.gang.pkg r.dst = false → s.walkWaits r.dst r.ctx r.addr = false → ∀ e, s.walk r.dst r.ctx r.addr = .mapped e →
        let k := hbmKey r.dst (e.pa r.addr)
        (r.permitted e = false → exec (.remoteAccessServe n) s = .next lose)
        ∧ (r.permitted e = true → s.placeWaits k r.size = true → exec (.remoteAccessServe n) s = .next s)
        ∧ (r.permitted e = true → s.placeWaits k r.size = false → isHbm k = true →
          (r.kind = .load → s.remoteTwin r k = none → exec (.remoteAccessServe n) s = .next (({ (if r.dst = r.gang.pkg then s.dropWord (.a r.gang) k else s) with
            msgs := tset n (.remote { r with data := s.readNum k r.size, poison := s.markedAt k r.size, served := true }) s.msgs } : State).fly
              3 1 r.dst r.gang.pkg n))
          ∧ (∀ q, r.kind = .load → s.remoteTwin r k = some q → exec (.remoteAccessServe n) s = .next (({ (if r.dst = r.gang.pkg then s.dropWord (.a r.gang) k else s) with
            msgs := tset n (.remote { r with data := q.data, poison := q.poison, served := true }) s.msgs } : State).fly 3 1 r.dst r.gang.pkg n))
          ∧ (r.kind = .store → s.Inv → ∃ t, exec (.remoteAccessServe n) s = .next t ∧ tfind n t.msgs = some (.remote { r with served := true })
            ∧ t.readNum k r.size = r.data % 2 ^ (8 * r.size) ∧ ∀ j, j < k ∨ k + r.size ≤ j → t.readByte j = s.readByte j))))
    ∧ (r.served = false ∨ r.kind ≠ .load ∨ back = true ∨ s.remoteLanesOut r = true → exec (.remoteLoadReturn n) s = .next s)
    ∧ (r.served = true → r.kind = .load → back = false → s.remoteLanesOut r = false → ∃ t, exec (.remoteLoadReturn n) s = .next t ∧ t.mem = s.mem ∧ t.msgs = tdel n s.msgs
      ∧ (r.dreg < 48 → r.size ≠ 16 → r.lane < 32 → (r.sup = true ↔ (s.gang r.gang).mode ≠ .user) →
        (t.gang r.gang).readA r.dreg r.lane = if r.lost then ⟨0, true⟩ else ⟨BitVec.ofNat 64 r.data, r.poison⟩))
    ∧ (r.served = false ∨ r.kind = .load ∨ back = true → exec (.remoteWriteAck n) s = .next s)
    ∧ (r.served = true → r.kind ≠ .load → back = false → ∃ t, exec (.remoteWriteAck n) s = .next t ∧ t.mem = s.mem
      ∧ (t.gang r.gang).pending = (s.gang r.gang).pending - BitVec.ofNat 64 r.size
      ∧ (t.pkg r.gang.pkg).lostWrites = (s.pkg r.gang.pkg).lostWrites + if r.lost then 1 else 0))
  ∧ (∀ (s : State) (n : Nat) (b : McBatch), tfind n s.msgs = some (.batch b) →
    (b.held = true → exec (.multicastStamp n) s = .next s) ∧ (b.held = false → exec (.multicastStampRelease n) s = .next s)
    ∧ ∀ i, (i = .multicastStamp n ∧ b.held = false ∨ i = .multicastStampRelease n ∧ b.held = true) →
      let h := s.headgate b.group
      (b.gang.isSome = true → s.headDead b = true → exec i s = .next (s.loseBatch n b))
      ∧ ((b.gang = none ∨ s.headDead b = false) → s.rehoming b.group = true ∨ s.headDead b = true ∨ s.batchFlies n b = true ∨ batchEarlier n b s.msgs = true →
        exec i s = .next s)
      ∧ (s.rehoming b.group = false → s.batchFlies n b = false → batchEarlier n b s.msgs = false → s.headDead b = false → h.stable + 1025 < h.next + b.items.length →
        exec i s = .next { s with msgs := tset n (.batch { b with held := true }) s.msgs })
      ∧ (s.rehoming b.group = false → s.batchFlies n b = false → batchEarlier n b s.msgs = false → s.headDead b = false → h.next + b.items.length ≤ h.stable + 1025 →
        (∀ x ∈ b.items, ∀ p, x.2.1 ≠ .join p ∧ x.2.1 ≠ .leave p) →
        ∃ t, exec i s = .next t ∧ t.mem = s.mem ∧ (t.headgate b.group).next = h.next + b.items.length))
  ∧ (∀ (s : State) (p n : Nat),
    let e := s.group p n
    (e.state ≠ 2 → e.state ≠ 3 → exec (.multicastApply p n) s = .next s)
    ∧ ((s.headgate n).records.find? (fun r => r.seq == e.applied + 1) = none → exec (.multicastApply p n) s = .next s)
    ∧ (∀ r, (s.headgate n).records.find? (fun r => r.seq == e.applied + 1) = some r → s.inQueue 5 e.hpkg p r.seq = true →
      exec (.multicastApply p n) s = .next s)
    ∧ (∀ r off size data poison k, s.Inv → e.state = 2 → (s.headgate n).records.find? (fun r => r.seq == e.applied + 1) = some r →
      r.act = .store off size data poison → s.inQueue 5 e.hpkg p r.seq = false → s.walkWaits p e.ctx (e.wva * 2 ^ 16 + off) = false → s.windowKey p e off = some k → isHbm k = true → s.placeWaits k size = false →
      ∃ t, exec (.multicastApply p n) s = .next t ∧ (t.group p n).applied = r.seq ∧ t.readNum k size = data % 2 ^ (8 * size)
        ∧ ∀ j, j < k ∨ k + size ≤ j → t.readByte j = s.readByte j)
    ∧ (e.state = 0 ∨ e.state = 5 → exec (.groupStateError p n) s = .next s)
    ∧ (e.state ≠ 0 → e.state ≠ 5 → ∃ t, exec (.groupStateError p n) s = .next t ∧ t.mem = s.mem ∧ t.group p n = { e with state := 5, kept := [] }))
  ∧ (∀ (s : State) (n : Nat), ∃ t, exec (.stableBroadcast n) s = .next t ∧ t.mem = s.mem
    ∧ ∀ p ∈ (s.headgate n).members, (t.group p n).kept = (s.group p n).kept.filter fun r => decide ((s.headgate n).stable < r.seq))
  ∧ (∀ (s : State) (p n : Nat) (v : DWord), (4096 ≤ n → exec (.groupEnJoin p n v) s = .next s ∧ exec (.groupEnLeave p n v) s = .next s)
    ∧ (n < 4096 →
      let e := s.group p n
      (e.state = 0 → ∃ t, exec (.groupEnJoin p n v) s = .next t ∧ t.mem = s.mem
        ∧ let f := t.group p n
          f.en = true ∧ f.hdie = v.toNat / 2 ^ 60 % 2
          ∧ (s.memberPackage p f = true → f.state = 1 ∧ t.msgs = s.msgs ++ [(s.nextId, .batch { gang := none, group := n, items := [(0, .join p, 0)], dreg := none, held := false })])
          ∧ (s.memberPackage p f = false → f.state = 0 ∧ t.msgs = s.msgs))
      ∧ (e.state ≠ 0 → ∃ t, exec (.groupEnJoin p n v) s = .next t ∧ t.mem = s.mem ∧ (t.group p n).en = true ∧ (t.group p n).state = e.state
        ∧ (t.group p n).hdie = v.toNat / 2 ^ 60 % 2 ∧ t.msgs = s.msgs)
      ∧ (e.state = 2 → ∃ t, exec (.groupEnLeave p n v) s = .next t ∧ t.mem = s.mem ∧ (t.group p n).en = false ∧ (t.group p n).state = 3
        ∧ t.msgs = s.msgs ++ [(s.nextId, .batch { gang := none, group := n, items := [(0, .leave p, 0)], dreg := none, held := false })])
      ∧ (e.state = 0 ∨ e.state = 5 → ∃ t, exec (.groupEnLeave p n v) s = .next t ∧ t.mem = s.mem ∧ (t.group p n).en = false
        ∧ (t.group p n).state = 0)
      ∧ (e.state = 1 ∨ e.state = 3 ∨ e.state = 4 → ∃ t, exec (.groupEnLeave p n v) s = .next t ∧ t.mem = s.mem ∧ (t.group p n).en = false
        ∧ (t.group p n).state = e.state ∧ t.msgs = s.msgs)))
  ∧ (∀ (s : State) (n hpkg hdie m : Nat),
    let h := s.headgate n
    (s.rehoming n = false → exec (.headgateRehome n hpkg hdie) s = .next s)
    ∧ ((∃ p ∈ h.members, (s.group p n).state = 4 ∧ (s.group p n).hpkg ≠ hpkg) → exec (.headgateRehome n hpkg hdie) s = .next s)
    ∧ (h.members ≠ [] → (∀ p ∈ h.members, (s.group p n).state = 4 ∧ (s.group p n).hpkg = hpkg ∧ (s.group p n).hdie = hdie
        ∧ (s.pkg p).deadPkg hpkg = false ∧ (s.group p n).applied = m) →
      ∃ t, exec (.headgateRehome n hpkg hdie) s = .next t ∧ t.mem = s.mem ∧ (t.headgate n).next = m + 1 ∧ (t.headgate n).epoch = h.epoch + 1
        ∧ ∀ p ∈ h.members, (t.group p n).state = 2 ∧ (t.group p n).voidfrom = m + 1 ∧ (t.group p n).epoch = h.epoch + 1))
  ∧ (∀ (s : State) (n : Nat) (a : Arrival) (w : WeirId), tfind n s.msgs = some (.arrival a) →
    let v := s.weir a.weir a.phaser
    let x := s.entryAt w a.phaser
    let next := { v with arr := v.arr + 1, bound := v.bound || a.bound, engine := v.engine || a.engine }
    (a.weir ≠ w ∨ s.linkBusy n a = true → exec (.weirArrival n w) s = .next s)
    ∧ (a.weir = w → s.linkBusy n a = false → a.phase ≠ v.phase ∨ x.failed = true → exec (.weirArrival n w) s = .next { s with msgs := tdel n s.msgs })
    ∧ (a.weir = w → s.linkBusy n a = false → a.phase = v.phase → x.failed = false → a.finder = none →
      (v.finder = none → v.arr + 1 ≠ v.sig → x.root = w ∨ v.forwarded = false → ∃ t, exec (.weirArrival n w) s = .next t ∧ t.mem = s.mem ∧ t.weir w a.phaser = next
        ∧ t.msgs = tdel n s.msgs)
      ∧ (∀ up, x.root ≠ w → parentWeir w = some up → v.arr + 1 = v.sig → v.forwarded = false → ∃ t, exec (.weirArrival n w) s = .next t ∧ t.mem = s.mem
        ∧ t.weir w a.phaser = { next with forwarded := true }
        ∧ t.msgs = tdel n s.msgs ++ [(s.nextId, .arrival ⟨a.phaser, up, v.phase, v.bound || a.bound, none, v.engine || a.engine, some w, none⟩)])
      ∧ (∀ up, x.root ≠ w → parentWeir w = some up → v.forwarded = true → ∃ t, exec (.weirArrival n w) s = .next t ∧ t.mem = s.mem
        ∧ t.weir w a.phaser = { v with bound := v.bound || a.bound, engine := v.engine || a.engine }
        ∧ t.msgs = tdel n s.msgs ++ [(s.nextId, .arrival ⟨a.phaser, up, a.phase, a.bound, none, a.engine, some w, none⟩)])
      ∧ (x.root = w → v.arr + 1 = v.sig → v.hold = true → ∃ t, exec (.weirArrival n w) s = .next t ∧ t.mem = s.mem ∧ t.weir w a.phaser = next)
      ∧ (x.root = w → x.en = true → v.arr + 1 = v.sig → v.hold = false →
        ∃ t, exec (.weirArrival n w) s = .next t ∧ t.mem = s.mem ∧ (t.weir w a.phaser).phase = v.phase + 1 ∧ (t.weir w a.phaser).arr = 0
          ∧ (t.weir w a.phaser).sig = v.sigNext
          ∧ ∀ p, (s.phaser p a.phaser).same x = true → s.registrantAt p a.phaser = true →
            (t.phaser p a.phaser).done = v.phase ∧ (t.phaser p a.phaser).bnd = (v.bound || a.bound) ∧ (t.phaser p a.phaser).fnd = v.finder.isSome)))
  ∧ (∀ (s : State) (n : Nat) (c : Change), tfind n s.msgs = some (.change c) → (∀ g, c.agent ≠ .c g) →
    let x := s.phaser (agentDie c.agent).pkg c.phaser
    let v := s.weir x.root c.phaser
    let first := if v.sig = 0 ∨ v.hold = true then v.phase else v.phase + 1
    let held (r : PhReg) := ∃ h ∈ s.heldOf c.agent, h.phaser = r.phaser ∧ h.proxy = r.proxy
    (x.failed = true → exec (.phaserMembershipAtRoot n) s = .next { s with msgs := tdel n s.msgs })
    ∧ (x.failed = false → s.changeBusy n c = true → exec (.phaserMembershipAtRoot n) s = .next s)
    ∧ (x.failed = false → s.changeBusy n c = false → x.root ≠ c.weir → ∀ up, parentWeir c.weir = some up → exec (.phaserMembershipAtRoot n) s = .next { s with
        msgs := tdel n s.msgs ++ [(s.nextId, .change { c with weir := up, source := some c.weir })], nextId := s.nextId + 1 })
    ∧ (x.failed = false → s.changeBusy n c = false → x.root = c.weir → c.join = true → ∃ t, exec (.phaserMembershipAtRoot n) s = .next t ∧ t.mem = s.mem
      ∧ t.regsOf c.agent = s.regsOf c.agent ++ [⟨c.phaser, c.role, first, c.proxy, 0⟩]
      ∧ (t.weir (.die (agentDie c.agent)) c.phaser).phase = v.phase ∧ (t.phaser (agentDie c.agent).pkg c.phaser).done = v.phase - 1)
    ∧ (x.failed = false → s.changeBusy n c = false → x.root = c.weir → c.join = false →
      ((∃ r ∈ s.regsOf c.agent, r.phaser = c.phaser ∧ held r) → ∃ t, exec (.phaserMembershipAtRoot n) s = .next t
        ∧ t.mem = s.mem ∧ tfind n t.msgs = some (.change { c with taken := true }) ∧ t.waitOf c.agent = s.waitOf c.agent)
      ∧ ((∀ r ∈ s.regsOf c.agent, r.phaser = c.phaser → ¬ held r) → ∃ t, exec (.phaserMembershipAtRoot n) s = .next t ∧ t.mem = s.mem
        ∧ t.regsOf c.agent = (s.regsOf c.agent).filter (fun r => r.phaser != c.phaser)
        ∧ (s.waitOf c.agent = some (.leave c.phaser) → t.waitOf c.agent = none ∧ t.pc c.agent = s.pc c.agent + 4))))
  ∧ (∀ (s : State) (n : Nat),
    let m := n % 4096
    let x := s.phaser (n / 4096) m
    (x.en = false ∨ x.failed = true → exec (.phaserFail n) s = .next s)
    ∧ (x.en = true → x.failed = false → ∃ t, exec (.phaserFail n) s = .next t ∧ t.mem = s.mem
      ∧ ∀ p, (s.phaser p m).same x = true → (t.phaser p m).failed = true
        ∧ (s.registrantAt p m = true → (t.phaser p m).done = (s.weir x.root m).phase)))
  ∧ (∀ (s : State) (p n : Nat), (s.weirLost.contains (p, n, false) = false → exec (.weirStandbyTakeover p n) s = .next s)
    ∧ (s.weirLost.contains (p, n, false) = true → s.weirLost.contains (p, n, true) = true → exec (.weirStandbyTakeover p n) s = .next (s.failPhaser p n))
    ∧ (s.weirLost.contains (p, n, false) = true → s.weirLost.contains (p, n, true) = false → ∃ t, exec (.weirStandbyTakeover p n) s = .next t ∧ t.mem = s.mem
      ∧ (p, n, false) ∉ t.weirLost ∧ ∀ e, e ≠ (p, n, false) → (e ∈ t.weirLost ↔ e ∈ s.weirLost)))
  ∧ (∀ (s : State) (p n : Nat) (v : DWord) (i : Instr), i = .phaserEntryEnWrite p n v ∨ i = .phaserHoldWrite p n v →
    let x := s.phaser p n
    let top := s.weir (.pod 3 0) n
    (x.en = false → v.getLsbD 0 = true → v.toNat / 2 ^ 32 % 4 ≠ 3 →
      (v.toNat / 2 ^ 32 % 4 = 2 → v.getLsbD 4 = true ∨ top.finder = none ∧ (top.sig = 0 ∨ top.arr ≠ top.sig)) →
      ∃ t, exec i s = .next t ∧ t.mem = s.mem ∧ t.phaser p n =
      { en := true, hold := v.getLsbD 4, anyof := v.getLsbD 5, level := v.toNat / 2 ^ 32 % 4, rdie := v.toNat / 2 ^ 34 % 2 ^ 4
        rpkg := v.toNat / 2 ^ 38 % 2 ^ 10, ctx := v.toNat / 2 ^ 48 % 2 ^ 16, done := 0xFFFFFFFF }
      ∧ (∀ d, d.pkg = p → t.weir (.die d) n = { hold := decide ((t.phaser p n).root = .die d) && v.getLsbD 4 })
      ∧ ((t.phaser p n).level = 2 ∨ (t.phaser p n).rpkg = p → (t.weir (t.phaser p n).root n).hold = v.getLsbD 4))
    ∧ (x.en = false → v.getLsbD 0 = true → v.toNat / 2 ^ 32 % 4 = 2 → v.getLsbD 4 = false → top.sig ≠ 0 → top.arr = top.sig →
      (∃ q, q ≠ p ∧ (s.phaser q n).en = true ∧ (s.phaser q n).level = 2) →
      Config.podHost 3 0 ≠ p → (∀ q ∈ s.pkgs, let y : Phaser := tget n {} q.2.phasers
        y.en = true → y.level = 2 → y.failed = false) →
      ∃ t, exec i s = .next t ∧ t.mem = s.mem ∧ (t.weir (.pod 3 0) n).phase = top.phase + 1)
    ∧ (x.en = true → v.getLsbD 0 = false → ∃ t, exec i s = .next t ∧ t.mem = s.mem ∧ (t.phaser p n).en = false
      ∧ (∀ u, (agentDie u).pkg = p → ∀ r ∈ t.regsOf u, r.phaser ≠ n)
      ∧ ∀ y ∈ (t.pkg p).images, (∀ g ∈ y.gangs, ∀ r ∈ g.gang.regs, r.phaser ≠ n) ∧ ∀ c ∈ y.ctls, ∀ r ∈ c.ctl.regs, r.phaser ≠ n)
    ∧ (x.en = true → v.getLsbD 0 = true → ∃ t, exec i s = .next t ∧ t.mem = s.mem ∧ (t.phaser p n).en = true ∧ (t.phaser p n).hold = v.getLsbD 4
      ∧ (t.weir x.root n).hold = v.getLsbD 4
      ∧ (x.level ≤ 1 → x.rpkg = p → x.failed = false → v.getLsbD 4 = false → (s.weir x.root n).sig ≠ 0 →
        (s.weir x.root n).arr = (s.weir x.root n).sig → (t.weir x.root n).phase = (s.weir x.root n).phase + 1)
      ∧ (t.phaser p n).failed = x.failed
      ∧ ((t.phaser p n).failed && !(t.phaser p n).cleared) = (x.failed && !x.cleared && !v.getLsbD 7)))

/-- When an instruction with no destination register answers a next state, every register of every gang and controller, and
every gang's mode, slip, checked mode and trap record and every vector table, are as before. When an instruction of a stream
other than acq, rel, copyt, cwait, mappg and unmappg answers a next state, every byte of memory reads as before; so it does
after copyt and cwait where no granule is marked. mappg and unmappg leave every byte outside the leaves that they compute for
their page as before. -/
def Obligations.RegisterAndMemoryFrames : Prop :=
  (∀ (s t : State) (i : Instr), noDestination i = true → exec i s = .next t → s.sameRegs t ∧ s.sameStatus t)
  ∧ (∀ (s t : State) (i : Instr), i.isEvent = false → writesMemory i = false → exec i s = .next t → ∀ k, t.readByte k = s.readByte k)
  ∧ (∀ (s t : State) (i : Instr) (b a d : BitVec 6), i = .copyt b a d ∨ i = .cwait b a → s.marks = [] → exec i s = .next t →
    ∀ k, t.readByte k = s.readByte k)
  ∧ (∀ (s t : State) (g : GangId) (i : Instr) (z : BitVec 2) (b a d : BitVec 6) (pas : List Nat), s.Inv → s.cur = .a g → issues i s = true →
    let r := s.countIssue (.a g)
    let value (c : BitVec 6) : DWord := leaderValue r (.a g) .b64 c.toNat
    (i = .mappg z b a d ∧ (∃ frame, r.mapPlan g z.toNat (value a) (value b) (value d) = .inr (pas, frame))
      ∨ i = .unmappg z a ∧ s.leavesOf g.pkg (s.gang g).ctx (value a).toNat z.toNat = some pas) →
    exec i s = .next t →
    ∀ k, (∀ pa ∈ pas, k < hbmKey g.pkg pa ∨ hbmKey g.pkg pa + 8 ≤ k) → t.readByte k = s.readByte k)
end

