-- ==== Sys2Proof/Laws/State.lean ====
section
/-! SUPPORT. What an update of one part of the state leaves of every other part, true by unfolding, and reading a table after
setting it. -/

namespace Sys2Proof.Machine

/-! ## Tables -/

theorem tget_tset_same {K V : Type} [DecidableEq K] (k : K) (v d : V) (t : Table K V) : tget k d (tset k v t) = v := by
  induction t with
  | nil => simp [tset, tget]
  | cons p t ih => by_cases h : p.1 = k <;> simp [tset, tget, h, ih]

theorem tget_tset_other {K V : Type} [DecidableEq K] (k j : K) (v d : V) (t : Table K V) (h : j ≠ k) :
    tget j d (tset k v t) = tget j d t := by
  induction t with
  | nil => simp [tset, tget, Ne.symm h]
  | cons p t ih =>
    by_cases hp : p.1 = k
    · simp [tset, tget, hp, Ne.symm h]
    · simp only [tset, if_neg hp, tget, ih]

/-! ## One lemma for each field and update -/

@[simp] theorem State.setGang_cur (s : State) (g : GangId) (x : Gang) : (s.setGang g x).cur = s.cur := rfl
@[simp] theorem State.setGang_issue (s : State) (g : GangId) (x : Gang) : (s.setGang g x).issue = s.issue := rfl
@[simp] theorem State.setGang_agenda (s : State) (g : GangId) (x : Gang) : (s.setGang g x).agenda = s.agenda := rfl
@[simp] theorem State.setGang_clock (s : State) (g : GangId) (x : Gang) : (s.setGang g x).clock = s.clock := rfl
@[simp] theorem State.setGang_nextId (s : State) (g : GangId) (x : Gang) : (s.setGang g x).nextId = s.nextId := rfl
@[simp] theorem State.setGang_glitch (s : State) (g : GangId) (x : Gang) : (s.setGang g x).glitch = s.glitch := rfl
@[simp] theorem State.setGang_cores (s : State) (g : GangId) (x : Gang) : (s.setGang g x).cores = s.cores := rfl
@[simp] theorem State.setGang_clus (s : State) (g : GangId) (x : Gang) : (s.setGang g x).clus = s.clus := rfl
@[simp] theorem State.setGang_dies (s : State) (g : GangId) (x : Gang) : (s.setGang g x).dies = s.dies := rfl
@[simp] theorem State.setGang_pkgs (s : State) (g : GangId) (x : Gang) : (s.setGang g x).pkgs = s.pkgs := rfl
@[simp] theorem State.setGang_bindings (s : State) (g : GangId) (x : Gang) : (s.setGang g x).bindings = s.bindings := rfl
@[simp] theorem State.setGang_msgs (s : State) (g : GangId) (x : Gang) : (s.setGang g x).msgs = s.msgs := rfl
@[simp] theorem State.setGang_headgates (s : State) (g : GangId) (x : Gang) : (s.setGang g x).headgates = s.headgates := rfl
@[simp] theorem State.setGang_weirs (s : State) (g : GangId) (x : Gang) : (s.setGang g x).weirs = s.weirs := rfl
@[simp] theorem State.setGang_weirLost (s : State) (g : GangId) (x : Gang) : (s.setGang g x).weirLost = s.weirLost := rfl
@[simp] theorem State.setGang_mem (s : State) (g : GangId) (x : Gang) : (s.setGang g x).mem = s.mem := rfl
@[simp] theorem State.setGang_full (s : State) (g : GangId) (x : Gang) : (s.setGang g x).full = s.full := rfl
@[simp] theorem State.setGang_marks (s : State) (g : GangId) (x : Gang) : (s.setGang g x).marks = s.marks := rfl
@[simp] theorem State.setGang_flight (s : State) (g : GangId) (x : Gang) : (s.setGang g x).flight = s.flight := rfl
@[simp] theorem State.modGang_cur (s : State) (g : GangId) (f : Gang → Gang) : (s.modGang g f).cur = s.cur := rfl
@[simp] theorem State.modGang_issue (s : State) (g : GangId) (f : Gang → Gang) : (s.modGang g f).issue = s.issue := rfl
@[simp] theorem State.modGang_agenda (s : State) (g : GangId) (f : Gang → Gang) : (s.modGang g f).agenda = s.agenda := rfl
@[simp] theorem State.modGang_clock (s : State) (g : GangId) (f : Gang → Gang) : (s.modGang g f).clock = s.clock := rfl
@[simp] theorem State.modGang_nextId (s : State) (g : GangId) (f : Gang → Gang) : (s.modGang g f).nextId = s.nextId := rfl
@[simp] theorem State.modGang_glitch (s : State) (g : GangId) (f : Gang → Gang) : (s.modGang g f).glitch = s.glitch := rfl
@[simp] theorem State.modGang_cores (s : State) (g : GangId) (f : Gang → Gang) : (s.modGang g f).cores = s.cores := rfl
@[simp] theorem State.modGang_clus (s : State) (g : GangId) (f : Gang → Gang) : (s.modGang g f).clus = s.clus := rfl
@[simp] theorem State.modGang_dies (s : State) (g : GangId) (f : Gang → Gang) : (s.modGang g f).dies = s.dies := rfl
@[simp] theorem State.modGang_pkgs (s : State) (g : GangId) (f : Gang → Gang) : (s.modGang g f).pkgs = s.pkgs := rfl
@[simp] theorem State.modGang_bindings (s : State) (g : GangId) (f : Gang → Gang) : (s.modGang g f).bindings = s.bindings := rfl
@[simp] theorem State.modGang_msgs (s : State) (g : GangId) (f : Gang → Gang) : (s.modGang g f).msgs = s.msgs := rfl
@[simp] theorem State.modGang_headgates (s : State) (g : GangId) (f : Gang → Gang) : (s.modGang g f).headgates = s.headgates := rfl
@[simp] theorem State.modGang_weirs (s : State) (g : GangId) (f : Gang → Gang) : (s.modGang g f).weirs = s.weirs := rfl
@[simp] theorem State.modGang_weirLost (s : State) (g : GangId) (f : Gang → Gang) : (s.modGang g f).weirLost = s.weirLost := rfl
@[simp] theorem State.modGang_mem (s : State) (g : GangId) (f : Gang → Gang) : (s.modGang g f).mem = s.mem := rfl
@[simp] theorem State.modGang_full (s : State) (g : GangId) (f : Gang → Gang) : (s.modGang g f).full = s.full := rfl
@[simp] theorem State.modGang_marks (s : State) (g : GangId) (f : Gang → Gang) : (s.modGang g f).marks = s.marks := rfl
@[simp] theorem State.modGang_flight (s : State) (g : GangId) (f : Gang → Gang) : (s.modGang g f).flight = s.flight := rfl
@[simp] theorem State.modCore_cur (s : State) (c : CoreId) (f : Core → Core) : (s.modCore c f).cur = s.cur := rfl
@[simp] theorem State.modCore_issue (s : State) (c : CoreId) (f : Core → Core) : (s.modCore c f).issue = s.issue := rfl
@[simp] theorem State.modCore_agenda (s : State) (c : CoreId) (f : Core → Core) : (s.modCore c f).agenda = s.agenda := rfl
@[simp] theorem State.modCore_clock (s : State) (c : CoreId) (f : Core → Core) : (s.modCore c f).clock = s.clock := rfl
@[simp] theorem State.modCore_nextId (s : State) (c : CoreId) (f : Core → Core) : (s.modCore c f).nextId = s.nextId := rfl
@[simp] theorem State.modCore_glitch (s : State) (c : CoreId) (f : Core → Core) : (s.modCore c f).glitch = s.glitch := rfl
@[simp] theorem State.modCore_gangs (s : State) (c : CoreId) (f : Core → Core) : (s.modCore c f).gangs = s.gangs := rfl
@[simp] theorem State.modCore_clus (s : State) (c : CoreId) (f : Core → Core) : (s.modCore c f).clus = s.clus := rfl
@[simp] theorem State.modCore_dies (s : State) (c : CoreId) (f : Core → Core) : (s.modCore c f).dies = s.dies := rfl
@[simp] theorem State.modCore_pkgs (s : State) (c : CoreId) (f : Core → Core) : (s.modCore c f).pkgs = s.pkgs := rfl
@[simp] theorem State.modCore_bindings (s : State) (c : CoreId) (f : Core → Core) : (s.modCore c f).bindings = s.bindings := rfl
@[simp] theorem State.modCore_msgs (s : State) (c : CoreId) (f : Core → Core) : (s.modCore c f).msgs = s.msgs := rfl
@[simp] theorem State.modCore_headgates (s : State) (c : CoreId) (f : Core → Core) : (s.modCore c f).headgates = s.headgates := rfl
@[simp] theorem State.modCore_weirs (s : State) (c : CoreId) (f : Core → Core) : (s.modCore c f).weirs = s.weirs := rfl
@[simp] theorem State.modCore_weirLost (s : State) (c : CoreId) (f : Core → Core) : (s.modCore c f).weirLost = s.weirLost := rfl
@[simp] theorem State.modCore_mem (s : State) (c : CoreId) (f : Core → Core) : (s.modCore c f).mem = s.mem := rfl
@[simp] theorem State.modCore_full (s : State) (c : CoreId) (f : Core → Core) : (s.modCore c f).full = s.full := rfl
@[simp] theorem State.modCore_marks (s : State) (c : CoreId) (f : Core → Core) : (s.modCore c f).marks = s.marks := rfl
@[simp] theorem State.modCore_flight (s : State) (c : CoreId) (f : Core → Core) : (s.modCore c f).flight = s.flight := rfl
@[simp] theorem State.modClu_cur (s : State) (c : CluId) (f : Clu → Clu) : (s.modClu c f).cur = s.cur := rfl
@[simp] theorem State.modClu_issue (s : State) (c : CluId) (f : Clu → Clu) : (s.modClu c f).issue = s.issue := rfl
@[simp] theorem State.modClu_agenda (s : State) (c : CluId) (f : Clu → Clu) : (s.modClu c f).agenda = s.agenda := rfl
@[simp] theorem State.modClu_clock (s : State) (c : CluId) (f : Clu → Clu) : (s.modClu c f).clock = s.clock := rfl
@[simp] theorem State.modClu_nextId (s : State) (c : CluId) (f : Clu → Clu) : (s.modClu c f).nextId = s.nextId := rfl
@[simp] theorem State.modClu_glitch (s : State) (c : CluId) (f : Clu → Clu) : (s.modClu c f).glitch = s.glitch := rfl
@[simp] theorem State.modClu_gangs (s : State) (c : CluId) (f : Clu → Clu) : (s.modClu c f).gangs = s.gangs := rfl
@[simp] theorem State.modClu_cores (s : State) (c : CluId) (f : Clu → Clu) : (s.modClu c f).cores = s.cores := rfl
@[simp] theorem State.modClu_dies (s : State) (c : CluId) (f : Clu → Clu) : (s.modClu c f).dies = s.dies := rfl
@[simp] theorem State.modClu_pkgs (s : State) (c : CluId) (f : Clu → Clu) : (s.modClu c f).pkgs = s.pkgs := rfl
@[simp] theorem State.modClu_bindings (s : State) (c : CluId) (f : Clu → Clu) : (s.modClu c f).bindings = s.bindings := rfl
@[simp] theorem State.modClu_msgs (s : State) (c : CluId) (f : Clu → Clu) : (s.modClu c f).msgs = s.msgs := rfl
@[simp] theorem State.modClu_headgates (s : State) (c : CluId) (f : Clu → Clu) : (s.modClu c f).headgates = s.headgates := rfl
@[simp] theorem State.modClu_weirs (s : State) (c : CluId) (f : Clu → Clu) : (s.modClu c f).weirs = s.weirs := rfl
@[simp] theorem State.modClu_weirLost (s : State) (c : CluId) (f : Clu → Clu) : (s.modClu c f).weirLost = s.weirLost := rfl
@[simp] theorem State.modClu_mem (s : State) (c : CluId) (f : Clu → Clu) : (s.modClu c f).mem = s.mem := rfl
@[simp] theorem State.modClu_full (s : State) (c : CluId) (f : Clu → Clu) : (s.modClu c f).full = s.full := rfl
@[simp] theorem State.modClu_marks (s : State) (c : CluId) (f : Clu → Clu) : (s.modClu c f).marks = s.marks := rfl
@[simp] theorem State.modClu_flight (s : State) (c : CluId) (f : Clu → Clu) : (s.modClu c f).flight = s.flight := rfl
@[simp] theorem State.modCtl_cur (s : State) (c : CluId) (f : Ctl → Ctl) : (s.modCtl c f).cur = s.cur := rfl
@[simp] theorem State.modCtl_issue (s : State) (c : CluId) (f : Ctl → Ctl) : (s.modCtl c f).issue = s.issue := rfl
@[simp] theorem State.modCtl_agenda (s : State) (c : CluId) (f : Ctl → Ctl) : (s.modCtl c f).agenda = s.agenda := rfl
@[simp] theorem State.modCtl_clock (s : State) (c : CluId) (f : Ctl → Ctl) : (s.modCtl c f).clock = s.clock := rfl
@[simp] theorem State.modCtl_nextId (s : State) (c : CluId) (f : Ctl → Ctl) : (s.modCtl c f).nextId = s.nextId := rfl
@[simp] theorem State.modCtl_glitch (s : State) (c : CluId) (f : Ctl → Ctl) : (s.modCtl c f).glitch = s.glitch := rfl
@[simp] theorem State.modCtl_gangs (s : State) (c : CluId) (f : Ctl → Ctl) : (s.modCtl c f).gangs = s.gangs := rfl
@[simp] theorem State.modCtl_cores (s : State) (c : CluId) (f : Ctl → Ctl) : (s.modCtl c f).cores = s.cores := rfl
@[simp] theorem State.modCtl_dies (s : State) (c : CluId) (f : Ctl → Ctl) : (s.modCtl c f).dies = s.dies := rfl
@[simp] theorem State.modCtl_pkgs (s : State) (c : CluId) (f : Ctl → Ctl) : (s.modCtl c f).pkgs = s.pkgs := rfl
@[simp] theorem State.modCtl_bindings (s : State) (c : CluId) (f : Ctl → Ctl) : (s.modCtl c f).bindings = s.bindings := rfl
@[simp] theorem State.modCtl_msgs (s : State) (c : CluId) (f : Ctl → Ctl) : (s.modCtl c f).msgs = s.msgs := rfl
@[simp] theorem State.modCtl_headgates (s : State) (c : CluId) (f : Ctl → Ctl) : (s.modCtl c f).headgates = s.headgates := rfl
@[simp] theorem State.modCtl_weirs (s : State) (c : CluId) (f : Ctl → Ctl) : (s.modCtl c f).weirs = s.weirs := rfl
@[simp] theorem State.modCtl_weirLost (s : State) (c : CluId) (f : Ctl → Ctl) : (s.modCtl c f).weirLost = s.weirLost := rfl
@[simp] theorem State.modCtl_mem (s : State) (c : CluId) (f : Ctl → Ctl) : (s.modCtl c f).mem = s.mem := rfl
@[simp] theorem State.modCtl_full (s : State) (c : CluId) (f : Ctl → Ctl) : (s.modCtl c f).full = s.full := rfl
@[simp] theorem State.modCtl_marks (s : State) (c : CluId) (f : Ctl → Ctl) : (s.modCtl c f).marks = s.marks := rfl
@[simp] theorem State.modCtl_flight (s : State) (c : CluId) (f : Ctl → Ctl) : (s.modCtl c f).flight = s.flight := rfl
@[simp] theorem State.modDie_cur (s : State) (d : DieId) (f : Die → Die) : (s.modDie d f).cur = s.cur := rfl
@[simp] theorem State.modDie_issue (s : State) (d : DieId) (f : Die → Die) : (s.modDie d f).issue = s.issue := rfl
@[simp] theorem State.modDie_agenda (s : State) (d : DieId) (f : Die → Die) : (s.modDie d f).agenda = s.agenda := rfl
@[simp] theorem State.modDie_clock (s : State) (d : DieId) (f : Die → Die) : (s.modDie d f).clock = s.clock := rfl
@[simp] theorem State.modDie_nextId (s : State) (d : DieId) (f : Die → Die) : (s.modDie d f).nextId = s.nextId := rfl
@[simp] theorem State.modDie_glitch (s : State) (d : DieId) (f : Die → Die) : (s.modDie d f).glitch = s.glitch := rfl
@[simp] theorem State.modDie_gangs (s : State) (d : DieId) (f : Die → Die) : (s.modDie d f).gangs = s.gangs := rfl
@[simp] theorem State.modDie_cores (s : State) (d : DieId) (f : Die → Die) : (s.modDie d f).cores = s.cores := rfl
@[simp] theorem State.modDie_clus (s : State) (d : DieId) (f : Die → Die) : (s.modDie d f).clus = s.clus := rfl
@[simp] theorem State.modDie_pkgs (s : State) (d : DieId) (f : Die → Die) : (s.modDie d f).pkgs = s.pkgs := rfl
@[simp] theorem State.modDie_bindings (s : State) (d : DieId) (f : Die → Die) : (s.modDie d f).bindings = s.bindings := rfl
@[simp] theorem State.modDie_msgs (s : State) (d : DieId) (f : Die → Die) : (s.modDie d f).msgs = s.msgs := rfl
@[simp] theorem State.modDie_headgates (s : State) (d : DieId) (f : Die → Die) : (s.modDie d f).headgates = s.headgates := rfl
@[simp] theorem State.modDie_weirs (s : State) (d : DieId) (f : Die → Die) : (s.modDie d f).weirs = s.weirs := rfl
@[simp] theorem State.modDie_weirLost (s : State) (d : DieId) (f : Die → Die) : (s.modDie d f).weirLost = s.weirLost := rfl
@[simp] theorem State.modDie_mem (s : State) (d : DieId) (f : Die → Die) : (s.modDie d f).mem = s.mem := rfl
@[simp] theorem State.modDie_full (s : State) (d : DieId) (f : Die → Die) : (s.modDie d f).full = s.full := rfl
@[simp] theorem State.modDie_marks (s : State) (d : DieId) (f : Die → Die) : (s.modDie d f).marks = s.marks := rfl
@[simp] theorem State.modDie_flight (s : State) (d : DieId) (f : Die → Die) : (s.modDie d f).flight = s.flight := rfl
@[simp] theorem State.modPkg_cur (s : State) (p : Nat) (f : Pkg → Pkg) : (s.modPkg p f).cur = s.cur := rfl
@[simp] theorem State.modPkg_issue (s : State) (p : Nat) (f : Pkg → Pkg) : (s.modPkg p f).issue = s.issue := rfl
@[simp] theorem State.modPkg_agenda (s : State) (p : Nat) (f : Pkg → Pkg) : (s.modPkg p f).agenda = s.agenda := rfl
@[simp] theorem State.modPkg_clock (s : State) (p : Nat) (f : Pkg → Pkg) : (s.modPkg p f).clock = s.clock := rfl
@[simp] theorem State.modPkg_nextId (s : State) (p : Nat) (f : Pkg → Pkg) : (s.modPkg p f).nextId = s.nextId := rfl
@[simp] theorem State.modPkg_glitch (s : State) (p : Nat) (f : Pkg → Pkg) : (s.modPkg p f).glitch = s.glitch := rfl
@[simp] theorem State.modPkg_gangs (s : State) (p : Nat) (f : Pkg → Pkg) : (s.modPkg p f).gangs = s.gangs := rfl
@[simp] theorem State.modPkg_cores (s : State) (p : Nat) (f : Pkg → Pkg) : (s.modPkg p f).cores = s.cores := rfl
@[simp] theorem State.modPkg_clus (s : State) (p : Nat) (f : Pkg → Pkg) : (s.modPkg p f).clus = s.clus := rfl
@[simp] theorem State.modPkg_dies (s : State) (p : Nat) (f : Pkg → Pkg) : (s.modPkg p f).dies = s.dies := rfl
@[simp] theorem State.modPkg_bindings (s : State) (p : Nat) (f : Pkg → Pkg) : (s.modPkg p f).bindings = s.bindings := rfl
@[simp] theorem State.modPkg_msgs (s : State) (p : Nat) (f : Pkg → Pkg) : (s.modPkg p f).msgs = s.msgs := rfl
@[simp] theorem State.modPkg_headgates (s : State) (p : Nat) (f : Pkg → Pkg) : (s.modPkg p f).headgates = s.headgates := rfl
@[simp] theorem State.modPkg_weirs (s : State) (p : Nat) (f : Pkg → Pkg) : (s.modPkg p f).weirs = s.weirs := rfl
@[simp] theorem State.modPkg_weirLost (s : State) (p : Nat) (f : Pkg → Pkg) : (s.modPkg p f).weirLost = s.weirLost := rfl
@[simp] theorem State.modPkg_mem (s : State) (p : Nat) (f : Pkg → Pkg) : (s.modPkg p f).mem = s.mem := rfl
@[simp] theorem State.modPkg_full (s : State) (p : Nat) (f : Pkg → Pkg) : (s.modPkg p f).full = s.full := rfl
@[simp] theorem State.modPkg_marks (s : State) (p : Nat) (f : Pkg → Pkg) : (s.modPkg p f).marks = s.marks := rfl
@[simp] theorem State.modPkg_flight (s : State) (p : Nat) (f : Pkg → Pkg) : (s.modPkg p f).flight = s.flight := rfl

/-! ## Reading back what was written -/

@[simp] theorem State.gang_setGang (s : State) (g : GangId) (x : Gang) : (s.setGang g x).gang g = x := tget_tset_same ..
@[simp] theorem State.gang_modGang (s : State) (g : GangId) (f : Gang → Gang) : (s.modGang g f).gang g = f (s.gang g) :=
  tget_tset_same ..
@[simp] theorem State.core_modCore (s : State) (c : CoreId) (f : Core → Core) : (s.modCore c f).core c = f (s.core c) :=
  tget_tset_same ..
@[simp] theorem State.clu_modClu (s : State) (c : CluId) (f : Clu → Clu) : (s.modClu c f).clu c = f (s.clu c) := tget_tset_same ..
@[simp] theorem State.ctl_modCtl (s : State) (c : CluId) (f : Ctl → Ctl) : ((s.modCtl c f).clu c).ctl = f (s.clu c).ctl := by
  simp [State.modCtl]
@[simp] theorem State.die_modDie (s : State) (d : DieId) (f : Die → Die) : (s.modDie d f).die d = f (s.die d) := tget_tset_same ..
@[simp] theorem State.pkg_modPkg (s : State) (p : Nat) (f : Pkg → Pkg) : (s.modPkg p f).pkg p = f (s.pkg p) := tget_tset_same ..

theorem State.gang_setGang_other (s : State) (g h : GangId) (x : Gang) (n : h ≠ g) : (s.setGang g x).gang h = s.gang h :=
  tget_tset_other _ _ _ _ _ n
theorem State.gang_modGang_other (s : State) (g h : GangId) (f : Gang → Gang) (n : h ≠ g) : (s.modGang g f).gang h = s.gang h :=
  tget_tset_other _ _ _ _ _ n
theorem State.core_modCore_other (s : State) (c e : CoreId) (f : Core → Core) (n : e ≠ c) : (s.modCore c f).core e = s.core e :=
  tget_tset_other _ _ _ _ _ n
theorem State.clu_modClu_other (s : State) (c e : CluId) (f : Clu → Clu) (n : e ≠ c) : (s.modClu c f).clu e = s.clu e :=
  tget_tset_other _ _ _ _ _ n
theorem State.die_modDie_other (s : State) (d e : DieId) (f : Die → Die) (n : e ≠ d) : (s.modDie d f).die e = s.die e :=
  tget_tset_other _ _ _ _ _ n
theorem State.pkg_modPkg_other (s : State) (p q : Nat) (f : Pkg → Pkg) (n : q ≠ p) : (s.modPkg p f).pkg q = s.pkg q :=
  tget_tset_other _ _ _ _ _ n

/-! ## Readers that look at one part only -/

@[simp] theorem State.gang_modCore (s : State) (c : CoreId) (f : Core → Core) (g : GangId) : (s.modCore c f).gang g = s.gang g := rfl
@[simp] theorem State.gang_modClu (s : State) (c : CluId) (f : Clu → Clu) (g : GangId) : (s.modClu c f).gang g = s.gang g := rfl
@[simp] theorem State.gang_modCtl (s : State) (c : CluId) (f : Ctl → Ctl) (g : GangId) : (s.modCtl c f).gang g = s.gang g := rfl
@[simp] theorem State.gang_modDie (s : State) (d : DieId) (f : Die → Die) (g : GangId) : (s.modDie d f).gang g = s.gang g := rfl
@[simp] theorem State.gang_modPkg (s : State) (p : Nat) (f : Pkg → Pkg) (g : GangId) : (s.modPkg p f).gang g = s.gang g := rfl
@[simp] theorem State.clu_modGang (s : State) (g : GangId) (f : Gang → Gang) (c : CluId) : (s.modGang g f).clu c = s.clu c := rfl
@[simp] theorem State.core_modGang (s : State) (g : GangId) (f : Gang → Gang) (c : CoreId) : (s.modGang g f).core c = s.core c := rfl
@[simp] theorem State.die_modGang (s : State) (g : GangId) (f : Gang → Gang) (d : DieId) : (s.modGang g f).die d = s.die d := rfl
@[simp] theorem State.pkg_modGang (s : State) (g : GangId) (f : Gang → Gang) (p : Nat) : (s.modGang g f).pkg p = s.pkg p := rfl

end Sys2Proof.Machine
end

