-- ==== Sys2Proof/Laws/Memory.lean ====
section
/-! SUPPORT. Memory: the canonical form is kept by every operation on it, a byte written is read back, and a write leaves every
other byte. -/

namespace Sys2Proof.Machine

/-! ## The canonical form -/

theorem memWfFrom_weaken {lo hi : Nat} (h : lo ≤ hi) : ∀ m, memWfFrom hi m = true → memWfFrom lo m = true
  | [] => fun _ => rfl
  | (a, b) :: t => by
    simp only [memWfFrom, Bool.and_eq_true, decide_eq_true_eq]
    exact fun ⟨⟨x, y⟩, z⟩ => ⟨⟨Nat.le_trans h x, y⟩, z⟩

theorem memWfFrom_memPut (k : Nat) (b : Byte) : ∀ lo m, lo ≤ k → memWfFrom lo m = true → memWfFrom lo (memPut k b m) = true
  | lo, [], hk, _ => by
    by_cases hb : b = 0
    · simp only [memPut, if_pos hb]; rfl
    · simp only [memPut, if_neg hb, memWfFrom, Bool.and_true, Bool.and_eq_true, decide_eq_true_eq]
      exact ⟨hk, by simpa using hb⟩
  | lo, (a, c) :: t, hk, h => by
    simp only [memWfFrom, Bool.and_eq_true, decide_eq_true_eq] at h
    obtain ⟨⟨ha, hc⟩, ht⟩ := h
    unfold memPut
    split
    · rename_i hlt
      simp only [memWfFrom, Bool.and_eq_true, decide_eq_true_eq]
      exact ⟨⟨ha, hc⟩, memWfFrom_memPut k b (a + 1) t hlt ht⟩
    · split
      · rename_i _ heq
        split
        · exact memWfFrom_weaken (by omega) t ht
        · rename_i hb
          simp only [memWfFrom, Bool.and_eq_true, decide_eq_true_eq]
          exact ⟨⟨hk, by simpa using hb⟩, by simpa [heq] using ht⟩
      · split
        · simp only [memWfFrom, Bool.and_eq_true, decide_eq_true_eq]; exact ⟨⟨ha, hc⟩, ht⟩
        · rename_i hb
          simp only [memWfFrom, Bool.and_eq_true, decide_eq_true_eq]
          exact ⟨⟨hk, by simpa using hb⟩, ⟨by omega, hc⟩, ht⟩

theorem memWfFrom_filter (f : Host.Cell → Bool) : ∀ lo m, memWfFrom lo m = true → memWfFrom lo (m.filter f) = true
  | _, [], _ => rfl
  | lo, (a, b) :: t, h => by
    simp only [memWfFrom, Bool.and_eq_true, decide_eq_true_eq] at h
    obtain ⟨⟨ha, hb⟩, ht⟩ := h
    have ih := memWfFrom_filter f (a + 1) t ht
    cases hf : f (a, b)
    · rw [List.filter_cons_of_neg (by simp [hf])]
      exact memWfFrom_weaken (by omega) _ ih
    · rw [List.filter_cons_of_pos hf]
      simp only [memWfFrom, Bool.and_eq_true, decide_eq_true_eq]
      exact ⟨⟨ha, hb⟩, ih⟩

theorem wf_memPut (k : Nat) (b : Byte) (m : List Host.Cell) (h : Memory.wf m = true) : Memory.wf (memPut k b m) = true :=
  memWfFrom_memPut k b 0 m (Nat.zero_le k) h

theorem wf_memPuts : ∀ (bs : List Byte) (k : Nat) (m : List Host.Cell), Memory.wf m = true → Memory.wf (memPuts k bs m) = true
  | [], _, _, h => h
  | b :: bs, k, m, h => wf_memPuts bs (k + 1) _ (wf_memPut k b m h)

theorem wf_filter (f : Host.Cell → Bool) (m : List Host.Cell) (h : Memory.wf m = true) : Memory.wf (m.filter f) = true :=
  memWfFrom_filter f 0 m h

theorem wf_memZero (lo n : Nat) (m : List Host.Cell) (h : Memory.wf m = true) : Memory.wf (memZero lo n m) = true := wf_filter _ m h

/-! ## Reading back -/

theorem memGet_below (k : Nat) : ∀ lo m, k < lo → memWfFrom lo m = true → memGet k m = 0
  | _, [], _, _ => rfl
  | lo, (a, b) :: t, hk, h => by
    simp only [memWfFrom, Bool.and_eq_true, decide_eq_true_eq] at h
    have hne : a ≠ k := by omega
    have hlt : k < a := by omega
    simp [memGet, hne, hlt]

theorem memGet_memPut_from (k j : Nat) (b : Byte) : ∀ lo m, memWfFrom lo m = true →
    memGet j (memPut k b m) = if j = k then b else memGet j m
  | lo, [], _ => by
    by_cases hb : b = 0
    · subst hb; simp [memPut, memGet]
    · simp only [memPut, if_neg hb, memGet]
      by_cases hj : j = k
      · simp only [if_pos hj.symm, if_pos hj]
      · simp only [if_neg (Ne.symm hj), if_neg hj, ite_self]
  | lo, (a, c) :: t, h => by
    simp only [memWfFrom, Bool.and_eq_true, decide_eq_true_eq] at h
    obtain ⟨⟨_, _⟩, ht⟩ := h
    have ih := memGet_memPut_from k j b (a + 1) t ht
    by_cases h1 : a < k
    · simp only [memPut, if_pos h1, memGet, ih]
      split <;> split <;> first | rfl | omega | (split <;> first | rfl | omega)
    · by_cases h2 : a = k
      · subst h2
        simp only [memPut, if_neg h1, if_true]
        by_cases hb : b = 0
        · subst hb
          simp only [if_true, memGet]
          by_cases hj : j = a
          · subst hj; simp [memGet_below j (j + 1) t (by omega) ht]
          · by_cases hlt : j < a
            · simp [hj, Ne.symm hj, hlt, memGet_below j (a + 1) t (by omega) ht]
            · simp [hj, Ne.symm hj, hlt]
        · simp only [if_neg hb, memGet]
          by_cases hj : j = a
          · simp only [if_pos hj.symm, if_pos hj]
          · simp only [if_neg (Ne.symm hj), if_neg hj]
      · by_cases hb : b = 0
        · subst hb
          simp only [memPut, if_neg h1, if_neg h2, if_true]
          by_cases hj : j = k
          · have hlt : j < a := by omega
            have : a ≠ j := by omega
            simp [memGet, hj ▸ hlt, hj ▸ this, hj]
          · simp [hj]
        · simp only [memPut, if_neg h1, if_neg h2, if_neg hb, memGet]
          by_cases hj : j = k
          · subst hj; simp
          · simp only [if_neg (Ne.symm hj), if_neg hj]
            by_cases hlt : j < k
            · have : a ≠ j := by omega
              have h' : j < a := by omega
              simp [hlt, this, h']
            · simp [hlt]

theorem memGet_memPut (k j : Nat) (b : Byte) (m : List Host.Cell) (h : Memory.wf m = true) :
    memGet j (memPut k b m) = if j = k then b else memGet j m := memGet_memPut_from k j b 0 m h

theorem memGet_memPuts : ∀ (bs : List Byte) (k j : Nat) (m : List Host.Cell), Memory.wf m = true →
    memGet j (memPuts k bs m) = if k ≤ j ∧ j < k + bs.length then bs.getD (j - k) 0 else memGet j m
  | [], k, j, m, _ => by rw [memPuts, if_neg]; simp only [List.length_nil]; omega
  | b :: bs, k, j, m, h => by
    rw [memPuts, memGet_memPuts bs (k + 1) j _ (wf_memPut k b m h), memGet_memPut k j b m h]
    by_cases hj : j = k
    · subst hj
      have h1 : ¬ (j + 1 ≤ j ∧ j < j + 1 + bs.length) := by omega
      have h2 : j ≤ j ∧ j < j + (b :: bs).length := by simp
      rw [if_neg h1, if_pos h2, if_pos rfl]; simp
    · simp only [if_neg hj, List.length_cons]
      by_cases hr : k + 1 ≤ j ∧ j < k + 1 + bs.length
      · have h2 : k ≤ j ∧ j < k + (bs.length + 1) := by omega
        have h3 : j - k = (j - (k + 1)) + 1 := by omega
        rw [if_pos hr, if_pos h2, h3]; simp
      · have h2 : ¬ (k ≤ j ∧ j < k + (bs.length + 1)) := by omega
        rw [if_neg hr, if_neg h2]

/-! ## The operations of the machine on memory keep the form -/

theorem State.rawWrite_wf (s : State) (k : Nat) (bs : List Byte) (p : Bool) (h : Memory.wf s.mem = true) :
    Memory.wf (s.rawWrite k bs p).mem = true := wf_memPuts bs k s.mem h

theorem State.clearRange_wf (s : State) (k n : Nat) (h : Memory.wf s.mem = true) : Memory.wf (s.clearRange k n).mem = true :=
  wf_memZero k n s.mem h

@[simp] theorem State.triggerMonitors_mem (s : State) (k n : Nat) : (s.triggerMonitors k n).mem = s.mem := rfl

@[simp] theorem State.meetCwaits_mem (s : State) (k n : Nat) : (s.meetCwaits k n).mem = s.mem := rfl

theorem State.fireArmed_mem (k n : Nat) (d : DieId) : ∀ (os : List CopyOp) (s : State), (s.fireArmed k n d os).mem = s.mem
  | [], _ => rfl
  | o :: os, s => by
    simp only [State.fireArmed]
    rw [State.fireArmed_mem k n d os]
    split
    · split <;> rfl
    · rfl

theorem State.fireTriggers_mem (k n : Nat) : ∀ (ds : List (DieId × Die)) (s : State), (s.fireTriggers k n ds).mem = s.mem
  | [], _ => rfl
  | (d, x) :: ds, s => by
    simp only [State.fireTriggers]
    rw [State.fireTriggers_mem k n ds]
    split
    · rfl
    · exact State.fireArmed_mem k n d _ s

/-- A write at a home changes memory as a write of its bytes does, and nothing that it sets off changes memory. -/
theorem State.writeHome_mem (s : State) (k : Nat) (bs : List Byte) (p : Bool) : (s.writeHome k bs p).mem = memPuts k bs s.mem := by
  have h : ∀ ds (t : State), ((t.fireTriggers k bs.length ds).meetCwaits k bs.length).mem = t.mem :=
    fun ds t => State.fireTriggers_mem _ _ ds t
  simp only [State.writeHome]
  split
  · rfl
  · split
    · exact h _ _
    · exact h _ _

theorem State.writeHome_wf (s : State) (k : Nat) (bs : List Byte) (p : Bool) (h : Memory.wf s.mem = true) :
    Memory.wf (s.writeHome k bs p).mem = true := by
  rw [State.writeHome_mem]; exact wf_memPuts bs k s.mem h

/-- What a write at a home leaves in memory: its bytes where it writes, and every other byte as it was. -/
theorem State.writeHome_readByte (s : State) (k j : Nat) (bs : List Byte) (p : Bool) (h : Memory.wf s.mem = true) :
    (s.writeHome k bs p).readByte j = if k ≤ j ∧ j < k + bs.length then bs.getD (j - k) 0 else s.readByte j := by
  simp only [State.readByte, State.writeHome_mem]
  exact memGet_memPuts bs k j s.mem h

end Sys2Proof.Machine
end

