-- ==== Sys2Proof/Laws/Anvil.lean ====
section
/-! SUPPORT. What the steps of the anvil can do to the state: what has been read is seen over memory and its marks alone, and the writes
of a step change nothing else. -/

namespace Sys2Proof.Machine

/-- What is made of the state by parts that change nothing but memory and its marks changes nothing else. -/
theorem State.foldl_frame {α : Type} (f : State → α → State) (hf : ∀ s x, ∃ m k, f s x = { s with mem := m, marks := k }) :
    ∀ (xs : List α) (s : State), ∃ m k, xs.foldl f s = { s with mem := m, marks := k }
  | [], s => ⟨s.mem, s.marks, rfl⟩
  | x :: xs, s => by
    obtain ⟨m, k, h⟩ := State.foldl_frame f hf xs (f s x)
    obtain ⟨m', k', h'⟩ := hf s x
    exact ⟨m, k, by rw [List.foldl_cons, h, h']⟩

/-- What is made of memory by parts that keep its form keeps it. -/
theorem State.foldl_wf {α : Type} (f : State → α → State) (hf : ∀ s x, Memory.wf s.mem = true → Memory.wf (f s x).mem = true) :
    ∀ (xs : List α) (s : State), Memory.wf s.mem = true → Memory.wf (xs.foldl f s).mem = true
  | [], _, h => h
  | x :: xs, s, h => State.foldl_wf f hf xs (f s x) (hf s x h)

/-- A write of a step changes memory and its marks alone. -/
theorem State.put_frame (s : State) (w : Put) : ∃ m k, s.put w = { s with mem := m, marks := k } := by
  cases w with
  | write lo k bs => exact ⟨_, _, rfl⟩
  | add k acc sums => exact State.foldl_frame _ (fun _ _ => ⟨_, _, rfl⟩) _ s

/-- A write of a step keeps the form of memory. -/
theorem State.put_wf (s : State) (w : Put) (h : Memory.wf s.mem = true) : Memory.wf (s.put w).mem = true := by
  cases w with
  | write lo k bs => exact wf_memPuts bs k s.mem h
  | add k acc sums => exact State.foldl_wf _ (fun t _ ht => State.rawWrite_wf t _ _ _ ht) _ s h

theorem State.puts_frame (ws : List Put) (s : State) : s.puts ws = { s with mem := (s.puts ws).mem, marks := (s.puts ws).marks } := by
  obtain ⟨m, k, h⟩ := State.foldl_frame _ State.put_frame ws s
  rw [State.puts, h]

theorem State.puts_wf (ws : List Put) (s : State) (h : Memory.wf s.mem = true) : Memory.wf (s.puts ws).mem = true :=
  State.foldl_wf _ State.put_wf ws s h

@[simp] theorem State.puts_clu (ws : List Put) (s : State) (c : CluId) : (s.puts ws).clu c = s.clu c := by
  rw [State.puts_frame ws s]; rfl
@[simp] theorem State.puts_gang (ws : List Put) (s : State) (g : GangId) : (s.puts ws).gang g = s.gang g := by
  rw [State.puts_frame ws s]; rfl

theorem State.view_frame (s : State) (c : CluId) : s.view c = { s with mem := (s.view c).mem, marks := (s.view c).marks } := by
  obtain ⟨m, k, h⟩ := State.foldl_frame (fun s (x : Nat × List Byte × Bool) => s.rawWrite (16 * x.1) x.2.1 x.2.2) (fun _ _ => ⟨_, _, rfl⟩) (s.clu c).ctl.seen s
  rw [State.view, h]

@[simp] theorem State.view_clu (s : State) (c d : CluId) : (s.view c).clu d = s.clu d := by
  rw [State.view_frame s c]; rfl
@[simp] theorem State.cluAlloc_view (s : State) (c d : CluId) : (s.view c).cluAlloc d = s.cluAlloc d := by
  rw [State.view_frame s c]; rfl

/-- An event that performs writes of a step keeps the form of memory. -/
theorem State.applySome_wf (s : State) (c : CluId) (e : AnvilEntry) (a : Applying) (h : Memory.wf s.mem = true) :
    Memory.wf (s.applySome c e a).mem = true := by
  have hw (k : Nat) := State.puts_wf (a.writes.take k) { s with clock := s.clock + 1 } h
  simp only [State.applySome]
  generalize (if a.writes.length = 0 then 0 else 1 + Config.choice s.clock a.writes.length % a.writes.length) = k
  split <;> exact hw k

end Sys2Proof.Machine
end

