-- ==== Sys2Proof/Laws/Flit.lean ====
section
/-! SUPPORT. What the flit operations can do, said once: a framed flit has its length and its CRC, a port only adds to what it has
sent, keeps its retry buffer within its window, and leaves every part of the state but its package's ports alone. -/

namespace Sys2Proof.Machine

/-! ## The layout -/

@[simp] theorem bytesOfNum_length (v n : Nat) : (bytesOfNum v n).length = n := by
  induction n generalizing v with
  | zero => rfl
  | succ n ih => simp [bytesOfNum, ih]

/-- Reading back the bytes of a number gives the number, cut to its width. -/
theorem numOf_bytesOfNum (v n : Nat) : numOf (bytesOfNum v n) = v % 256 ^ n := by
  induction n generalizing v with
  | zero => simp [bytesOfNum, numOf, Nat.mod_one]
  | succ n ih =>
    rw [bytesOfNum, numOf, ih, BitVec.toNat_ofNat, show 256 ^ (n + 1) = 256 * 256 ^ n from Nat.pow_succ']
    exact (Nat.mod_mul).symm

/-- Bytes with their CRC between header and payload pass the check of a flit (R419). -/
theorem flitOk_crc (head payload : List Byte) (hl : head.length = 12) (h : payload.length = 64) :
    flitOk (head ++ bytesOfNum (crc32 (head ++ payload)).toNat 4 ++ payload) = true := by
  have hc := bytesOfNum_length (crc32 (head ++ payload)).toNat 4
  unfold flitOk
  rw [show (head ++ bytesOfNum (crc32 (head ++ payload)).toNat 4 ++ payload).drop 16 = payload from
      List.drop_left' (by simp [hl]),
    List.append_assoc, List.drop_left' hl, List.take_left' hc, List.take_left' hl, numOf_bytesOfNum]
  have hn := (crc32 (head ++ payload)).isLt
  simp only [Bool.and_eq_true, decide_eq_true_iff]
  exact ⟨by simp [hl, h], BitVec.eq_of_toNat_eq (by simp [Nat.mod_eq_of_lt hn])⟩

/-- A framed flit is taken by the other end of the link (R419). -/
theorem Port.flitOk_frame (x : Port) (b : FlitBody) (h : b.payload.length = 64) : flitOk (x.frame b) = true :=
  flitOk_crc _ _ (by simp) h

/-! ## A port -/

/-- Sending what waits only adds to what the port has sent. -/
theorem Port.wire_prefix_drain (bs : List FlitBody) (x : Port) : x.wire <+: (x.drain bs).wire := by
  induction bs generalizing x with
  | nil => exact List.prefix_refl _
  | cons b bs ih =>
    unfold Port.drain
    split
    · exact List.IsPrefix.trans ⟨_, rfl⟩ (ih (x.put b))
    · exact List.prefix_refl _

theorem Port.state_drain (bs : List FlitBody) (x : Port) : (x.drain bs).state = x.state := by
  induction bs generalizing x with
  | nil => rfl
  | cons b bs ih =>
    unfold Port.drain
    split
    · exact ih (x.put b)
    · rfl

/-- Sending what waits keeps the retry buffer within the window (R420). -/
theorem Port.retry_drain_le (bs : List FlitBody) (x : Port) (h : x.retry.length ≤ x.window) :
    (x.drain bs).retry.length ≤ x.window := by
  induction bs generalizing x with
  | nil => exact h
  | cons b bs ih =>
    unfold Port.drain
    split
    · exact ih (x.put b) (by simp only [Port.put, List.length_append, List.length_singleton]; exact Nat.succ_le_of_lt ‹_›)
    · exact h

/-- A port's retry buffer stays within its window when it sends (R420, R421). -/
theorem Port.retry_pump_le (x : Port) (h : x.retry.length ≤ x.window) : x.pump.retry.length ≤ x.window := by
  unfold Port.pump
  split
  · exact Port.retry_drain_le x.queue { x with wire := x.wire ++ x.retry.take x.resend, resend := 0 } h
  · exact h

/-! ## The state -/

@[simp] theorem State.fly_mem (s : State) (k v p q n : Nat) : (s.fly k v p q n).mem = s.mem := by unfold State.fly; split <;> rfl
@[simp] theorem State.fly_gangs (s : State) (k v p q n : Nat) : (s.fly k v p q n).gangs = s.gangs := by unfold State.fly; split <;> rfl
@[simp] theorem State.fly_clus (s : State) (k v p q n : Nat) : (s.fly k v p q n).clus = s.clus := by unfold State.fly; split <;> rfl
@[simp] theorem State.fly_msgs (s : State) (k v p q n : Nat) : (s.fly k v p q n).msgs = s.msgs := by unfold State.fly; split <;> rfl
@[simp] theorem State.fly_marks (s : State) (k v p q n : Nat) : (s.fly k v p q n).marks = s.marks := by unfold State.fly; split <;> rfl
@[simp] theorem State.fly_full (s : State) (k v p q n : Nat) : (s.fly k v p q n).full = s.full := by unfold State.fly; split <;> rfl
@[simp] theorem State.flyEach_mem (k v p n : Nat) (qs : List Nat) (s : State) : (s.flyEach k v p n qs).mem = s.mem := by
  induction qs generalizing s with
  | nil => rfl
  | cons q qs ih => exact (ih _).trans (State.fly_mem ..)

end Sys2Proof.Machine
end

