-- ==== Sys2Proof/Laws/Issue.lean ====
section
/-! SUPPORT. What an instruction goes through at issue, said once for every instruction, and the parts of the state that the
operations over registers, queues and traps leave alone. -/

namespace Sys2Proof.Machine

/-! ## The guard -/

/-- An instruction that issues has its own effect, after what its unit counts. -/
theorem issue_of_issues {i : Instr} {s : State} (k : State → Out) (h : issues i s = true) :
    issue i s k = k (s.countIssue s.cur) := by
  simp only [issues, Bool.and_eq_true, Bool.not_eq_true', Option.isNone_iff_eq_none, beq_iff_eq] at h
  obtain ⟨⟨⟨⟨⟨⟨h1, h2⟩, h3⟩, h4⟩, h5⟩, h6⟩, h7⟩ := h
  simp [issue, h1, h2, h3, h4, h5, h6, h7]

theorem issue_not_runnable {i : Instr} {s : State} (k : State → Out) (h : s.runnable s.cur = false) : issue i s k = .next s := by
  simp [issue, h]

/-- Whatever stands before the effect of an instruction either leaves it out or lets it go on from a state that differs in what
is counted. -/
theorem issue_cases (i : Instr) (s : State) (k : State → Out) :
    issue i s k = .next s
      ∨ (∃ n, issue i s k = .next (s.raiseIllegal s.cur n i.size))
      ∨ (∃ n, issue i s k = .next (s.raiseAt s.cur causeQueue n 4))
      ∨ issue i s k = .next (s.consumePoison s.cur)
      ∨ issue i s k = .next (s.mismatchTwice s.cur)
      ∨ issue i s k = k ((s.mismatchOnce s.cur).countIssue s.cur)
      ∨ issue i s k = k (s.countIssue s.cur) := by
  simp only [issue]
  split
  · exact .inl rfl
  · split
    · exact .inr (.inl ⟨_, rfl⟩)
    · split
      · exact .inr (.inl ⟨_, rfl⟩)
      · split
        · exact .inl rfl
        · split
          · exact .inr (.inr (.inl ⟨_, rfl⟩))
          · split
            · exact .inr (.inr (.inr (.inl rfl)))
            · split
              · exact .inr (.inr (.inr (.inr (.inl rfl))))
              · split
                · exact .inr (.inr (.inr (.inr (.inr (.inl rfl)))))
                · exact .inr (.inr (.inr (.inr (.inr (.inr rfl)))))

theorem laneOp_of_issues {i : Instr} {s : State} {lf : LaneForm} (f : LaneEnv → Nat → DWord) (h : issues i s = true)
    (hl : i.laneForm s.cur.kind = some lf) :
    laneOp i f s =
      let t := s.countIssue s.cur
      .next ((lf.deliver (lf.pop t t.cur) t.cur (lf.env t t.cur).act (f (lf.env t t.cur))).advance i) := by
  have hc : (s.countIssue s.cur).cur = s.cur := by unfold State.countIssue; split <;> rfl
  simp only [laneOp, issue_of_issues _ h, hc, hl]

/-! ## Memory is left alone -/

@[simp] theorem State.countIssue_mem (s : State) (u : UnitId) : (s.countIssue u).mem = s.mem := by cases u <;> rfl
@[simp] theorem State.countIssue_cur (s : State) (u : UnitId) : (s.countIssue u).cur = s.cur := by cases u <;> rfl
@[simp] theorem State.setPc_mem (s : State) (u : UnitId) (v : VAddr) : (s.setPc u v).mem = s.mem := by cases u <;> rfl
@[simp] theorem State.advance_mem (s : State) (i : Instr) : (s.advance i).mem = s.mem := State.setPc_mem ..
@[simp] theorem State.raise_mem (s : State) (u : UnitId) (r : Raised) : (s.raise u r).mem = s.mem := by cases u <;> rfl
@[simp] theorem State.raiseAt_mem (s : State) (u : UnitId) (c d : Nat) (v : DWord) : (s.raiseAt u c d v).mem = s.mem :=
  State.raise_mem ..
@[simp] theorem State.raiseIllegal_mem (s : State) (u : UnitId) (d n : Nat) : (s.raiseIllegal u d n).mem = s.mem := State.raise_mem ..
@[simp] theorem State.writeMask_mem (s : State) (u : UnitId) (k : Nat) (v : Word) : (s.writeMask u k v).mem = s.mem := by
  cases u <;> rfl
@[simp] theorem State.writeReg_mem (s : State) (u : UnitId) (t : Ty) (c : Nat) (m : Word) (f : Nat → DWord) :
    (s.writeReg u t c m f).mem = s.mem := by
  cases u with
  | a g => rfl
  | c g => rfl
  | m c => simp only [State.writeReg]; split <;> rfl
@[simp] theorem pushSinks_mem (sk : BitVec 4) (es : List QEntry) (s : State) (u : UnitId) : (pushSinks sk es s u).mem = s.mem := by
  cases u <;> rfl
@[simp] theorem LaneForm_pop_mem (f : LaneForm) (s : State) (u : UnitId) : (f.pop s u).mem = s.mem := by
  unfold LaneForm.pop; split
  · rfl
  · cases u <;> rfl
@[simp] theorem LaneForm_deliver_mem (f : LaneForm) (s : State) (u : UnitId) (act : Word) (r : Nat → DWord) :
    (f.deliver s u act r).mem = s.mem := by
  simp only [LaneForm.deliver, pushSinks_mem]; split <;> simp
@[simp] theorem LaneForm_deliverMask_mem (f : LaneForm) (s : State) (u : UnitId) (act p : Word) :
    (f.deliverMask s u act p).mem = s.mem := by
  simp only [LaneForm.deliverMask]
  split
  · split <;> (try split) <;> simp
  · split <;> simp
@[simp] theorem State.leaveQueues_mem (s : State) (g : GangId) : (s.leaveQueues g).mem = s.mem := rfl
@[simp] theorem State.restartCtl_mem (s : State) (c : CluId) (v : VAddr) (n : Nat) : (s.restartCtl c v n).mem = s.mem := rfl
@[simp] theorem State.consumePoison_mem (s : State) (u : UnitId) : (s.consumePoison u).mem = s.mem := by
  simp only [State.consumePoison]
  cases u <;> (simp only []; repeat (split <;> try simp))
@[simp] theorem State.mismatchOnce_mem (s : State) (u : UnitId) : (s.mismatchOnce u).mem = s.mem := rfl
@[simp] theorem State.mismatchTwice_mem (s : State) (u : UnitId) : (s.mismatchTwice u).mem = s.mem := by
  simp [State.mismatchTwice, State.interrupt]

end Sys2Proof.Machine
end

