-- ==== Sys2Proof/Laws/PerInstr.lean ====
section
/-! SUPPORT. What holds of the encoding of every instruction, one lemma for each constructor: bit 0 of the word of an
instruction of a stream tells its length (R49), and an event has no word. -/

set_option Elab.async false

namespace Sys2Proof.Laws.LengthBit

/-- Bit 0 of an instruction's word is set exactly where the instruction takes two halfwords (R49). -/
def Statement (i : Instr) : Prop := i.isEvent = false → (encode i).getLsbD 0 = !i.isShort

theorem low_append {n m : Nat} (x : BitVec n) (c : BitVec (m + 1)) (b : Bool) (h : c.getLsbD 0 = b) : (x ++ c).getLsbD 0 = b := by
  rw [BitVec.getLsbD_append, if_pos (Nat.succ_pos m)]; exact h

theorem low_half {n : Nat} (x : BitVec (n + 1)) (b : Bool) (h : x.getLsbD 0 = b) : (x.zeroExtend 32).getLsbD 0 = b := by
  simpa using h

theorem mov16 : ∀ x0 x1, Statement (.mov16 x0 x1) := by intros; intro _; exact low_half _ _ (low_append _ _ _ rfl)
theorem add16 : ∀ x0 x1, Statement (.add16 x0 x1) := by intros; intro _; exact low_half _ _ (low_append _ _ _ rfl)
theorem sub16 : ∀ x0 x1, Statement (.sub16 x0 x1) := by intros; intro _; exact low_half _ _ (low_append _ _ _ rfl)
theorem mul16 : ∀ x0 x1, Statement (.mul16 x0 x1) := by intros; intro _; exact low_half _ _ (low_append _ _ _ rfl)
theorem and16 : ∀ x0 x1, Statement (.and16 x0 x1) := by intros; intro _; exact low_half _ _ (low_append _ _ _ rfl)
theorem or16 : ∀ x0 x1, Statement (.or16 x0 x1) := by intros; intro _; exact low_half _ _ (low_append _ _ _ rfl)
theorem xor16 : ∀ x0 x1, Statement (.xor16 x0 x1) := by intros; intro _; exact low_half _ _ (low_append _ _ _ rfl)
theorem shl16 : ∀ x0 x1, Statement (.shl16 x0 x1) := by intros; intro _; exact low_half _ _ (low_append _ _ _ rfl)
theorem shr16 : ∀ x0 x1, Statement (.shr16 x0 x1) := by intros; intro _; exact low_half _ _ (low_append _ _ _ rfl)
theorem sar16 : ∀ x0 x1, Statement (.sar16 x0 x1) := by intros; intro _; exact low_half _ _ (low_append _ _ _ rfl)
theorem min16 : ∀ x0 x1, Statement (.min16 x0 x1) := by intros; intro _; exact low_half _ _ (low_append _ _ _ rfl)
theorem max16 : ∀ x0 x1, Statement (.max16 x0 x1) := by intros; intro _; exact low_half _ _ (low_append _ _ _ rfl)
theorem fadd16 : ∀ x0 x1, Statement (.fadd16 x0 x1) := by intros; intro _; exact low_half _ _ (low_append _ _ _ rfl)
theorem fsub16 : ∀ x0 x1, Statement (.fsub16 x0 x1) := by intros; intro _; exact low_half _ _ (low_append _ _ _ rfl)
theorem fmul16 : ∀ x0 x1, Statement (.fmul16 x0 x1) := by intros; intro _; exact low_half _ _ (low_append _ _ _ rfl)
theorem fmax16 : ∀ x0 x1, Statement (.fmax16 x0 x1) := by intros; intro _; exact low_half _ _ (low_append _ _ _ rfl)
theorem add : ∀ x0 x1 x2 x3 x4 x5, Statement (.add x0 x1 x2 x3 x4 x5) := by intros; intro _; exact low_append _ _ _ rfl
theorem sub : ∀ x0 x1 x2 x3 x4 x5, Statement (.sub x0 x1 x2 x3 x4 x5) := by intros; intro _; exact low_append _ _ _ rfl
theorem mul : ∀ x0 x1 x2 x3 x4 x5, Statement (.mul x0 x1 x2 x3 x4 x5) := by intros; intro _; exact low_append _ _ _ rfl
theorem mulh : ∀ x0 x1 x2 x3 x4 x5, Statement (.mulh x0 x1 x2 x3 x4 x5) := by intros; intro _; exact low_append _ _ _ rfl
theorem mad : ∀ x0 x1 x2 x3 x4 x5, Statement (.mad x0 x1 x2 x3 x4 x5) := by intros; intro _; exact low_append _ _ _ rfl
theorem div : ∀ x0 x1 x2 x3 x4 x5, Statement (.div x0 x1 x2 x3 x4 x5) := by intros; intro _; exact low_append _ _ _ rfl
theorem rem : ∀ x0 x1 x2 x3 x4 x5, Statement (.rem x0 x1 x2 x3 x4 x5) := by intros; intro _; exact low_append _ _ _ rfl
theorem min : ∀ x0 x1 x2 x3 x4 x5, Statement (.min x0 x1 x2 x3 x4 x5) := by intros; intro _; exact low_append _ _ _ rfl
theorem max : ∀ x0 x1 x2 x3 x4 x5, Statement (.max x0 x1 x2 x3 x4 x5) := by intros; intro _; exact low_append _ _ _ rfl
theorem and : ∀ x0 x1 x2 x3 x4 x5, Statement (.and x0 x1 x2 x3 x4 x5) := by intros; intro _; exact low_append _ _ _ rfl
theorem or : ∀ x0 x1 x2 x3 x4 x5, Statement (.or x0 x1 x2 x3 x4 x5) := by intros; intro _; exact low_append _ _ _ rfl
theorem xor : ∀ x0 x1 x2 x3 x4 x5, Statement (.xor x0 x1 x2 x3 x4 x5) := by intros; intro _; exact low_append _ _ _ rfl
theorem shl : ∀ x0 x1 x2 x3 x4 x5, Statement (.shl x0 x1 x2 x3 x4 x5) := by intros; intro _; exact low_append _ _ _ rfl
theorem shr : ∀ x0 x1 x2 x3 x4 x5, Statement (.shr x0 x1 x2 x3 x4 x5) := by intros; intro _; exact low_append _ _ _ rfl
theorem sar : ∀ x0 x1 x2 x3 x4 x5, Statement (.sar x0 x1 x2 x3 x4 x5) := by intros; intro _; exact low_append _ _ _ rfl
theorem rol : ∀ x0 x1 x2 x3 x4 x5, Statement (.rol x0 x1 x2 x3 x4 x5) := by intros; intro _; exact low_append _ _ _ rfl
theorem ror : ∀ x0 x1 x2 x3 x4 x5, Statement (.ror x0 x1 x2 x3 x4 x5) := by intros; intro _; exact low_append _ _ _ rfl
theorem abs : ∀ x0 x1 x2 x3 x4, Statement (.abs x0 x1 x2 x3 x4) := by intros; intro _; exact low_append _ _ _ rfl
theorem neg : ∀ x0 x1 x2 x3 x4, Statement (.neg x0 x1 x2 x3 x4) := by intros; intro _; exact low_append _ _ _ rfl
theorem not : ∀ x0 x1 x2 x3 x4, Statement (.not x0 x1 x2 x3 x4) := by intros; intro _; exact low_append _ _ _ rfl
theorem clz : ∀ x0 x1 x2 x3 x4, Statement (.clz x0 x1 x2 x3 x4) := by intros; intro _; exact low_append _ _ _ rfl
theorem popc : ∀ x0 x1 x2 x3 x4, Statement (.popc x0 x1 x2 x3 x4) := by intros; intro _; exact low_append _ _ _ rfl
theorem brev : ∀ x0 x1 x2 x3 x4, Statement (.brev x0 x1 x2 x3 x4) := by intros; intro _; exact low_append _ _ _ rfl
theorem bfx : ∀ x0 x1 x2 x3 x4 x5, Statement (.bfx x0 x1 x2 x3 x4 x5) := by intros; intro _; exact low_append _ _ _ rfl
theorem bfi : ∀ x0 x1 x2 x3 x4 x5, Statement (.bfi x0 x1 x2 x3 x4 x5) := by intros; intro _; exact low_append _ _ _ rfl
theorem icmp : ∀ x0 x1 x2 x3 x4 x5 x6, Statement (.icmp x0 x1 x2 x3 x4 x5 x6) := by intros; intro _; exact low_append _ _ _ rfl
theorem sel : ∀ x0 x1 x2 x3 x4 x5, Statement (.sel x0 x1 x2 x3 x4 x5) := by intros; intro _; exact low_append _ _ _ rfl
theorem lea : ∀ x0 x1 x2 x3 x4 x5, Statement (.lea x0 x1 x2 x3 x4 x5) := by intros; intro _; exact low_append _ _ _ rfl
theorem fadd : ∀ x0 x1 x2 x3 x4 x5, Statement (.fadd x0 x1 x2 x3 x4 x5) := by intros; intro _; exact low_append _ _ _ rfl
theorem fsub : ∀ x0 x1 x2 x3 x4 x5, Statement (.fsub x0 x1 x2 x3 x4 x5) := by intros; intro _; exact low_append _ _ _ rfl
theorem fmul : ∀ x0 x1 x2 x3 x4 x5, Statement (.fmul x0 x1 x2 x3 x4 x5) := by intros; intro _; exact low_append _ _ _ rfl
theorem fma : ∀ x0 x1 x2 x3 x4 x5, Statement (.fma x0 x1 x2 x3 x4 x5) := by intros; intro _; exact low_append _ _ _ rfl
theorem fdiv : ∀ x0 x1 x2 x3 x4 x5, Statement (.fdiv x0 x1 x2 x3 x4 x5) := by intros; intro _; exact low_append _ _ _ rfl
theorem fsqrt : ∀ x0 x1 x2 x3 x4 x5, Statement (.fsqrt x0 x1 x2 x3 x4 x5) := by intros; intro _; exact low_append _ _ _ rfl
theorem frcp : ∀ x0 x1 x2 x3 x4, Statement (.frcp x0 x1 x2 x3 x4) := by intros; intro _; exact low_append _ _ _ rfl
theorem frsq : ∀ x0 x1 x2 x3 x4, Statement (.frsq x0 x1 x2 x3 x4) := by intros; intro _; exact low_append _ _ _ rfl
theorem fexp2 : ∀ x0 x1 x2 x3 x4, Statement (.fexp2 x0 x1 x2 x3 x4) := by intros; intro _; exact low_append _ _ _ rfl
theorem flog2 : ∀ x0 x1 x2 x3 x4, Statement (.flog2 x0 x1 x2 x3 x4) := by intros; intro _; exact low_append _ _ _ rfl
theorem fabs : ∀ x0 x1 x2 x3 x4, Statement (.fabs x0 x1 x2 x3 x4) := by intros; intro _; exact low_append _ _ _ rfl
theorem fneg : ∀ x0 x1 x2 x3 x4, Statement (.fneg x0 x1 x2 x3 x4) := by intros; intro _; exact low_append _ _ _ rfl
theorem fmin : ∀ x0 x1 x2 x3 x4 x5, Statement (.fmin x0 x1 x2 x3 x4 x5) := by intros; intro _; exact low_append _ _ _ rfl
theorem fmax : ∀ x0 x1 x2 x3 x4 x5, Statement (.fmax x0 x1 x2 x3 x4 x5) := by intros; intro _; exact low_append _ _ _ rfl
theorem fminn : ∀ x0 x1 x2 x3 x4 x5, Statement (.fminn x0 x1 x2 x3 x4 x5) := by intros; intro _; exact low_append _ _ _ rfl
theorem fmaxn : ∀ x0 x1 x2 x3 x4 x5, Statement (.fmaxn x0 x1 x2 x3 x4 x5) := by intros; intro _; exact low_append _ _ _ rfl
theorem fcmp : ∀ x0 x1 x2 x3 x4 x5 x6, Statement (.fcmp x0 x1 x2 x3 x4 x5 x6) := by intros; intro _; exact low_append _ _ _ rfl
theorem tspk : ∀ x0 x1 x2 x3 x4 x5 x6, Statement (.tspk x0 x1 x2 x3 x4 x5 x6) := by intros; intro _; exact low_append _ _ _ rfl
theorem tsupk : ∀ x0 x1 x2 x3 x4 x5, Statement (.tsupk x0 x1 x2 x3 x4 x5) := by intros; intro _; exact low_append _ _ _ rfl
theorem tssc : ∀ x0 x1 x2 x3 x4, Statement (.tssc x0 x1 x2 x3 x4) := by intros; intro _; exact low_append _ _ _ rfl
theorem shflIdx : ∀ x0 x1 x2 x3 x4, Statement (.shflIdx x0 x1 x2 x3 x4) := by intros; intro _; exact low_append _ _ _ rfl
theorem shflUp : ∀ x0 x1 x2 x3 x4, Statement (.shflUp x0 x1 x2 x3 x4) := by intros; intro _; exact low_append _ _ _ rfl
theorem shflDn : ∀ x0 x1 x2 x3 x4, Statement (.shflDn x0 x1 x2 x3 x4) := by intros; intro _; exact low_append _ _ _ rfl
theorem shflXor : ∀ x0 x1 x2 x3 x4, Statement (.shflXor x0 x1 x2 x3 x4) := by intros; intro _; exact low_append _ _ _ rfl
theorem rotUp : ∀ x0 x1 x2 x3 x4, Statement (.rotUp x0 x1 x2 x3 x4) := by intros; intro _; exact low_append _ _ _ rfl
theorem rotDn : ∀ x0 x1 x2 x3 x4, Statement (.rotDn x0 x1 x2 x3 x4) := by intros; intro _; exact low_append _ _ _ rfl
theorem bcast : ∀ x0 x1 x2 x3 x4, Statement (.bcast x0 x1 x2 x3 x4) := by intros; intro _; exact low_append _ _ _ rfl
theorem gred : ∀ x0 x1 x2 x3 x4 x5 x6, Statement (.gred x0 x1 x2 x3 x4 x5 x6) := by intros; intro _; exact low_append _ _ _ rfl
theorem scanInc : ∀ x0 x1 x2 x3 x4 x5 x6, Statement (.scanInc x0 x1 x2 x3 x4 x5 x6) := by intros; intro _; exact low_append _ _ _ rfl
theorem scanExc : ∀ x0 x1 x2 x3 x4 x5 x6, Statement (.scanExc x0 x1 x2 x3 x4 x5 x6) := by intros; intro _; exact low_append _ _ _ rfl
theorem kand : ∀ x0 x1 x2 x3 x4, Statement (.kand x0 x1 x2 x3 x4) := by intros; intro _; exact low_append _ _ _ rfl
theorem kandn : ∀ x0 x1 x2 x3 x4, Statement (.kandn x0 x1 x2 x3 x4) := by intros; intro _; exact low_append _ _ _ rfl
theorem kor : ∀ x0 x1 x2 x3 x4, Statement (.kor x0 x1 x2 x3 x4) := by intros; intro _; exact low_append _ _ _ rfl
theorem kxor : ∀ x0 x1 x2 x3 x4, Statement (.kxor x0 x1 x2 x3 x4) := by intros; intro _; exact low_append _ _ _ rfl
theorem knot : ∀ x0 x1 x2 x3, Statement (.knot x0 x1 x2 x3) := by intros; intro _; exact low_append _ _ _ rfl
theorem voteAll : ∀ x0 x1 x2 x3, Statement (.voteAll x0 x1 x2 x3) := by intros; intro _; exact low_append _ _ _ rfl
theorem voteAny : ∀ x0 x1 x2 x3, Statement (.voteAny x0 x1 x2 x3) := by intros; intro _; exact low_append _ _ _ rfl
theorem ballot : ∀ x0 x1 x2 x3, Statement (.ballot x0 x1 x2 x3) := by intros; intro _; exact low_append _ _ _ rfl
theorem kset : ∀ x0 x1 x2 x3, Statement (.kset x0 x1 x2 x3) := by intros; intro _; exact low_append _ _ _ rfl
theorem kmov : ∀ x0 x1 x2 x3, Statement (.kmov x0 x1 x2 x3) := by intros; intro _; exact low_append _ _ _ rfl
theorem faddD : ∀ x0 x1 x2 x3 x4 x5, Statement (.faddD x0 x1 x2 x3 x4 x5) := by intros; intro _; exact low_append _ _ _ rfl
theorem fsubD : ∀ x0 x1 x2 x3 x4 x5, Statement (.fsubD x0 x1 x2 x3 x4 x5) := by intros; intro _; exact low_append _ _ _ rfl
theorem fmulD : ∀ x0 x1 x2 x3 x4 x5, Statement (.fmulD x0 x1 x2 x3 x4 x5) := by intros; intro _; exact low_append _ _ _ rfl
theorem fmaD : ∀ x0 x1 x2 x3 x4 x5, Statement (.fmaD x0 x1 x2 x3 x4 x5) := by intros; intro _; exact low_append _ _ _ rfl
theorem cvtRne : ∀ x0 x1 x2 x3 x4 x5 x6, Statement (.cvtRne x0 x1 x2 x3 x4 x5 x6) := by intros; intro _; exact low_append _ _ _ rfl
theorem cvtRna : ∀ x0 x1 x2 x3 x4 x5 x6, Statement (.cvtRna x0 x1 x2 x3 x4 x5 x6) := by intros; intro _; exact low_append _ _ _ rfl
theorem cvtRz : ∀ x0 x1 x2 x3 x4 x5 x6, Statement (.cvtRz x0 x1 x2 x3 x4 x5 x6) := by intros; intro _; exact low_append _ _ _ rfl
theorem cvtRup : ∀ x0 x1 x2 x3 x4 x5 x6, Statement (.cvtRup x0 x1 x2 x3 x4 x5 x6) := by intros; intro _; exact low_append _ _ _ rfl
theorem cvtRdn : ∀ x0 x1 x2 x3 x4 x5 x6, Statement (.cvtRdn x0 x1 x2 x3 x4 x5 x6) := by intros; intro _; exact low_append _ _ _ rfl
theorem movImm : ∀ x0 x1, Statement (.movImm x0 x1) := by intros; intro _; exact low_append _ _ _ rfl
theorem addImm : ∀ x0 x1, Statement (.addImm x0 x1) := by intros; intro _; exact low_append _ _ _ rfl
theorem mulImm : ∀ x0 x1, Statement (.mulImm x0 x1) := by intros; intro _; exact low_append _ _ _ rfl
theorem andImm : ∀ x0 x1, Statement (.andImm x0 x1) := by intros; intro _; exact low_append _ _ _ rfl
theorem orImm : ∀ x0 x1, Statement (.orImm x0 x1) := by intros; intro _; exact low_append _ _ _ rfl
theorem xorImm : ∀ x0 x1, Statement (.xorImm x0 x1) := by intros; intro _; exact low_append _ _ _ rfl
theorem shlImm : ∀ x0 x1, Statement (.shlImm x0 x1) := by intros; intro _; exact low_append _ _ _ rfl
theorem shrImm : ∀ x0 x1, Statement (.shrImm x0 x1) := by intros; intro _; exact low_append _ _ _ rfl
theorem sarImm : ∀ x0 x1, Statement (.sarImm x0 x1) := by intros; intro _; exact low_append _ _ _ rfl
theorem minImm : ∀ x0 x1, Statement (.minImm x0 x1) := by intros; intro _; exact low_append _ _ _ rfl
theorem maxImm : ∀ x0 x1, Statement (.maxImm x0 x1) := by intros; intro _; exact low_append _ _ _ rfl
theorem movh : ∀ x0 x1 x2, Statement (.movh x0 x1 x2) := by intros; intro _; exact low_append _ _ _ rfl
theorem fmovImm : ∀ x0 x1, Statement (.fmovImm x0 x1) := by intros; intro _; exact low_append _ _ _ rfl
theorem faddImm : ∀ x0 x1, Statement (.faddImm x0 x1) := by intros; intro _; exact low_append _ _ _ rfl
theorem fmulImm : ∀ x0 x1, Statement (.fmulImm x0 x1) := by intros; intro _; exact low_append _ _ _ rfl
theorem fmaxImm : ∀ x0 x1, Statement (.fmaxImm x0 x1) := by intros; intro _; exact low_append _ _ _ rfl
theorem ld : ∀ x0 x1 x2 x3 x4 x5, Statement (.ld x0 x1 x2 x3 x4 x5) := by intros; intro _; exact low_append _ _ _ rfl
theorem ldFe : ∀ x0 x1 x2 x3 x4 x5, Statement (.ldFe x0 x1 x2 x3 x4 x5) := by intros; intro _; exact low_append _ _ _ rfl
theorem ldFec : ∀ x0 x1 x2 x3 x4 x5, Statement (.ldFec x0 x1 x2 x3 x4 x5) := by intros; intro _; exact low_append _ _ _ rfl
theorem st : ∀ x0 x1 x2 x3 x4 x5, Statement (.st x0 x1 x2 x3 x4 x5) := by intros; intro _; exact low_append _ _ _ rfl
theorem stFe : ∀ x0 x1 x2 x3 x4 x5, Statement (.stFe x0 x1 x2 x3 x4 x5) := by intros; intro _; exact low_append _ _ _ rfl
theorem atomAdd : ∀ x0 x1 x2 x3 x4, Statement (.atomAdd x0 x1 x2 x3 x4) := by intros; intro _; exact low_append _ _ _ rfl
theorem atomMin : ∀ x0 x1 x2 x3 x4, Statement (.atomMin x0 x1 x2 x3 x4) := by intros; intro _; exact low_append _ _ _ rfl
theorem atomMax : ∀ x0 x1 x2 x3 x4, Statement (.atomMax x0 x1 x2 x3 x4) := by intros; intro _; exact low_append _ _ _ rfl
theorem atomAnd : ∀ x0 x1 x2 x3 x4, Statement (.atomAnd x0 x1 x2 x3 x4) := by intros; intro _; exact low_append _ _ _ rfl
theorem atomOr : ∀ x0 x1 x2 x3 x4, Statement (.atomOr x0 x1 x2 x3 x4) := by intros; intro _; exact low_append _ _ _ rfl
theorem atomXor : ∀ x0 x1 x2 x3 x4, Statement (.atomXor x0 x1 x2 x3 x4) := by intros; intro _; exact low_append _ _ _ rfl
theorem atomExch : ∀ x0 x1 x2 x3 x4, Statement (.atomExch x0 x1 x2 x3 x4) := by intros; intro _; exact low_append _ _ _ rfl
theorem atomCas : ∀ x0 x1 x2 x3 x4, Statement (.atomCas x0 x1 x2 x3 x4) := by intros; intro _; exact low_append _ _ _ rfl
theorem redAdd : ∀ x0 x1 x2 x3, Statement (.redAdd x0 x1 x2 x3) := by intros; intro _; exact low_append _ _ _ rfl
theorem redMin : ∀ x0 x1 x2 x3, Statement (.redMin x0 x1 x2 x3) := by intros; intro _; exact low_append _ _ _ rfl
theorem redMax : ∀ x0 x1 x2 x3, Statement (.redMax x0 x1 x2 x3) := by intros; intro _; exact low_append _ _ _ rfl
theorem redAnd : ∀ x0 x1 x2 x3, Statement (.redAnd x0 x1 x2 x3) := by intros; intro _; exact low_append _ _ _ rfl
theorem redOr : ∀ x0 x1 x2 x3, Statement (.redOr x0 x1 x2 x3) := by intros; intro _; exact low_append _ _ _ rfl
theorem redXor : ∀ x0 x1 x2 x3, Statement (.redXor x0 x1 x2 x3) := by intros; intro _; exact low_append _ _ _ rfl
theorem fatomAdd : ∀ x0 x1 x2 x3 x4, Statement (.fatomAdd x0 x1 x2 x3 x4) := by intros; intro _; exact low_append _ _ _ rfl
theorem fatomMin : ∀ x0 x1 x2 x3 x4, Statement (.fatomMin x0 x1 x2 x3 x4) := by intros; intro _; exact low_append _ _ _ rfl
theorem fatomMax : ∀ x0 x1 x2 x3 x4, Statement (.fatomMax x0 x1 x2 x3 x4) := by intros; intro _; exact low_append _ _ _ rfl
theorem fredAdd : ∀ x0 x1 x2 x3, Statement (.fredAdd x0 x1 x2 x3) := by intros; intro _; exact low_append _ _ _ rfl
theorem fredMin : ∀ x0 x1 x2 x3, Statement (.fredMin x0 x1 x2 x3) := by intros; intro _; exact low_append _ _ _ rfl
theorem fredMax : ∀ x0 x1 x2 x3, Statement (.fredMax x0 x1 x2 x3) := by intros; intro _; exact low_append _ _ _ rfl
theorem bra : ∀ x0 x1, Statement (.bra x0 x1) := by intros; intro _; exact low_append _ _ _ rfl
theorem brc : ∀ x0 x1 x2 x3, Statement (.brc x0 x1 x2 x3) := by intros; intro _; exact low_append _ _ _ rfl
theorem brv : ∀ x0 x1, Statement (.brv x0 x1) := by intros; intro _; exact low_append _ _ _ rfl
theorem brd : ∀ x0, Statement (.brd x0) := by intros; intro _; exact low_append _ _ _ rfl
theorem call : ∀ x0 x1, Statement (.call x0 x1) := by intros; intro _; exact low_append _ _ _ rfl
theorem nop : Statement .nop := by intros; intro _; exact rfl
theorem rejoin : Statement .rejoin := by intros; intro _; exact rfl
theorem ret : Statement .ret := by intros; intro _; exact rfl
theorem jmpi : ∀ x0 x1 x2, Statement (.jmpi x0 x1 x2) := by intros; intro _; exact low_append _ _ _ rfl
theorem exit : Statement .exit := by intros; intro _; exact rfl
theorem qpeek : ∀ x0 x1, Statement (.qpeek x0 x1) := by intros; intro _; exact low_append _ _ _ rfl
theorem qcount : ∀ x0 x1, Statement (.qcount x0 x1) := by intros; intro _; exact low_append _ _ _ rfl
theorem qdrain : ∀ x0, Statement (.qdrain x0) := by intros; intro _; exact low_append _ _ _ rfl
theorem gsync : Statement .gsync := by intros; intro _; exact rfl
theorem gsyncMask : ∀ x0, Statement (.gsyncMask x0) := by intros; intro _; exact low_append _ _ _ rfl
theorem trap : ∀ x0, Statement (.trap x0) := by intros; intro _; exact low_append _ _ _ rfl
theorem brk : ∀ x0, Statement (.brk x0) := by intros; intro _; exact low_append _ _ _ rfl
theorem svc : ∀ x0, Statement (.svc x0) := by intros; intro _; exact low_append _ _ _ rfl
theorem rft : Statement .rft := by intros; intro _; exact rfl
theorem region : Statement .region := by intros; intro _; exact rfl
theorem chkOff : Statement .chkOff := by intros; intro _; exact rfl
theorem chkOn : Statement .chkOn := by intros; intro _; exact rfl
theorem chkQ : ∀ x0, Statement (.chkQ x0) := by intros; intro _; exact low_append _ _ _ rfl
theorem rdsr : ∀ x0 x1, Statement (.rdsr x0 x1) := by intros; intro _; exact low_append _ _ _ rfl
theorem wrsr : ∀ x0 x1, Statement (.wrsr x0 x1) := by intros; intro _; exact low_append _ _ _ rfl
theorem fence : ∀ x0, Statement (.fence x0) := by intros; intro _; exact low_append _ _ _ rfl
theorem acq : ∀ x0, Statement (.acq x0) := by intros; intro _; exact low_append _ _ _ rfl
theorem rel : ∀ x0, Statement (.rel x0) := by intros; intro _; exact low_append _ _ _ rfl
theorem bind : ∀ x0 x1 x2, Statement (.bind x0 x1 x2) := by intros; intro _; exact low_append _ _ _ rfl
theorem unbind : ∀ x0, Statement (.unbind x0) := by intros; intro _; exact low_append _ _ _ rfl
theorem mon : ∀ x0, Statement (.mon x0) := by intros; intro _; exact low_append _ _ _ rfl
theorem mwait : Statement .mwait := by intros; intro _; exact rfl
theorem pfL1 : ∀ x0, Statement (.pfL1 x0) := by intros; intro _; exact low_append _ _ _ rfl
theorem pfL2 : ∀ x0, Statement (.pfL2 x0) := by intros; intro _; exact low_append _ _ _ rfl
theorem copy : ∀ x0 x1 x2, Statement (.copy x0 x1 x2) := by intros; intro _; exact low_append _ _ _ rfl
theorem tcopy : ∀ x0 x1, Statement (.tcopy x0 x1) := by intros; intro _; exact low_append _ _ _ rfl
theorem copyt : ∀ x0 x1 x2, Statement (.copyt x0 x1 x2) := by intros; intro _; exact low_append _ _ _ rfl
theorem cwait : ∀ x0 x1, Statement (.cwait x0 x1) := by intros; intro _; exact low_append _ _ _ rfl
theorem enq : ∀ x0 x1, Statement (.enq x0 x1) := by intros; intro _; exact low_append _ _ _ rfl
theorem deq : ∀ x0 x1, Statement (.deq x0 x1) := by intros; intro _; exact low_append _ _ _ rfl
theorem deqt : ∀ x0 x1 x2, Statement (.deqt x0 x1 x2) := by intros; intro _; exact low_append _ _ _ rfl
theorem mappg : ∀ x0 x1 x2 x3, Statement (.mappg x0 x1 x2 x3) := by intros; intro _; exact low_append _ _ _ rfl
theorem unmappg : ∀ x0 x1, Statement (.unmappg x0 x1) := by intros; intro _; exact low_append _ _ _ rfl
theorem tlbinv : ∀ x0 x1, Statement (.tlbinv x0 x1) := by intros; intro _; exact low_append _ _ _ rfl
theorem fbread : ∀ x0, Statement (.fbread x0) := by intros; intro _; exact low_append _ _ _ rfl
theorem replay : ∀ x0, Statement (.replay x0) := by intros; intro _; exact low_append _ _ _ rfl
theorem replayall : Statement .replayall := by intros; intro _; exact rfl
theorem tmwait : ∀ x0, Statement (.tmwait x0) := by intros; intro _; exact low_append _ _ _ rfl
theorem ctxsv : ∀ x0, Statement (.ctxsv x0) := by intros; intro _; exact low_append _ _ _ rfl
theorem ctxld : ∀ x0, Statement (.ctxld x0) := by intros; intro _; exact low_append _ _ _ rfl
theorem rtcore : ∀ x0, Statement (.rtcore x0) := by intros; intro _; exact low_append _ _ _ rfl
theorem rtclu : ∀ x0, Statement (.rtclu x0) := by intros; intro _; exact low_append _ _ _ rfl
theorem skrd : ∀ x0, Statement (.skrd x0) := by intros; intro _; exact low_append _ _ _ rfl
theorem replan : ∀ x0, Statement (.replan x0) := by intros; intro _; exact low_append _ _ _ rfl
theorem rld : ∀ x0 x1 x2, Statement (.rld x0 x1 x2) := by intros; intro _; exact low_append _ _ _ rfl
theorem rst : ∀ x0 x1 x2, Statement (.rst x0 x1 x2) := by intros; intro _; exact low_append _ _ _ rfl
theorem rredAdd : ∀ x0 x1 x2, Statement (.rredAdd x0 x1 x2) := by intros; intro _; exact low_append _ _ _ rfl
theorem rredMin : ∀ x0 x1 x2, Statement (.rredMin x0 x1 x2) := by intros; intro _; exact low_append _ _ _ rfl
theorem rredMax : ∀ x0 x1 x2, Statement (.rredMax x0 x1 x2) := by intros; intro _; exact low_append _ _ _ rfl
theorem rredAnd : ∀ x0 x1 x2, Statement (.rredAnd x0 x1 x2) := by intros; intro _; exact low_append _ _ _ rfl
theorem rredOr : ∀ x0 x1 x2, Statement (.rredOr x0 x1 x2) := by intros; intro _; exact low_append _ _ _ rfl
theorem rredXor : ∀ x0 x1 x2, Statement (.rredXor x0 x1 x2) := by intros; intro _; exact low_append _ _ _ rfl
theorem mcst : ∀ x0 x1 x2 x3, Statement (.mcst x0 x1 x2 x3) := by intros; intro _; exact low_append _ _ _ rfl
theorem mcatomAdd : ∀ x0 x1 x2, Statement (.mcatomAdd x0 x1 x2) := by intros; intro _; exact low_append _ _ _ rfl
theorem mcatomMin : ∀ x0 x1 x2, Statement (.mcatomMin x0 x1 x2) := by intros; intro _; exact low_append _ _ _ rfl
theorem mcatomMax : ∀ x0 x1 x2, Statement (.mcatomMax x0 x1 x2) := by intros; intro _; exact low_append _ _ _ rfl
theorem mcatomAnd : ∀ x0 x1 x2, Statement (.mcatomAnd x0 x1 x2) := by intros; intro _; exact low_append _ _ _ rfl
theorem mcatomOr : ∀ x0 x1 x2, Statement (.mcatomOr x0 x1 x2) := by intros; intro _; exact low_append _ _ _ rfl
theorem mcatomXor : ∀ x0 x1 x2, Statement (.mcatomXor x0 x1 x2) := by intros; intro _; exact low_append _ _ _ rfl
theorem mcwait : ∀ x0 x1, Statement (.mcwait x0 x1) := by intros; intro _; exact low_append _ _ _ rfl
theorem phjoin : ∀ x0 x1, Statement (.phjoin x0 x1) := by intros; intro _; exact low_append _ _ _ rfl
theorem phleave : ∀ x0, Statement (.phleave x0) := by intros; intro _; exact low_append _ _ _ rfl
theorem phsig : ∀ x0, Statement (.phsig x0) := by intros; intro _; exact low_append _ _ _ rfl
theorem phsigBnd : ∀ x0, Statement (.phsigBnd x0) := by intros; intro _; exact low_append _ _ _ rfl
theorem phwait : ∀ x0 x1, Statement (.phwait x0 x1) := by intros; intro _; exact low_append _ _ _ rfl
theorem phsw : ∀ x0 x1, Statement (.phsw x0 x1) := by intros; intro _; exact low_append _ _ _ rfl
theorem phswBnd : ∀ x0 x1, Statement (.phswBnd x0 x1) := by intros; intro _; exact low_append _ _ _ rfl
theorem phany : ∀ x0 x1, Statement (.phany x0 x1) := by intros; intro _; exact low_append _ _ _ rfl
theorem phfind : ∀ x0 x1, Statement (.phfind x0 x1) := by intros; intro _; exact low_append _ _ _ rfl
theorem mma : ∀ x0 x1 x2 x3 x4, Statement (.mma x0 x1 x2 x3 x4) := by intros; intro _; exact low_append _ _ _ rfl
theorem mmaz : ∀ x0 x1 x2 x3 x4, Statement (.mmaz x0 x1 x2 x3 x4) := by intros; intro _; exact low_append _ _ _ rfl
theorem azero : ∀ x0, Statement (.azero x0) := by intros; intro _; exact low_append _ _ _ rfl
theorem acvt : ∀ x0 x1 x2, Statement (.acvt x0 x1 x2) := by intros; intro _; exact low_append _ _ _ rfl
theorem tpin : ∀ x0 x1, Statement (.tpin x0 x1) := by intros; intro _; exact low_append _ _ _ rfl
theorem awt : ∀ x0, Statement (.awt x0) := by intros; intro _; exact low_append _ _ _ rfl
theorem pmapply : ∀ x0 x1, Statement (.pmapply x0 x1) := by intros; intro _; exact low_append _ _ _ rfl
theorem gerd : ∀ x0 x1, Statement (.gerd x0 x1) := by intros; intro _; exact low_append _ _ _ rfl
theorem lup : ∀ x0 x1, Statement (.lup x0 x1) := by intros; intro _; exact low_append _ _ _ rfl
theorem chol : ∀ x0 x1, Statement (.chol x0 x1) := by intros; intro _; exact low_append _ _ _ rfl
theorem qrh : ∀ x0 x1 x2, Statement (.qrh x0 x1 x2) := by intros; intro _; exact low_append _ _ _ rfl
theorem trsm : ∀ x0 x1 x2 x3, Statement (.trsm x0 x1 x2 x3) := by intros; intro _; exact low_append _ _ _ rfl
theorem packageColdReset : ∀ x0, Statement (.packageColdReset x0) := by intros; intro h; cases h
theorem secureBootStage : ∀ x0 x1 x2 x3 x4, Statement (.secureBootStage x0 x1 x2 x3 x4) := by intros; intro h; cases h
theorem attestationRequest : ∀ x0 x1, Statement (.attestationRequest x0 x1) := by intros; intro h; cases h
theorem hostWrite : ∀ x0 x1 x2 x3, Statement (.hostWrite x0 x1 x2 x3) := by intros; intro h; cases h
theorem hostRead : ∀ x0 x1 x2 x3, Statement (.hostRead x0 x1 x2 x3) := by intros; intro h; cases h
theorem submissionNotify : ∀ x0 x1 x2, Statement (.submissionNotify x0 x1 x2) := by intros; intro h; cases h
theorem qcfgWrite : ∀ x0 x1 x2, Statement (.qcfgWrite x0 x1 x2) := by intros; intro h; cases h
theorem launchPacketStampRead : ∀ x0 x1, Statement (.launchPacketStampRead x0 x1) := by intros; intro h; cases h
theorem launchStart : ∀ x0 x1, Statement (.launchStart x0 x1) := by intros; intro h; cases h
theorem startTimeReached : ∀ x0 x1, Statement (.startTimeReached x0 x1) := by intros; intro h; cases h
theorem gangEnd : ∀ x0, Statement (.gangEnd x0) := by intros; intro h; cases h
theorem launchEnd : ∀ x0 x1, Statement (.launchEnd x0 x1) := by intros; intro h; cases h
theorem lendWrite : ∀ x0 x1, Statement (.lendWrite x0 x1) := by intros; intro h; cases h
theorem preemptWrite : ∀ x0 x1, Statement (.preemptWrite x0 x1) := by intros; intro h; cases h
theorem preemptHeldStart : ∀ x0, Statement (.preemptHeldStart x0) := by intros; intro h; cases h
theorem contextCapture : ∀ x0, Statement (.contextCapture x0) := by intros; intro h; cases h
theorem contextImageComplete : ∀ x0, Statement (.contextImageComplete x0) := by intros; intro h; cases h
theorem restoreLineRead : ∀ x0, Statement (.restoreLineRead x0) := by intros; intro h; cases h
theorem contextEntryWrite : ∀ x0 x1 x2, Statement (.contextEntryWrite x0 x1 x2) := by intros; intro h; cases h
theorem migctlGo : ∀ x0 x1, Statement (.migctlGo x0 x1) := by intros; intro h; cases h
theorem migrationFinalStart : ∀ x0, Statement (.migrationFinalStart x0) := by intros; intro h; cases h
theorem migrationSwitch : ∀ x0, Statement (.migrationSwitch x0) := by intros; intro h; cases h
theorem migrationHoldTimeout : ∀ x0, Statement (.migrationHoldTimeout x0) := by intros; intro h; cases h
theorem baseDieScrub : ∀ x0 x1 x2 x3, Statement (.baseDieScrub x0 x1 x2 x3) := by intros; intro h; cases h
theorem rowSpareCopy : ∀ x0 x1 x2 x3, Statement (.rowSpareCopy x0 x1 x2 x3) := by intros; intro h; cases h
theorem frameZeroingDone : ∀ x0 x1, Statement (.frameZeroingDone x0 x1) := by intros; intro h; cases h
theorem clockAdjust : ∀ x0 x1, Statement (.clockAdjust x0 x1) := by intros; intro h; cases h
theorem thermalThrottle : ∀ x0, Statement (.thermalThrottle x0) := by intros; intro h; cases h
theorem thermalStop : ∀ x0, Statement (.thermalStop x0) := by intros; intro h; cases h
theorem wearRecompute : ∀ x0 x1, Statement (.wearRecompute x0 x1) := by intros; intro h; cases h
theorem ptpMessage : ∀ x0 x1 x2 x3, Statement (.ptpMessage x0 x1 x2 x3) := by intros; intro h; cases h
theorem ptpSyncLoss : ∀ x0, Statement (.ptpSyncLoss x0) := by intros; intro h; cases h
theorem interruptRouteWrite : ∀ x0 x1 x2, Statement (.interruptRouteWrite x0 x1 x2) := by intros; intro h; cases h
theorem qresWrite : ∀ x0 x1, Statement (.qresWrite x0 x1) := by intros; intro h; cases h
theorem fbcfgWrite : ∀ x0 x1, Statement (.fbcfgWrite x0 x1) := by intros; intro h; cases h
theorem fbstatWrite : ∀ x0 x1, Statement (.fbstatWrite x0 x1) := by intros; intro h; cases h
theorem poolpush : ∀ x0 x1 x2, Statement (.poolpush x0 x1 x2) := by intros; intro h; cases h
theorem queueTableWrite : ∀ x0 x1 x2 x3, Statement (.queueTableWrite x0 x1 x2 x3) := by intros; intro h; cases h
theorem phaserEntryEnWrite : ∀ x0 x1 x2, Statement (.phaserEntryEnWrite x0 x1 x2) := by intros; intro h; cases h
theorem phaserHoldWrite : ∀ x0 x1 x2, Statement (.phaserHoldWrite x0 x1 x2) := by intros; intro h; cases h
theorem groupEnJoin : ∀ x0 x1 x2, Statement (.groupEnJoin x0 x1 x2) := by intros; intro h; cases h
theorem groupEnLeave : ∀ x0 x1 x2, Statement (.groupEnLeave x0 x1 x2) := by intros; intro h; cases h
theorem headgateRehome : ∀ x0 x1 x2, Statement (.headgateRehome x0 x1 x2) := by intros; intro h; cases h
theorem registerWrite : ∀ x0 x1 x2, Statement (.registerWrite x0 x1 x2) := by intros; intro h; cases h
theorem issueCycle : ∀ x0, Statement (.issueCycle x0) := by intros; intro h; cases h
theorem storeHoldDataArrival : ∀ x0, Statement (.storeHoldDataArrival x0) := by intros; intro h; cases h
theorem gsyncRendezvous : ∀ x0, Statement (.gsyncRendezvous x0) := by intros; intro h; cases h
theorem otherSliceStopBound : ∀ x0, Statement (.otherSliceStopBound x0) := by intros; intro h; cases h
theorem trapDelivery : ∀ x0, Statement (.trapDelivery x0) := by intros; intro h; cases h
theorem queueDeadlockTimeout : ∀ x0, Statement (.queueDeadlockTimeout x0) := by intros; intro h; cases h
theorem loadDataReturn : ∀ x0, Statement (.loadDataReturn x0) := by intros; intro h; cases h
theorem storeAck : ∀ x0, Statement (.storeAck x0) := by intros; intro h; cases h
theorem monitorDrop : ∀ x0 x1, Statement (.monitorDrop x0 x1) := by intros; intro h; cases h
theorem fullEmptyServe : ∀ x0, Statement (.fullEmptyServe x0) := by intros; intro h; cases h
theorem acqAttempt : ∀ x0, Statement (.acqAttempt x0) := by intros; intro h; cases h
theorem cwaitEvaluate : ∀ x0, Statement (.cwaitEvaluate x0) := by intros; intro h; cases h
theorem dieTlbMiss : ∀ x0, Statement (.dieTlbMiss x0) := by intros; intro h; cases h
theorem mergeEntryWaitRetry : ∀ x0, Statement (.mergeEntryWaitRetry x0) := by intros; intro h; cases h
theorem pageTableWalkEnd : ∀ x0 x1, Statement (.pageTableWalkEnd x0 x1) := by intros; intro h; cases h
theorem copyOpStart : ∀ x0 x1, Statement (.copyOpStart x0 x1) := by intros; intro h; cases h
theorem copyOpComplete : ∀ x0 x1, Statement (.copyOpComplete x0 x1) := by intros; intro h; cases h
theorem enqLaneResume : ∀ x0, Statement (.enqLaneResume x0) := by intros; intro h; cases h
theorem deqtTimeout : ∀ x0, Statement (.deqtTimeout x0) := by intros; intro h; cases h
theorem queueFailure : ∀ x0 x1, Statement (.queueFailure x0 x1) := by intros; intro h; cases h
theorem tmwaitExpiry : ∀ x0, Statement (.tmwaitExpiry x0) := by intros; intro h; cases h
theorem tileFetchLine : ∀ x0, Statement (.tileFetchLine x0) := by intros; intro h; cases h
theorem anvilKstep : ∀ x0, Statement (.anvilKstep x0) := by intros; intro h; cases h
theorem anvilColumn : ∀ x0, Statement (.anvilColumn x0) := by intros; intro h; cases h
theorem controllerTrapDelivery : ∀ x0, Statement (.controllerTrapDelivery x0) := by intros; intro h; cases h
theorem awtReturn : ∀ x0, Statement (.awtReturn x0) := by intros; intro h; cases h
theorem flitReceive : ∀ x0 x1 x2, Statement (.flitReceive x0 x1 x2) := by intros; intro h; cases h
theorem linkRetryTimeout : ∀ x0 x1, Statement (.linkRetryTimeout x0 x1) := by intros; intro h; cases h
theorem laneRetire : ∀ x0 x1 x2, Statement (.laneRetire x0 x1 x2) := by intros; intro h; cases h
theorem laneSwapDone : ∀ x0 x1, Statement (.laneSwapDone x0 x1) := by intros; intro h; cases h
theorem keepaliveSend : ∀ x0 x1 x2, Statement (.keepaliveSend x0 x1 x2) := by intros; intro h; cases h
theorem portDown : ∀ x0 x1, Statement (.portDown x0 x1) := by intros; intro h; cases h
theorem packageDead : ∀ x0, Statement (.packageDead x0) := by intros; intro h; cases h
theorem routeExchange : ∀ x0 x1 x2 x3, Statement (.routeExchange x0 x1 x2 x3) := by intros; intro h; cases h
theorem remoteAccessServe : ∀ x0, Statement (.remoteAccessServe x0) := by intros; intro h; cases h
theorem remoteLoadReturn : ∀ x0, Statement (.remoteLoadReturn x0) := by intros; intro h; cases h
theorem remoteWriteAck : ∀ x0, Statement (.remoteWriteAck x0) := by intros; intro h; cases h
theorem multicastStamp : ∀ x0, Statement (.multicastStamp x0) := by intros; intro h; cases h
theorem multicastStampRelease : ∀ x0, Statement (.multicastStampRelease x0) := by intros; intro h; cases h
theorem multicastApply : ∀ x0 x1, Statement (.multicastApply x0 x1) := by intros; intro h; cases h
theorem stableBroadcast : ∀ x0, Statement (.stableBroadcast x0) := by intros; intro h; cases h
theorem weirArrival : ∀ x0 x1, Statement (.weirArrival x0 x1) := by intros; intro h; cases h
theorem phaserMembershipAtRoot : ∀ x0, Statement (.phaserMembershipAtRoot x0) := by intros; intro h; cases h
theorem phaserFail : ∀ x0, Statement (.phaserFail x0) := by intros; intro h; cases h
theorem weirStandbyTakeover : ∀ x0 x1, Statement (.weirStandbyTakeover x0 x1) := by intros; intro h; cases h
theorem collectiveChunkWrite : ∀ x0 x1 x2, Statement (.collectiveChunkWrite x0 x1 x2) := by intros; intro h; cases h
theorem anvilQueuedOperation : ∀ x0, Statement (.anvilQueuedOperation x0) := by intros; intro h; cases h
theorem linkTrainingComplete : ∀ x0 x1 x2 x3, Statement (.linkTrainingComplete x0 x1 x2 x3) := by intros; intro h; cases h
theorem groupStateError : ∀ x0 x1, Statement (.groupStateError x0 x1) := by intros; intro h; cases h

end Sys2Proof.Laws.LengthBit
end

