-- ==== Sys2Proof/Tests/Slice0.lean ====
section
/-! SUPPORT. Tests: ill-formed terms that each check refuses, words put together from the encoding tables, results worked out by
hand from the rules, and for the hypotheses of every statement a state and operands that meet them. -/

namespace Sys2Proof.Tests

open Sys2Proof Sys2Proof.Machine

set_option Elab.async false

/-! ## Ill-formed instructions (R79) -/

/-- The detail that a unit in a mode raises for an instruction. -/
def refuses (u : UnitKind) (m : Mode) (i : Instr) : Option Nat := WellFormed.lowest (WellFormed.faults u m i)

/-- A unit that does not have the instruction, detail 3; and a queue source in the controller. -/
theorem test_illFormed_unit : refuses .C .user (.ld 14 0 1 5 6 8) = some 3 ∧ refuses .A .user (.awt 4) = some 3
    ∧ refuses .M .user (.add 1 1 4 6 8 1) = some 3 := by decide +kernel
/-- A privileged instruction in user mode, detail 4. -/
theorem test_illFormed_mode : refuses .A .user (.rtcore 6) = some 4 ∧ refuses .A .user (.fbread 8) = some 4
    ∧ refuses .A .supervisor (.rtcore 6) = some 4 ∧ refuses .A .firmware (.rtcore 6) = none := by decide +kernel
/-- A reserved field that is not zero, detail 5. -/
theorem test_illFormed_reserved : refuses .A .user (.add 1 2 4 6 8 0) = some 5 ∧ refuses .A .user (.add 1 1 4 8 8 1) = some 5
    ∧ refuses .A .user (.ld 14 1 1 5 6 8) = some 5 ∧ refuses .C .user (.bra 4 1) = some 5 ∧ refuses .A .user (.jmpi 4 6 0) = some 5
    ∧ refuses .C .user (.jmpi 0 6 0) = some 5 ∧ refuses .C .user (.shlImm 32 8) = some 5 ∧ refuses .A .user (.shlImm 64 8) = some 5 := by
  decide +kernel
/-- A variant that does not exist, detail 6. -/
theorem test_illFormed_variant : refuses .M .user (.add 1 3 4 6 8 0) = some 6 ∧ refuses .A .user (.icmp 0 2 4 6 0 0 0) = some 6
    ∧ refuses .A .user (.icmp 0 3 4 6 0 1 0) = some 6 ∧ refuses .A .user (.add 1 9 4 6 8 0) = some 6
    ∧ refuses .A .user (.icmp 0 1 4 6 6 1 0) = some 6 ∧ refuses .A .user (.fsqrt 0 1 5 6 8 0) = some 6
    ∧ refuses .C .user (.tspk 3 1 0 0 6 8 0) = some 6 ∧ refuses .A .user (.gred 0 1 0 6 6 8 0) = some 6
    ∧ refuses .A .user (.scanInc 0 1 1 3 6 8 0) = some 6 ∧ refuses .A .user (.cvtRne 3 1 0 2 6 8 0) = some 6 := by decide +kernel
/-- Variants of the memory, control and fabric rows, detail 6. -/
theorem test_illFormed_variant_memory : refuses .A .user (.ld 14 0 1 7 6 8) = some 6 ∧ refuses .A .user (.st 14 0 1 1 6 8) = some 6
    ∧ refuses .A .user (.ldFe 14 0 1 0 6 8) = some 6 ∧ refuses .C .user (.qdrain 4) = some 6 ∧ refuses .A .user (.fence 7) = some 6
    ∧ refuses .A .user (.wrsr 4 0) = some 6 ∧ refuses .A .supervisor (.tlbinv 6 6) = some 6 ∧ refuses .A .user (.rld 3 6 8) = some 6
    ∧ refuses .C .user (.movh 1 2 8) = some 6 := by decide +kernel
/-- A register, queue or special register that does not exist, detail 7. -/
theorem test_illFormed_register : refuses .M .user (.add 1 1 32 6 8 0) = some 7 ∧ refuses .C .user (.add 1 1 4 7 8 0) = some 7
    ∧ refuses .A .user (.add 1 1 4 3 8 1) = some 7 ∧ refuses .A .user (.ld 14 0 1 6 6 9) = some 7 ∧ refuses .A .user (.qpeek 3 8) = some 7
    ∧ refuses .A .user (.rdsr 9 8) = some 7 ∧ refuses .A .user (.wrsr 4 10) = some 7 ∧ refuses .A .user (.deq 6 48) = some 7
    ∧ refuses .A .user (.rld 1 7 8) = some 7 ∧ refuses .A .supervisor (.fbread 9) = some 7 ∧ refuses .M .user (.awt 32) = some 7
    ∧ refuses .A .user (.phfind 6 9) = some 7 := by decide +kernel
/-- The zero halfword's instruction, detail 2. -/
theorem test_illFormed_zero : refuses .A .user (.mov16 0 0) = some 2 := by decide +kernel
/-- The lowest detail of several is the one raised: a unit without the instruction in a mode without the privilege. -/
theorem test_illFormed_lowest : refuses .C .user (.rtcore 6) = some 3 := by decide +kernel

/-! ## Words put together from the encoding tables -/

/-- Words of every row of the tables: the row's fixed bits with each operand field at a value of its own. -/
theorem test_decode_none : decodeTableWord 32 0 = none ∧ decodeTableWord 32 0xFFFFFFFF = none ∧ decodeTableWord 16 0x10000 = none := by
  decide +kernel

theorem test_decode_short : ([
  (0x2080, .mov16 8 4),
  (0x2082, .add16 8 4),
  (0x2084, .sub16 8 4),
  (0x2086, .mul16 8 4),
  (0x2088, .and16 8 4),
  (0x208A, .or16 8 4),
  (0x208C, .xor16 8 4),
  (0x208E, .shl16 8 4),
  (0x2090, .shr16 8 4),
  (0x2092, .sar16 8 4),
  (0x2094, .min16 8 4),
  (0x2096, .max16 8 4),
  (0x2098, .fadd16 8 4),
  (0x209A, .fsub16 8 4),
  (0x209C, .fmul16 8 4),
  (0x209E, .fmax16 8 4)] : List (Nat × Instr)).all (fun x => decodeTableWord 32 x.1 == some x.2) = true := by decide +kernel

theorem test_decode_integer_lane : ([
  (0x44418801, .add 1 1 4 6 8 0),
  (0x44418803, .sub 1 1 4 6 8 0),
  (0x44418805, .mul 1 1 4 6 8 0),
  (0x44418807, .mulh 1 1 4 6 8 0),
  (0x44418809, .mad 1 1 4 6 8 0),
  (0x4441880B, .div 1 1 4 6 8 0),
  (0x4441880D, .rem 1 1 4 6 8 0),
  (0x4441880F, .min 1 1 4 6 8 0),
  (0x44418811, .max 1 1 4 6 8 0),
  (0x44418813, .and 1 1 4 6 8 0),
  (0x44418815, .or 1 1 4 6 8 0),
  (0x44418817, .xor 1 1 4 6 8 0),
  (0x44418819, .shl 1 1 4 6 8 0),
  (0x4441881B, .shr 1 1 4 6 8 0),
  (0x4441881D, .sar 1 1 4 6 8 0),
  (0x4441881F, .rol 1 1 4 6 8 0),
  (0xC441881F, .ror 1 1 4 6 8 0),
  (0x44018821, .abs 1 1 6 8 0),
  (0x44118821, .neg 1 1 6 8 0),
  (0x44218821, .not 1 1 6 8 0),
  (0x44318821, .clz 1 1 6 8 0),
  (0x44418821, .popc 1 1 6 8 0),
  (0x44518821, .brev 1 1 6 8 0),
  (0x44418823, .bfx 1 1 4 6 8 0),
  (0x44418825, .bfi 1 1 4 6 8 0)] : List (Nat × Instr)).all (fun x => decodeTableWord 32 x.1 == some x.2) = true := by decide +kernel

theorem test_decode_compare_select : ([
  (0x44418927, .icmp 1 1 4 6 1 1 0),
  (0xC4418829, .sel 3 1 4 6 8 0),
  (0xC441882B, .lea 3 1 4 6 8 0)] : List (Nat × Instr)).all (fun x => decodeTableWord 32 x.1 == some x.2) = true := by decide +kernel

theorem test_decode_floating : ([
  (0x4441882D, .fadd 1 1 4 6 8 0),
  (0x4441882F, .fsub 1 1 4 6 8 0),
  (0x44418831, .fmul 1 1 4 6 8 0),
  (0x44418833, .fma 1 1 4 6 8 0),
  (0x44418835, .fdiv 1 1 4 6 8 0),
  (0x44818837, .fsqrt 1 1 1 6 8 0),
  (0x44118837, .frcp 1 1 6 8 0),
  (0x44218837, .frsq 1 1 6 8 0),
  (0x44318837, .fexp2 1 1 6 8 0),
  (0x44418837, .flog2 1 1 6 8 0),
  (0x44518837, .fabs 1 1 6 8 0),
  (0x44618837, .fneg 1 1 6 8 0),
  (0x44418839, .fmin 1 1 4 6 8 0),
  (0x4441883B, .fmax 1 1 4 6 8 0),
  (0x4441883D, .fminn 1 1 4 6 8 0),
  (0x4441883F, .fmaxn 1 1 4 6 8 0),
  (0x44418941, .fcmp 1 1 4 6 1 1 0)] : List (Nat × Instr)).all (fun x => decodeTableWord 32 x.1 == some x.2) = true := by decide +kernel

theorem test_decode_block_and_shuffle : ([
  (0x44918843, .tspk 1 1 1 1 6 8 0),
  (0x44418845, .tsupk 1 1 4 6 8 0),
  (0xC4418845, .tssc 1 4 6 8 0),
  (0x04418847, .shflIdx 1 4 6 8 0),
  (0x44418847, .shflUp 1 4 6 8 0),
  (0x84418847, .shflDn 1 4 6 8 0),
  (0xC4418847, .shflXor 1 4 6 8 0),
  (0x04418849, .rotUp 1 4 6 8 0),
  (0x44418849, .rotDn 1 4 6 8 0),
  (0x84318849, .bcast 1 3 6 8 0),
  (0x4621884B, .gred 1 1 1 2 6 8 0),
  (0x46A1884B, .scanInc 1 1 1 2 6 8 0),
  (0x4721884B, .scanExc 1 1 1 2 6 8 0)] : List (Nat × Instr)).all (fun x => decodeTableWord 32 x.1 == some x.2) = true := by decide +kernel

theorem test_decode_mask : ([
  (0x0441804D, .kand 1 4 6 0 0),
  (0x04C1804D, .kandn 1 4 6 0 0),
  (0x4441804D, .kor 1 4 6 0 0),
  (0x8441804D, .kxor 1 4 6 0 0),
  (0xC401804D, .knot 1 6 0 0),
  (0xC411804D, .voteAll 1 6 0 0),
  (0xC421804D, .voteAny 1 6 0 0),
  (0xC431884D, .ballot 1 6 8 0),
  (0xC441804D, .kset 1 6 0 0),
  (0xC451804D, .kmov 1 6 0 0)] : List (Nat × Instr)).all (fun x => decodeTableWord 32 x.1 == some x.2) = true := by decide +kernel

theorem test_decode_directed_and_convert : ([
  (0x4441884F, .faddD 1 1 4 6 8 0),
  (0x44418851, .fsubD 1 1 4 6 8 0),
  (0x44418853, .fmulD 1 1 4 6 8 0),
  (0x44418855, .fmaD 1 1 4 6 8 0),
  (0x44518857, .cvtRne 1 1 1 1 6 8 0),
  (0x44518859, .cvtRna 1 1 1 1 6 8 0),
  (0x4451885B, .cvtRz 1 1 1 1 6 8 0),
  (0x4451885D, .cvtRup 1 1 1 1 6 8 0),
  (0x4451885F, .cvtRdn 1 1 1 1 6 8 0)] : List (Nat × Instr)).all (fun x => decodeTableWord 32 x.1 == some x.2) = true := by decide +kernel

theorem test_decode_immediate : ([
  (0x00150861, .movImm 21 8),
  (0x00154861, .addImm 21 8),
  (0x00158861, .mulImm 21 8),
  (0x0015C861, .andImm 21 8),
  (0x00150863, .orImm 21 8),
  (0x00154863, .xorImm 21 8),
  (0x00158863, .shlImm 21 8),
  (0x0015C863, .shrImm 21 8),
  (0x00150865, .sarImm 21 8),
  (0x00154865, .minImm 21 8),
  (0x00158865, .maxImm 21 8),
  (0x00154867, .movh 21 1 8),
  (0x00150869, .fmovImm 21 8),
  (0x00154869, .faddImm 21 8),
  (0x00158869, .fmulImm 21 8),
  (0x0015C869, .fmaxImm 21 8)] : List (Nat × Instr)).all (fun x => decodeTableWord 32 x.1 == some x.2) = true := by decide +kernel

theorem test_decode_load_store : ([
  (0xE0918875, .ld 14 0 1 1 6 8),
  (0x12D18875, .ldFe 1 0 1 5 6 8),
  (0x14C18875, .ldFec 1 0 1 4 6 8),
  (0xE0D18877, .st 14 0 1 5 6 8),
  (0xE2D18877, .stFe 14 0 1 5 6 8)] : List (Nat × Instr)).all (fun x => decodeTableWord 32 x.1 == some x.2) = true := by decide +kernel

theorem test_decode_atomic : ([
  (0x0A418879, .atomAdd 1 1 4 6 8),
  (0x2A418879, .atomMin 1 1 4 6 8),
  (0x4A418879, .atomMax 1 1 4 6 8),
  (0x6A418879, .atomAnd 1 1 4 6 8),
  (0x8A418879, .atomOr 1 1 4 6 8),
  (0xAA418879, .atomXor 1 1 4 6 8),
  (0xCA418879, .atomExch 1 1 4 6 8),
  (0xEA418879, .atomCas 1 1 4 6 8),
  (0x0A41807B, .redAdd 1 1 4 6),
  (0x2A41807B, .redMin 1 1 4 6),
  (0x4A41807B, .redMax 1 1 4 6),
  (0x6A41807B, .redAnd 1 1 4 6),
  (0x8A41807B, .redOr 1 1 4 6),
  (0xAA41807B, .redXor 1 1 4 6),
  (0x0A41887D, .fatomAdd 1 1 4 6 8),
  (0x2A41887D, .fatomMin 1 1 4 6 8),
  (0x4A41887D, .fatomMax 1 1 4 6 8),
  (0x0A41807F, .fredAdd 1 1 4 6),
  (0x2A41807F, .fredMin 1 1 4 6),
  (0x4A41807F, .fredMax 1 1 4 6)] : List (Nat × Instr)).all (fun x => decodeTableWord 32 x.1 == some x.2) = true := by decide +kernel

theorem test_decode_control : ([
  (0xFFFFA06B, .bra 262142 1),
  (0xFFFFA56D, .brc 262142 1 1 1),
  (0xFFFFA46F, .brv 262142 1),
  (0xFFFF8071, .brd 262142),
  (0xFFFFA073, .call 262142 1),
  (0x000000E1, .nop),
  (0x040000E1, .rejoin),
  (0x080000E1, .ret),
  (0x0C4181E1, .jmpi 4 6 1),
  (0x100000E1, .exit),
  (0x140008E1, .qpeek 0 8),
  (0x540008E1, .qcount 0 8),
  (0x940000E1, .qdrain 0)] : List (Nat × Instr)).all (fun x => decodeTableWord 32 x.1 == some x.2) = true := by decide +kernel

theorem test_decode_trap_and_region : ([
  (0x180000E1, .gsync),
  (0x580180E1, .gsyncMask 6),
  (0x1C48C0E1, .trap 291),
  (0x2048C0E1, .brk 291),
  (0x2448C0E1, .svc 291),
  (0x280000E1, .rft),
  (0x2C0000E1, .region),
  (0x300000E1, .chkOff),
  (0x700000E1, .chkOn),
  (0xB00008E1, .chkQ 8),
  (0x340188E1, .rdsr 6 8),
  (0x384180E1, .wrsr 4 6),
  (0x000001E3, .fence 1)] : List (Nat × Instr)).all (fun x => decodeTableWord 32 x.1 == some x.2) = true := by decide +kernel

theorem test_decode_synchronisation : ([
  (0x040180E3, .acq 6),
  (0x080180E3, .rel 6),
  (0x0C4188E3, .bind 4 6 8),
  (0x100180E3, .unbind 6),
  (0x140180E3, .mon 6),
  (0x180000E3, .mwait),
  (0x1C0180E3, .pfL1 6),
  (0x5C0180E3, .pfL2 6)] : List (Nat × Instr)).all (fun x => decodeTableWord 32 x.1 == some x.2) = true := by decide +kernel

theorem test_decode_die : ([
  (0x004188E5, .copy 4 6 8),
  (0x040188E5, .tcopy 6 8),
  (0x084188E5, .copyt 4 6 8),
  (0x0C4180E5, .cwait 4 6),
  (0x104180E5, .enq 4 6),
  (0x140188E5, .deq 6 8),
  (0x184188E5, .deqt 4 6 8),
  (0x404188E7, .mappg 1 4 6 8),
  (0x440180E7, .unmappg 1 6),
  (0x080181E7, .tlbinv 6 1),
  (0x0C0008E7, .fbread 8),
  (0x100180E7, .replay 6),
  (0x140000E7, .replayall)] : List (Nat × Instr)).all (fun x => decodeTableWord 32 x.1 == some x.2) = true := by decide +kernel

theorem test_decode_package : ([
  (0x000180E9, .tmwait 6),
  (0x040180E9, .ctxsv 6),
  (0x080180E9, .ctxld 6),
  (0x0C0180E9, .rtcore 6),
  (0x100180E9, .rtclu 6),
  (0x140008E9, .skrd 8),
  (0x180180E9, .replan 6)] : List (Nat × Instr)).all (fun x => decodeTableWord 32 x.1 == some x.2) = true := by decide +kernel

theorem test_decode_fabric : ([
  (0x400188EB, .rld 1 6 8),
  (0x444180EB, .rst 1 4 6),
  (0x484180EB, .rredAdd 1 4 6),
  (0x484181EB, .rredMin 1 4 6),
  (0x484182EB, .rredMax 1 4 6),
  (0x484183EB, .rredAnd 1 4 6),
  (0x484184EB, .rredOr 1 4 6),
  (0x484185EB, .rredXor 1 4 6),
  (0x4C4188EB, .mcst 1 4 6 8),
  (0x504180EB, .mcatomAdd 1 4 6),
  (0x504181EB, .mcatomMin 1 4 6),
  (0x504182EB, .mcatomMax 1 4 6),
  (0x504183EB, .mcatomAnd 1 4 6),
  (0x504184EB, .mcatomOr 1 4 6),
  (0x504185EB, .mcatomXor 1 4 6),
  (0x144180EB, .mcwait 4 6)] : List (Nat × Instr)).all (fun x => decodeTableWord 32 x.1 == some x.2) = true := by decide +kernel

theorem test_decode_phaser : ([
  (0x004180ED, .phjoin 4 6),
  (0x040180ED, .phleave 6),
  (0x080180ED, .phsig 6),
  (0x480180ED, .phsigBnd 6),
  (0x0C4180ED, .phwait 4 6),
  (0x104180ED, .phsw 4 6),
  (0x504180ED, .phswBnd 4 6),
  (0x144180ED, .phany 4 6),
  (0x180188ED, .phfind 6 8)] : List (Nat × Instr)).all (fun x => decodeTableWord 32 x.1 == some x.2) = true := by decide +kernel

theorem test_decode_anvil : ([
  (0x111201EF, .mma 1 1 1 1 1),
  (0x111241EF, .mmaz 1 1 1 1 1),
  (0x100080EF, .azero 1),
  (0x1102C0EF, .acvt 1 1 1),
  (0x100300EF, .tpin 1 1),
  (0x000141EF, .awt 1),
  (0x100380EF, .pmapply 1 1),
  (0x0003C1EF, .gerd 1 1),
  (0x100200F1, .lup 1 1),
  (0x100240F1, .chol 1 1),
  (0x110280F1, .qrh 1 1 1),
  (0x1112C0F1, .trsm 1 1 1 1)] : List (Nat × Instr)).all (fun x => decodeTableWord 32 x.1 == some x.2) = true := by decide +kernel


/-! ## Small states -/

/-- The gang that the tests run. -/
def gA : GangId := ⟨0, 0, 0, 0, 0⟩
/-- The controller that the tests run. -/
def cM : CluId := ⟨0, 0, 0⟩
/-- A gang's a-slice about to issue. -/
def stA : State := State.reset.ready (.a gA) .user
/-- A gang's c-slice about to issue. -/
def stC : State := State.reset.ready (.c gA) .user
/-- A controller about to issue. -/
def stM : State := State.reset.ready (.m cM) .user
/-- A vector register with one value in every lane. -/
def row (v : DWord) : List Val := List.replicate 32 ⟨v, false⟩
/-- The a-slice with `a4` and `a6` set, its data before that of b and a. -/
def stAB (b a : DWord) : State := stA.modGang gA fun x => { x with a := [(4, row b), (6, row a)] }
/-- The gang changed. -/
def withG (s : State) (f : Gang → Gang) : State := s.modGang gA f
/-- What a next state holds. -/
def after (o : Out) (p : State → Bool) : Bool :=
  match o with
  | .next s => p s
  | .fault _ => false
  | .refused _ => false
/-- A register of the a-slice in a lane after an instruction. -/
def result (o : Out) (code lane : Nat) : Option DWord :=
  match o with
  | .next s => some ((s.gang gA).readA code lane).bits
  | .fault _ => none
  | .refused _ => none

/-! ## Results worked out by hand -/

/-- A 32-bit sum wraps and is extended with zeros (R139, R55). -/
theorem test_add_wraps : result (exec (.add 0 1 4 6 8 0) (stAB 1 0xFFFFFFFF)) 8 31 = some 0 := by decide +kernel
/-- A signed product's high half (R139): −2 × 3 is −6, whose high half is all ones. -/
theorem test_mulh_signed : result (exec (.mulh 1 1 4 6 8 0) (stAB 3 (-2))) 8 0 = some (-1) := by decide +kernel
/-- Division by zero gives all ones, and the one overflow wraps (R140). -/
theorem test_div_corners : result (exec (.div 1 1 4 6 8 0) (stAB 0 7)) 8 0 = some (-1)
    ∧ result (exec (.div 1 1 4 6 8 0) (stAB (-1) 0x8000000000000000)) 8 0 = some 0x8000000000000000
    ∧ result (exec (.div 1 1 4 6 8 0) (stAB 2 (-7))) 8 0 = some (-3) := by decide +kernel
/-- The remainder takes the sign of a, and by zero is a (R140). -/
theorem test_rem_sign : result (exec (.rem 1 1 4 6 8 0) (stAB 2 (-7))) 8 0 = some (-1)
    ∧ result (exec (.rem 1 1 4 6 8 0) (stAB 0 (-7))) 8 0 = some (-7) := by decide +kernel
/-- A shift by the full width shifts by nothing (R139). -/
theorem test_shl_width : result (exec (.shl 1 1 4 6 8 0) (stAB 64 5)) 8 0 = some 5
    ∧ result (exec (.sar 1 1 4 6 8 0) (stAB 1 (-3))) 8 0 = some (-2) := by decide +kernel
/-- A signed field of four bits from bit 4 (R142): 0xA0 holds 0xA there, which is −6. -/
theorem test_bfx_signed : result (exec (.bfx 1 1 4 6 8 0) (stAB 0x404 0xA0)) 8 0 = some (-6) := by decide +kernel
/-- 1 + 2 in single precision (R147). -/
theorem test_fadd_single : result (exec (.fadd 0 1 4 6 8 0) (stAB 0x3F800000 0x40000000)) 8 0 = some 0x40400000 := by decide +kernel
/-- Infinity less infinity is the canonical NaN (R147, R22). -/
theorem test_fsub_nan : result (exec (.fsub 0 1 4 6 8 0) (stAB 0x7F800000 0x7F800000)) 8 0 = some 0x7FC00000 := by decide +kernel
/-- The square root of 2 in single precision, rounded to nearest (R148). -/
theorem test_fsqrt_two : result (exec (.fsqrt 0 1 0 6 8 0) (stAB 0 0x40000000)) 8 0 = some 0x3FB504F3 := by decide +kernel
/-- A comparison writes a mask register (R144). -/
theorem test_icmp_mask : after (exec (.icmp 1 1 4 6 2 1 0) (stAB 3 (-1))) (fun s => s.readMask (.a gA) 1 == 0xFFFFFFFF) = true := by
  decide +kernel
/-- A shuffle by index takes another lane's value, and the reduction adds 32 lanes (R153, R155). -/
theorem test_gred_sum : result (exec (.gred 1 1 0 0 6 8 0) (stAB 0 3)) 8 5 = some 96 := by decide +kernel
/-- An immediate is extended with its sign (R65). -/
theorem test_movImm_sign : result (exec (.movImm 0xFFFF 8) stA) 8 0 = some (-1) := by decide +kernel
/-- An s register takes the lowest active lane's value (R56). -/
theorem test_uniform_lowest : after (exec (.add 1 1 4 6 50 0) (stAB 1 2)) (fun s => s.readReg (.a gA) .b64 50 17 == ⟨3, false⟩) = true := by
  decide +kernel
/-- The lane number (R159). -/
theorem test_rdsr_lane : result (exec (.rdsr 0 8) stA) 8 31 = some 31 := by decide +kernel
/-- A branch is relative to itself in halfwords (R70), and `bra.d` tells the c-slice that it was taken. -/
theorem test_bra_target : after (exec (.bra 0x3FFFE 1) stA) (fun s => (s.gang gA).apc == 0xFFFC && (s.gang gA).dq == [⟨0, 1⟩]) = true := by
  decide +kernel
/-- A queue source that is empty stalls the c-slice with nothing changed (R61, R100). -/
theorem test_queue_stalls : after (exec (.add 0 1 4 0 8 1) stC) (fun s => s == stC) = true := by decide +kernel
/-- The pieces of a sink: the mask's record reaches the decision queue (R61, R138). -/
theorem test_icmp_record : after (exec (.icmp 1 9 4 6 2 1 0) (stAB 3 (-1))) (fun s => (s.gang gA).dq == [⟨3, 0xFFFFFFFF⟩]) = true := by
  decide +kernel
/-- `trap` raises cause 6 with its number (R179). -/
theorem test_trap_raises : after (exec (.trap 5) stA) (fun s => (s.gang gA).trapA == some ⟨6, 0, 5, 0xFFFFFFFF, true, 4⟩) = true := by
  decide +kernel
/-- The mode of a privileged instruction is checked before anything else (R78). -/
theorem test_rtcore_user : after (exec (.rtcore 6) stA) (fun s => (s.gang gA).trapA == some ⟨1, 4, 0, 0xFFFFFFFF, false, 4⟩) = true := by
  decide +kernel
/-- The controller adds in its own registers. -/
theorem test_controller_add : after (exec (.addImm 7 3) stM) (fun s => (s.clu cM).ctl.readM 3 == ⟨7, false⟩ && (s.clu cM).ctl.pc == 0x10004) = true := by
  decide +kernel
/-- The CRC-32 of IEEE 802.3 of the nine digits is its published check value (R419). -/
theorem test_crc : crc32 [0x31, 0x32, 0x33, 0x34, 0x35, 0x36, 0x37, 0x38, 0x39] = 0xCBF43926 := by decide +kernel
/-- The bytes of a word lie lowest first (R3). -/
theorem test_little_endian : (State.reset.writeHome 0x100 (bytesOfNum 0x1234 2) false).readByte 0x100 = 0x34
    ∧ (State.reset.writeHome 0x100 (bytesOfNum 0x1234 2) false).readNum 0x100 2 = 0x1234 := by decide +kernel
/-- Writing a zero removes the entry, so that equal memories are equal data (log entry 1). -/
theorem test_memory_canonical : ((State.reset.writeHome 0x100 [5] false).writeHome 0x100 [0] false).mem = [] := by decide +kernel
/-- A step fetches and runs the placed instruction. -/
theorem test_step_runs : after (step (State.reset.withFetchWord 32 0x00150861)) (fun s => s.issue.isEmpty) = true := by decide +kernel
/-- Reset: nothing is selected, and nothing is listed in memory. -/
theorem test_reset : State.reset.mem = [] ∧ State.reset.issue = [] ∧ (State.reset.pkg 0).fclk = 850 ∧ (State.reset.pkg 0).powcap = 10000 := by
  decide +kernel

/-! ## Witnesses: steps, decoding and issue -/

/-- The nop's word placed where the next step fetches. -/
def placed : State := State.reset.withFetchWord 32 (encode .nop).toNat
/-- The unit selected first, current and taken off the selection. -/
def selected (s : State) : State := { s with issue := s.issue.drop 1, cur := s.issue.headD (.a gA) }
/-- Whether the selected unit's bytes decode to an instruction. -/
def fetches (s : State) (i : Instr) : Bool :=
  match (selected s).fetch (selected s).cur with
  | some (t, w) => match decode (selected s).cur.kind (t.mode (selected s).cur) w with
    | .ok j => i == j
    | .error _ => false
  | none => false
/-- The detail that the selected unit's bytes are refused with. -/
def fetchesBad (s : State) : Option Nat :=
  match (selected s).fetch (selected s).cur with
  | some (t, w) => match decode (selected s).cur.kind (t.mode (selected s).cur) w with
    | .ok _ => none
    | .error n => some n
  | none => none

/-- StepKeepsInvariant: a state in canonical form whose step answers a next state. -/
theorem witness_StepKeepsInvariant : Memory.wf placed.mem = true ∧ placed.mem ≠ [] ∧ after (step placed) (fun _ => true) = true := by
  decide +kernel
/-- StepRunsDecoded: in each unit. -/
theorem witness_StepRunsDecoded : placed.agenda = [] ∧ placed.issue = [.a gA] ∧ (selected placed).runnable (.a gA) = true
    ∧ fetches placed .nop = true ∧ (selected placed).fetchWaits (.a gA) = false ∧ (selected placed).fetchMarked (.a gA) = false := by decide +kernel
/-- StepFaultsOnlyAtFetch: both outcomes come about. -/
theorem witness_StepFaultsOnlyAtFetch : after (step placed) (fun _ => true) = true
    ∧ (match step (placed.modGang gA fun x => { x with apc := 0x90000 }) with | .fault .fetchUnmapped => true | _ => false) = true := by
  decide +kernel
/-- StepTrapsUndecoded: blank memory, and a reserved row, whose details differ. -/
theorem witness_StepTrapsUndecoded : stA.agenda = [] ∧ stA.issue = [.a gA] ∧ (selected stA).runnable (.a gA) = true ∧ fetchesBad stA = some 2
    ∧ (selected stA).fetchWaits (.a gA) = false ∧ (selected stA).fetchMarked (.a gA) = false
    ∧ fetchesBad { stA with mem := memPuts (hbmKey 0 0x10000) (bytesOfNum 0xF3 4) [] } = some 1
    ∧ stC.issue = [.c gA] ∧ (selected stC).runnable (.c gA) = true ∧ fetchesBad stC = some 2 ∧ (selected stC).fetchWaits (.c gA) = false
    ∧ (selected stC).fetchMarked (.c gA) = false
    ∧ stM.issue = [.m cM] ∧ (selected stM).runnable (.m cM) = true ∧ fetchesBad stM = some 2 ∧ (selected stM).fetchWaits (.m cM) = false
    ∧ (selected stM).fetchMarked (.m cM) = false := by decide +kernel
/-- DecodeOfEncode: an instruction of a stream that is well formed, with operands at the ends of their ranges. -/
theorem witness_DecodeOfEncode : Instr.isEvent (.add 1 7 63 0 63 0) = false ∧ wellFormed .A .user (.add 1 7 63 0 63 0) = true
    ∧ wellFormed .M .user (.brc 0x3FFFF 0 7 3) = true ∧ wellFormed .C .user (.fma 3 9 63 63 63 0) = true := by decide +kernel
/-- DecodedIsWellFormed: a word that decodes. -/
theorem witness_DecodedIsWellFormed : decodeTableWord 32 0x08400801 = some (.add 0 2 4 0 8 0) ∨ fetches placed .nop = true := by decide +kernel
/-- BlankMemoryIsIllegal: a word whose low halfword is zero though the high one is not. -/
theorem witness_BlankMemoryIsIllegal : (0xABCD0000 : Word).truncate 16 = (0 : Half) := by decide +kernel
/-- NotRunnableWaits: a unit that is pre-empted, one that waits, and one whose slot is free. -/
theorem witness_NotRunnableWaits : (withG stA fun x => { x with preempted := true }).runnable (.a gA) = false
    ∧ (withG stA fun x => { x with wait := some (.tmwait 5) }).runnable (.a gA) = false ∧ State.reset.runnable (.a gA) = false := by decide +kernel
/-- DecodeFaultPrecise: an ill-formed instruction at a unit that can issue. -/
theorem witness_DecodeFaultPrecise : Instr.isEvent (.rld 3 7 8) = false ∧ stA.cur = .a gA ∧ stA.runnable (.a gA) = true
    ∧ stA.decodeFault (.rld 3 7 8) = some 6 ∧ stC.runnable stC.cur = true ∧ stC.decodeFault (.ld 14 0 1 5 6 8) = some 3
    ∧ (withG stC fun x => { x with mode := .supervisor }).runnable (.c gA) = true
    ∧ (withG stC fun x => { x with mode := .supervisor }).decodeFault (.ld 14 0 1 5 6 8) = some 3
    ∧ stM.runnable stM.cur = true ∧ stM.decodeFault (.add 1 1 32 6 8 0) = some 7 := by decide +kernel
/-- A gang in a handler. -/
def stH : State := withG stA fun x => { x with mode := .supervisor, entry := .trap }
/-- HandlerRestrictions: a queue source, a sink that names a queue, and the listed instructions. -/
theorem witness_HandlerRestrictions : stH.cur = .a gA ∧ stH.runnable (.a gA) = true ∧ (stH.gang gA).mode ≠ .user
    ∧ ([.add 1 1 4 0 8 1, .add 1 3 4 6 8 0, .rejoin, .exit, .region, .gsync, .mwait, .brv 4 1, .gsyncMask 6, .qpeek 2 8, .qcount 0 8, .qdrain 1,
        .bra 4 1, .call 4 1, .brc 4 1 1 1, .jmpi 4 6 1, .ld 15 1 0 4 6 0, .ldFe 0 1 1 4 6 0, .ldFec 0 1 1 4 6 0, .st 0 1 0 4 6 1,
        .stFe 0 1 1 4 6 1] : List Instr).all (fun i => !i.isEvent && (stH.decodeFault i).isNone) = true := by
  decide +kernel
/-- StallChangesNothing: a queue source with no entry. -/
theorem witness_StallChangesNothing : stC.decodeFault (.add 0 1 4 0 8 1) = none ∧ supervisorIllegal stC.cur (stC.mode stC.cur) (.add 0 1 4 0 8 1) = false
    ∧ (stallOf stC stC.cur (.add 0 1 4 0 8 1)).isSome = true := by decide +kernel
/-- QueueSourceStalls: an empty value queue, an empty decision queue, and a sink without room. -/
theorem witness_QueueSourceStalls :
    ((Instr.add 0 1 4 0 8 1).laneForm .C).all (fun f => f.q == 1 && !f.masky && (stC.gang gA).readQueue .C f.a.toNat == [] && f.pops == 1) = true
    ∧ ((Instr.kmov 1 4 2 1).laneForm .C).all (fun f => f.q == 1 && f.masky && (stC.gang gA).dq == []) = true
    ∧ ((Instr.add 0 3 4 6 8 0).laneForm .A).all (fun f => f.sk.getLsbD 1
      && decide (((withG stA fun x => { x with lq := [(0, List.replicate 64 ⟨[], 0⟩)] }).gang gA).room .A 1 < f.pushes)) = true
    ∧ stC.decodeFault (.add 0 1 4 0 8 1) = none ∧ stC.decodeFault (.kmov 1 4 2 1) = none ∧ stA.decodeFault (.add 0 3 4 6 8 0) = none := by
  decide +kernel
/-- The c-slice with a record at the head of `dq`. -/
def stDq (k : Nat) (v : DWord) : State := withG stC fun x => { x with dq := [⟨k, v⟩] }
/-- KopMisuse: a branch record where a mask record is needed. -/
theorem witness_KopMisuse : (stDq 0 1).cur = .c gA ∧ (stDq 0 1).runnable (.c gA) = true ∧ (stDq 0 1).decodeFault (.kmov 1 4 2 1) = none
    ∧ stallOf (stDq 0 1) (.c gA) (.kmov 1 4 2 1) = none ∧ ((Instr.kmov 1 4 2 1).laneForm .C).all (fun f => f.q == 1 && f.masky) = true
    ∧ ((stDq 0 1).gang gA).dq = [⟨0, 1⟩] ∧ ((stDq 0 1).gang gA).mode = .user
    ∧ (withG (stDq 0 1) fun x => { x with mode := .supervisor }).runnable (.c gA) = true
    ∧ stallOf (withG (stDq 0 1) fun x => { x with mode := .supervisor }) (.c gA) (.kmov 1 4 2 1) = none := by decide +kernel
/-- A marked source of the a-slice. -/
def stPoison : State := withG stA fun x => { x with a := [(6, List.replicate 32 ⟨1, true⟩), (4, row 1)] }
/-- PoisonTraps: lane 31 holds a marked source. -/
theorem witness_PoisonTraps : stPoison.runnable (.a gA) = true ∧ stPoison.decodeFault (.add 1 1 6 4 8 0) = none
    ∧ supervisorIllegal (.a gA) (stPoison.gang gA).mode (.add 1 1 6 4 8 0) = false ∧ stallOf stPoison (.a gA) (.add 1 1 6 4 8 0) = none
    ∧ kopMisuse stPoison (.a gA) (.add 1 1 6 4 8 0) = none ∧ (stPoison.gang gA).region = none
    ∧ ((Instr.add 1 1 6 4 8 0).laneForm .A).all (fun f => (stPoison.active (.a gA)).getLsbD 31 && (f.readB stPoison (.a gA) 31).poison) = true := by
  decide +kernel
/-- PoisonTraps: a marked field a, read in its own lane and by a shuffle, and a marked third source. -/
theorem witness_PoisonTraps_others : stallOf stPoison (.a gA) (.add 1 1 4 6 8 0) = none ∧ stPoison.decodeFault (.shflIdx 1 4 6 8 0) = none
    ∧ ((Instr.add 1 1 4 6 8 0).laneForm .A).all (fun f =>
        (f.readA stPoison (.a gA) (sourceLane (.add 1 1 4 6 8 0) (fun m => (f.readB stPoison (.a gA) m).bits) 31)).poison) = true
    ∧ ((Instr.shflIdx 1 4 6 8 0).laneForm .A).all (fun f => !(f.readB stPoison (.a gA) 0).poison
        && (f.readA stPoison (.a gA) (sourceLane (.shflIdx 1 4 6 8 0) (fun m => (f.readB stPoison (.a gA) m).bits) 0)).poison) = true
    ∧ stPoison.decodeFault (.mad 1 1 4 4 6 0) = none ∧ stallOf stPoison (.a gA) (.mad 1 1 4 4 6 0) = none
    ∧ ((Instr.mad 1 1 4 4 6 0).laneForm .A).all (fun f => (f.readD stPoison (.a gA) 31).poison) = true := by decide +kernel
/-- The state with one mismatch counted and no difference to come. -/
def counted (s : State) : State := { s.modCore (UnitCore s.cur) fun x => { x with mism := x.mism + 1 } with glitch := 0 }
/-- SecondMismatchTraps: an instruction that would issue in each unit, in the c-slice in checked mode, beside a handler, and in neither. -/
theorem witness_SecondMismatchTraps : issues .nop { { stA with glitch := 2 } with glitch := 0 } = true ∧ ({ stA with glitch := 2 } : State).glitch = 2
    ∧ ({ stA with glitch := 2 } : State).compared (.a gA) = true ∧ issues .nop (counted { stA with glitch := 1 }) = true
    ∧ issues .nop (withG stC fun x => { x with checked := true }) = true ∧ (withG stC fun x => { x with checked := true }).compared (.c gA) = true
    ∧ issues .nop (withG stC fun x => { x with checked := true, mode := .supervisor }) = true
    ∧ issues .nop (counted (withG stC fun x => { x with checked := true })) = true
    ∧ issues .nop stC = true ∧ stC.compared stC.cur = false ∧ issues .nop stM = true ∧ stM.compared stM.cur = true
    ∧ issues .nop (counted stM) = true := by decide +kernel
/-- NopAdvances: in each unit. -/
theorem witness_NopAdvances : issues .nop stA = true ∧ issues .nop stC = true ∧ issues .nop stM = true := by decide +kernel

/-! ## Witnesses: lane operations -/

/-- The a-slice with its operand registers set. -/
def stR : State := stAB 3 (-7)
/-- Whether every instruction of a list issues in a state, and a rule gives each a result. -/
def allIssue (s : State) (is : List Instr) (f : Instr → Bool) : Bool := is.all fun i => issues i s && f i

/-- IntegerLaneResults: in each unit that has the instruction. -/
theorem witness_IntegerLaneResults :
    allIssue stR [.add 0 1 4 6 8 0, .sub 1 1 4 6 8 0, .mul 0 1 4 6 8 0, .mulh 3 1 4 6 8 0, .mad 1 1 4 6 8 0, .and 0 1 4 6 8 0, .or 1 1 4 6 8 0, .xor 0 1 4 6 8 0,
      .shl 1 1 4 6 8 0, .shr 0 1 4 6 8 0, .sar 1 1 4 6 8 0, .rol 0 1 4 6 8 0, .ror 1 1 4 6 8 0, .min 1 1 4 6 8 0, .max 2 1 4 6 63 0]
      (fun i => (integerRule i).isSome && (i.laneForm .A).isSome) = true
    ∧ allIssue stC [.add 0 1 5 7 9 0, .mulh 3 1 4 6 8 0] (fun i => (integerRule i).isSome && (i.laneForm .C).isSome) = true
    ∧ allIssue stM [.add 1 1 4 6 8 0] (fun i => (integerRule i).isSome && (i.laneForm .M).isSome) = true := by decide +kernel
/-- DivisionLaneResults. -/
theorem witness_DivisionLaneResults : allIssue stR [.div 0 1 4 6 8 0, .rem 3 1 4 6 8 0]
    (fun i => (divisionRule i).isSome && (i.laneForm .A).isSome) = true := by decide +kernel
/-- BitLaneResults. -/
theorem witness_BitLaneResults : allIssue stR [.abs 1 1 6 8 0, .neg 1 1 6 8 0, .not 0 1 6 8 0, .clz 0 1 6 8 0, .popc 1 1 6 8 0, .brev 0 1 6 8 0,
    .bfx 1 1 4 6 8 0, .bfi 1 1 4 6 8 0, .lea 3 1 4 6 8 0] (fun i => (bitRule i).isSome && (i.laneForm .A).isSome) = true := by decide +kernel
/-- ShortFormResults: the integer forms. -/
theorem witness_ShortFormResults : allIssue stR [.mov16 6 4, .add16 6 4, .sub16 6 4, .mul16 6 4, .and16 6 4, .or16 6 4, .xor16 6 4, .shl16 6 4, .shr16 6 4,
    .sar16 6 4, .min16 6 4, .max16 6 4, .movImm 5 6, .addImm 5 6, .mulImm 5 6, .andImm 5 6, .orImm 5 6, .xorImm 5 6, .shlImm 63 6, .shrImm 5 6,
    .sarImm 5 6, .minImm 5 6, .maxImm 5 6, .movh 5 3 6] (fun i => (shortRule .A i).isSome) = true
    ∧ allIssue stM [.addImm 5 6, .movh 5 3 6] (fun i => (shortRule .M i).isSome) = true := by decide +kernel
/-- FloatLaneResults. -/
theorem witness_FloatLaneResults : allIssue stR [.fadd 0 1 4 6 8 0, .fsub 1 1 4 6 8 0, .fmul 0 1 4 6 8 0, .fma 0 1 4 6 8 0, .fdiv 1 1 4 6 8 0, .fmin 0 1 4 6 8 0,
    .fmax 0 1 4 6 8 0, .fminn 0 1 4 6 8 0, .fmaxn 0 1 4 6 8 0, .fsqrt 0 1 4 6 8 0, .frcp 0 1 6 8 0, .frsq 0 1 6 8 0, .fexp2 0 1 6 8 0,
    .flog2 0 1 6 8 0, .fabs 1 1 6 8 0, .fneg 0 1 6 8 0, .faddD 0 1 4 6 8 0, .fsubD 1 1 4 6 8 0, .fmulD 0 1 4 6 8 0, .fmaD 0 1 4 6 8 0,
    .cvtRne 0 1 1 1 6 8 0, .cvtRna 0 1 1 1 6 8 0, .cvtRz 0 1 1 1 6 8 0, .cvtRup 0 1 1 1 6 8 0, .cvtRdn 0 1 1 1 6 8 0]
    (fun i => (floatRule .A i).isSome && (i.laneForm .A).isSome) = true := by decide +kernel
/-- ShortFormResults: the floating forms. -/
theorem witness_ShortFormResults_floating : allIssue stR [.fadd16 6 4, .fsub16 6 4, .fmul16 6 4, .fmax16 6 4, .fmovImm 5 6, .faddImm 5 6, .fmulImm 5 6, .fmaxImm 5 6]
    (fun i => (shortFloatRule .A i).isSome) = true := by decide +kernel
/-- MaskResults. -/
theorem witness_MaskResults : allIssue stR [.icmp 1 1 4 6 5 1 0, .fcmp 0 1 4 6 2 1 0, .kand 1 1 2 3 0, .kandn 1 1 2 3 0, .kor 1 1 2 3 0, .kxor 1 1 2 3 0,
    .knot 1 2 3 0, .kmov 1 2 3 0, .voteAll 1 2 3 0, .voteAny 1 2 3 0, .kset 1 6 3 0]
    (fun i => (maskRule i).isSome && (i.laneForm .A).isSome) = true := by decide +kernel
/-- CrossLaneResults: in the a-slice, and the block instructions in the c-slice. -/
theorem witness_CrossLaneResults : allIssue stR [.sel 1 1 4 6 8 0, .ballot 1 2 8 0, .shflIdx 1 4 6 8 0, .shflUp 1 4 6 8 0, .shflDn 1 4 6 8 0, .shflXor 1 4 6 8 0,
    .rotUp 1 4 6 8 0, .rotDn 1 4 6 8 0, .bcast 1 31 6 8 0, .gred 1 1 0 5 6 8 0, .scanInc 1 1 0 5 6 8 0, .scanExc 1 1 0 0 6 8 0]
    (fun i => (crossRule i).isSome && (i.laneForm .A).isSome) = true
    ∧ allIssue stC [.tspk 2 1 0 2 6 8 0, .tsupk 2 1 4 6 8 0, .tssc 1 4 6 8 0] (fun i => (crossRule i).isSome && (i.laneForm .C).isSome) = true := by
  decide +kernel
/-- LaneOperationFrame: each of the three forms. -/
theorem witness_LaneOperationFrame : issues (.fma 0 1 4 6 8 0) stR = true ∧ ((Instr.fma 0 1 4 6 8 0).laneForm stR.cur.kind).isSome = true
    ∧ (shortRule stR.cur.kind (.movImm 5 6)).isSome = true ∧ (shortFloatRule stR.cur.kind (.fadd16 6 4)).isSome = true
    ∧ allIssue stC [.mulh 3 1 4 6 8 0] (fun i => (i.laneForm .C).any fun f => f.res.wide && f.d == 8) = true
    ∧ allIssue stC [.add 0 1 5 7 9 0] (fun i => (i.laneForm .C).any fun f => !f.res.wide && f.d == 9) = true
    ∧ allIssue stR [.mulh 3 1 4 6 8 0] (fun i => (i.laneForm .A).any fun f => f.res.wide) = true ∧ stR.cur.kind ≠ .C := by decide +kernel
/-- RegisterWrite: the last lane, the last vector register, and a controller in user mode and in supervisor mode. -/
theorem witness_RegisterWrite : (31 : Nat) < 32 ∧ (47 : Nat) < 48 ∧ Ty.wide .b64 = true ∧ Ty.wide .b32 = false ∧ (stM.clu cM).ctl.mode = .user
    ∧ ((stM.modCtl cM fun x => { x with mode := .supervisor }).clu cM).ctl.mode ≠ .user ∧ (24 : Nat) < 25 ∧ (27 : Nat) < 28 := by decide +kernel
/-- UniformRegisterWrite: the lowest lane of a mask, and no lane. -/
theorem witness_UniformRegisterWrite : (48 : Nat) ≤ 48 ∧ (0x80000000 : Word).getLsbD 31 = true
    ∧ (∀ m, m < 31 → (0x80000000 : Word).getLsbD m = false) := by decide +kernel
/-- SinkDelivery: a sink with the first queue only, and one with none. -/
theorem witness_SinkDelivery : ((Instr.add 1 2 4 6 0 0).laneForm .A).all (fun f => !f.sk.getLsbD 0 && f.sk.getLsbD 1 && !f.sk.getLsbD 2 && f.res.wide) = true
    ∧ wellFormed .A .user (.add 1 2 4 6 0 0) = true
    ∧ ((Instr.add 0 14 4 6 0 0).laneForm .C).all (fun f => !f.sk.getLsbD 0 && f.sk.getLsbD 1 && f.sk.getLsbD 2 && f.sk.getLsbD 3 && !f.res.wide) = true
    ∧ wellFormed .C .user (.add 0 14 4 6 0 0) = true := by decide +kernel
/-- MaskMerge: a mask with no lane outside the active ones, and room in the decision queue. -/
theorem witness_MaskMerge : (∀ m, m < 32 → (0xF0 : Word).getLsbD m = false → (0x30 : Word).getLsbD m = false)
    ∧ (stA.gang gA).dqNext = [] ∧ (stA.gang gA).dq.length < (stA.gang gA).slip
    ∧ ((Instr.icmp 1 9 4 6 2 1 0).laneForm .A).all (fun f => f.sk.getLsbD 0 && f.sk.getLsbD 3) = true
    ∧ ((Instr.icmp 0 9 4 6 2 1 0).laneForm .C).all (fun f => f.sk.getLsbD 0 && f.sk.getLsbD 3) = true
    ∧ ((Instr.icmp 0 8 4 6 2 0 0).laneForm .C).all (fun f => !f.sk.getLsbD 0 && f.sk.getLsbD 3) = true := by decide +kernel
/-- FloatNaN: a NaN in each operand. -/
theorem witness_FloatNaN : (Fmt.ofTy .f32).isNaN (lowBits .f32 0x7F800001) = true ∧ (Fmt.ofTy .bf16).isNaN (lowBits .bf16 0xFFFF) = true
    ∧ Ty.f32 ∈ [Ty.f32, .f64, .f16, .bf16] ∧ (Fmt.ofTy .f32).value (lowBits .f32 0x7F800001) = .nan
    ∧ ((Fmt.ofTy .f32).value (lowBits .f32 0xBF800000)).finite = true ∧ ((Fmt.ofTy .f32).value (lowBits .f32 0x80000000)).finite = true
    ∧ (Fmt.ofTy .f32).value (lowBits .f32 0x3F800000) = .fin false (2 ^ 23) (-23) := by decide +kernel
/-- FloatNaN: an infinity of each sign, beside a finite number, a zero and another infinity. -/
theorem witness_FloatNaN_infinities : (Fmt.ofTy .f32).value (lowBits .f32 0x7F800000) = .inf ((Fmt.ofTy .f32).neg (lowBits .f32 0x7F800000))
    ∧ (Fmt.ofTy .f32).value (lowBits .f32 0xFF800000) = .inf true ∧ (Fmt.ofTy .f32).neg (lowBits .f32 0xFF800000) = true
    ∧ (Fmt.ofTy .f32).value (lowBits .f32 0) = .fin false 0 (-149) ∧ (FV.fin false 0 (-149)).finite = true := by decide +kernel
/-- ApproximationBounds: a NaN, both infinities, a zero, a negative number, and 2, which is a power of two and an integer. -/
theorem witness_ApproximationBounds : floatOf .f32 0x7FC00000 = .nan ∧ floatOf .f32 0x7F800000 = .inf false ∧ floatOf .f32 0xFF800000 = .inf true
    ∧ floatOf .f32 0x80000000 = .fin true 0 (-149) ∧ floatOf .f32 0xC0000000 = .fin true (2 ^ 23) (-22) ∧ floatOf .f32 0x40000000 = .fin false (2 ^ 23) (-22)
    ∧ floatOf .f16 0x4000 = .fin false (2 ^ 10) (-9) ∧ Ty.f16 ∈ [Ty.f32, .f64, .f16, .bf16] := by decide +kernel
/-- ApproximationBounds: their values. -/
theorem witness_ApproximationBounds_values : (FV.fin true 0 (-149)).toRat = 0 ∧ (FV.fin true (2 ^ 23) (-22)).toRat < 0 ∧ (FV.fin false (2 ^ 10) (-9)).toRat = 2
    ∧ (FV.fin false (2 ^ 23) (-22)).toRat = 2 ∧ (2 : ℚ) ^ (1 : ℤ) = 2 ∧ (1 : ℤ) - Fmt.f32.bias - Fmt.f32.fw ≤ 2 ∧ (2 : ℤ) ≤ Fmt.f32.bias := by
  norm_num [FV.toRat, Fmt.f32]
/-- ApproximationBounds: the reciprocal of 2 lies in the range of FP16. -/
theorem witness_ApproximationBounds_range : |(1 : ℝ) / 2| ≤ ((FV.fin false 2047 5).toRat : ℝ) := by
  norm_num [FV.toRat, abs_of_pos]
/-- FloatNaN: the value of 1.0, a divisor that is not zero, and an exact zero sum. -/
theorem witness_FloatNaN_values : (FV.fin false (2 ^ 23) (-23)).toRat = 1 ∧ (FV.fin false (2 ^ 23) (-23)).toRat ≠ 0
    ∧ (FV.fin true (2 ^ 23) (-23)).toRat + (FV.fin false (2 ^ 23) (-23)).toRat = 0 := by norm_num [FV.toRat]
/-- FloatRounding: the largest finite FP16 is 65504, with a magnitude within the range and one beyond it. -/
theorem witness_FloatRounding : Fmt.f16 ∈ [Fmt.f32, .f64, .f16, .bf16, .e5m2, .e4m3] ∧ Fmt.f16.value Fmt.f16.maxFinite = .fin false 2047 5
    ∧ (0 : Nat) < 1 ∧ Fmt.f16.isNaN 0x3C00 = false ∧ 0x3C00 < 2 ^ (Fmt.f16.sign + 1) := by decide +kernel
/-- FloatRounding: 1 lies within that range and 2 to the 16 beyond it, by more than half of a last place. -/
theorem witness_FloatRounding_range : (1 : ℚ) / 1 * 2 ^ (0 : ℤ) ≤ (FV.fin false 2047 5).toRat ∧ (FV.fin false 2047 5).toRat < (1 : ℚ) / 1 * 2 ^ (16 : ℤ)
    ∧ (2 : ℚ) ^ ((15 : ℤ) - 10 - 1) ≤ (1 : ℚ) / 1 * 2 ^ (16 : ℤ) - (FV.fin false 2047 5).toRat := by norm_num [FV.toRat]

/-! ## Witnesses: control -/

/-- A fragment whose time slice has run out, with another ready. -/
def stYield : State := withG stA fun x =>
  { x with
    ran := 4096
    frags := [(0, { state := .running, mask := 0xFFFF }), (1, { state := .ready, mask := 0xFFFF0000, aexm := 0xFFFF0000, age := 0 })] }
/-- UniformBranches: each unit, both directions of `.d`, each condition, and a fragment that yields. -/
theorem witness_UniformBranches : allIssue stA [.bra 4 0, .bra 4 1, .brc 4 1 1 0, .call 4 1] (fun _ => true) = true
    ∧ ((stA.countIssue (.a gA)).gang gA).yields = false ∧ allIssue stC [.bra 4 0, .call 4 0] (fun _ => true) = true
    ∧ allIssue stM [.bra 4 0, .brc 4 0 31 2, .call 4 0] (fun _ => true) = true
    ∧ allIssue stYield [.bra 4 1, .brc 4 1 1 2] (fun _ => true) = true ∧ ((stYield.countIssue (.a gA)).gang gA).yields = true := by decide +kernel
/-- A return register set. -/
def stRet (v : DWord) : State := withG stA fun x => { x with s := [(63, ⟨v, false⟩)] }
/-- ReturnTargets: each of the three clauses at its boundary. -/
theorem witness_ReturnTargets : issues .ret (stRet 0) = true
    ∧ (((stRet (2 ^ 57)).readReg (.a gA) .b64 63 0).bits).extractLsb' 57 7 ≠ 0
    ∧ (((stRet 1).readReg (.a gA) .b64 63 0).bits).extractLsb' 57 7 = 0 ∧ (((stRet 1).readReg (.a gA) .b64 63 0).bits).getLsbD 0 = true
    ∧ (((stRet 0x1FFFFFFFFFFFFFE).readReg (.a gA) .b64 63 0).bits).extractLsb' 57 7 = 0
    ∧ (((stRet 0x1FFFFFFFFFFFFFE).readReg (.a gA) .b64 63 0).bits).getLsbD 0 = false := by decide +kernel
/-- A branch mask. -/
def stK (k : Word) : State := withG stA fun x => { x with ka := [(1, k)] }
/-- Every join entry taken. -/
def stNoJoin : State := withG (stK 1) fun x => { x with joins := (List.range 15).map fun n => (n, { pending := 1 }) }
/-- Every fragment entry taken. -/
def stNoFrag : State := withG (stK 1) fun x =>
  { x with frags := (List.range 32).map fun n => (n, { state := if n = 0 then .running else .ready, mask := 1 <<< n }), exmA := 1 }
/-- DivergentBranch: every lane one way, lanes both ways with room, and with no free join. -/
theorem witness_DivergentBranch : issues (.brv 4 1) (stK 0) = true ∧ ((stK 0).gang gA).cur = some 0
    ∧ (stK 0).active (.a gA) &&& (stK 0).readMask (.a gA) 1 = 0
    ∧ issues (.brv 4 1) (stK 1) = true ∧ (stK 1).active (.a gA) &&& (stK 1).readMask (.a gA) 1 ≠ 0
    ∧ (stK 1).active (.a gA) &&& ~~~(stK 1).readMask (.a gA) 1 ≠ 0 ∧ ((stK 1).gang gA).freeJoin.isSome = true
    ∧ ((stK 1).gang gA).freeFrag.any (· != 0) = true
    ∧ issues (.brv 4 1) stNoJoin = true ∧ (stNoJoin.gang gA).freeJoin = none := by decide +kernel
/-- Every fragment entry taken, with two lanes in the running one. -/
def stFull : State := withG (stK 1) fun x =>
  { x with frags := (0, { state := .running, mask := 3 }) :: (List.range 31).map fun n => (n + 1, { state := .ready, mask := 4 }) }
/-- DivergentBranch: no free fragment. -/
theorem witness_DivergentBranch_deferred : issues (.brv 4 1) stFull = true ∧ stFull.active (.a gA) &&& stFull.readMask (.a gA) 1 ≠ 0
    ∧ stFull.active (.a gA) &&& ~~~stFull.readMask (.a gA) 1 ≠ 0 ∧ (stFull.gang gA).freeJoin.isSome = true ∧ (stFull.gang gA).freeFrag = none := by
  decide +kernel
/-- A fragment with a join, and the join's record. -/
def stJoin (m : Word) (j : Join) : State := withG stA fun x => { x with frags := [(0, { state := .running, mask := m, join := 0 })], joins := [(0, j)] }
/-- RejoinMerges: each clause. -/
theorem witness_RejoinMerges : issues .rejoin stA = true ∧ ((stA.gang gA).frag 0).join = 15 ∧ ((stA.gang gA).frag 0).mask ≠ 0
    ∧ issues .rejoin (stJoin 1 { pending := 3, arrived := 2 }) = true
    ∧ (((stJoin 1 { pending := 3, arrived := 2 }).gang gA).join 0).arrived ||| 1 = (3 : Word)
    ∧ issues .rejoin (stJoin 1 { pending := 3, defer := true, dmask := 2 }) = true
    ∧ issues .rejoin (stJoin 1 { pending := 3 }) = true ∧ (((stJoin 1 { pending := 3 }).gang gA).join 0).arrived ||| 1 ≠ (3 : Word) := by decide +kernel
/-- An anvil queue entry. -/
def someEntry : AnvilEntry := { op := .azero, pc := 0, sup := false }
/-- FragmentEnds: the end of the only fragment, a controller with and without a queue, and both cases of `mwait`. -/
theorem witness_FragmentEnds : issues .exit stA = true ∧ (stA.gang gA).cur = some 0 ∧ issues .exit stM = true ∧ (stM.clu cM).ctl.queue = []
    ∧ issues .exit (stM.modCtl cM fun x => { x with queue := [someEntry] }) = true ∧ stM.leaveWaits (.m cM) = false
    ∧ (stM.modCtl cM fun x => { x with heldSignals := [⟨7, 1, false, none, false, 0⟩] }).leaveWaits (.m cM) = true
    ∧ issues .mwait stA = true ∧ ((stA.gang gA).frag 0).mask ≠ 0 ∧ tfind 0 (stA.gang gA).monitors = none
    ∧ issues .mwait (withG stA fun x => { x with monitors := [(0, ⟨[1], [1], false⟩)] }) = true
    ∧ issues .mwait (withG stA fun x => { x with monitors := [(0, ⟨[1], [1], true⟩)] }) = true := by decide +kernel
/-- CSliceRecords: an instruction and a record of its kind, and one of another kind. -/
theorem witness_CSliceRecords : issues (.brd 4) (stDq 0 1) = true ∧ issues (.brd 4) (stDq 1 0x1F0000000F) = true
    ∧ issues (.brd 4) (stDq 1 0x2000000003) = true ∧ issues (.brd 4) (stDq 6 0) = true ∧ issues (.brd 4) (stDq 4 0) = true
    ∧ issues (.jmpi 0 0 0) (stDq 2 0x10000) = true ∧ issues .rejoin (stDq 5 (0xF00000001)) = true ∧ issues .rejoin (stDq 5 0x1) = true
    ∧ issues .exit (stDq 6 0) = true := by decide +kernel
/-- CSliceRecords: a region's record with its a-slice waiting. -/
theorem witness_CSliceRecords_region : issues .region (withG (stDq 7 0) fun x => { x with regionWait := true }) = true
    ∧ (({ (withG (stDq 7 0) fun x => { x with regionWait := true }).gang gA with dq := [], regionWait := false } : Gang).regionBlock = none)
    ∧ issues .region (withG (stDq 7 0) fun x => { x with regionWait := true, sq := [(0, [⟨List.replicate 32 {}, 1⟩])] }) = true
    ∧ ({ (stDq 7 0).gang gA with dq := [], sq := [(0, [⟨List.replicate 32 {}, 1⟩])] } : Gang).regionBlock.isSome = true := by decide +kernel
/-- R129: an entry that the c-slice has pushed since the a-slice's region bars the region when its record is popped. -/
theorem test_region_checked_at_pop : after (exec .region (withG (stDq 7 0) fun x => { x with regionWait := true, sq := [(0, [⟨List.replicate 32 {}, 1⟩])] }))
    (fun s => (s.gang gA).trapA.any (fun x => x.cause == 12) && (s.gang gA).region.isNone) = true := by decide +kernel
/-- A value queue of the c-slice with one entry. -/
def stLq : State := withG stC fun x => { x with lq := [(0, [⟨List.replicate 32 ⟨7, false⟩, 0xFFFFFFFF⟩])], dq := [⟨3, 1⟩] }
/-- JumpsAndQueueInspection: each detail of a jump, and each queue. -/
theorem witness_JumpsAndQueueInspection : issues (.jmpi 0 6 0) (stAB 0 (2 ^ 57)) = true ∧ issues (.jmpi 0 6 0) (stAB 0 1) = true
    ∧ issues (.jmpi 4 6 1) (stAB 1 2) = true ∧ issues (.jmpi 4 6 1) (stAB 2 2) = true ∧ issues (.jmpi 0 6 0) stM = true
    ∧ issues (.qpeek 0 8) stLq = true ∧ issues (.qpeek 4 8) stLq = true ∧ issues (.qcount 4 8) stLq = true ∧ issues (.qcount 3 8) stC = true
    ∧ issues (.qdrain 0) stLq = true ∧ issues (.qdrain 2) stA = true := by decide +kernel


/-! ## Witnesses: status, traps and memory -/

/-- StatusAndRendezvous: special registers and the checked mode, with lanes active and with none. -/
theorem witness_StatusAndRendezvous : allIssue stR [.rdsr 0 8, .rdsr 6 63, .wrsr 6 6, .wrsr 6 7, .chkOff, .chkOn, .chkQ 8] (fun _ => true) = true
    ∧ lowestLane (stR.active stR.cur) = some 0
    ∧ issues (.wrsr 6 6) (withG stR fun x => { x with exmA := 0 }) = true ∧ (withG stR fun x => { x with exmA := 0 }).active stR.cur = 0
    ∧ issues (.wrsr 6 6) stC = true ∧ lowestLane (stC.active stC.cur) = some 0 ∧ issues (.rdsr 6 8) stC = true
    ∧ issues (.wrsr 6 7) (withG stR fun x => { x with exmA := 0 }) = true
    ∧ issues (.rdsr 9 8) stM = true ∧ (stM.clu cM).ctl.queue.length < 8 ∧ (stM.clu cM).ctl.state < 8 ∧ issues (.wrsr 6 9) (stM.modCtl cM fun x => { x with mode := .supervisor }) = true
    ∧ ((stM.modCtl cM fun x => { x with state := 3 }).clu cM).ctl.state = 3 ∧ (stM.clu cM).ctl.state ≠ 3
    ∧ issues (.wrsr 6 9) (stM.modCtl cM fun x => { x with state := 3, mode := .supervisor }) = true := by decide +kernel
/-- A gsync of the lanes in a6, which lane 0 alone may name otherwise. -/
def stGs (first rest : DWord) : State := withG stA fun x => { x with a := [(6, ⟨first, false⟩ :: List.replicate 31 ⟨rest, false⟩)] }
/-- StatusAndRendezvous: gsync with lanes that differ, with a lane outside, with lanes of another fragment, and complete. -/
theorem witness_StatusAndRendezvous_gsync :
    issues (.gsyncMask 6) (stGs 1 2) = true
    ∧ issues (.gsyncMask 6) (stGs 0xFFFFFFFE 0xFFFFFFFE) = true ∧ (0xFFFFFFFE : Word).getLsbD 0 = false
    ∧ issues .gsync (withG stA fun x => { x with frags := [(0, { state := .running, mask := 0xFFFF }), (1, { state := .ready, mask := 0xFFFF0000 })], exmA := 0xFFFF }) = true
    ∧ issues .gsync stA = true ∧ issues (.gsyncMask 6) (stGs 0xFFFFFFFF 0xFFFFFFFF) = true
    ∧ (BitVec.allOnes 32) &&& (stA.gang gA).live &&& ~~~(stA.gang gA).fragMask = 0
    ∧ issues .gsync stC = true
    ∧ issues .gsync (withG stC fun x => { x with gsA := some ⟨0xFFFFFFFF, 0xFFFFFFFF, 0xFFFF, 0xFFFF⟩ }) = true
    ∧ (0xFFFFFFFF : Word) &&& 0xFFFFFFFF &&& ~~~0xFFFF ≠ 0
    ∧ issues .gsync (withG stA fun x => { x with gsC := some ⟨0xFFFFFFFF, 0, 0, 0xFFFFFFFF⟩ }) = true ∧ (stA.gang gA).gsC = none ∧ (stC.gang gA).gsA = none
    ∧ (0xFFFFFFFF : Word) &&& (stA.gang gA).live &&& ~~~(stA.gang gA).fragMask = 0
    ∧ issues (.gsyncMask 6) (withG (stGs 0xFFFF 0xFFFF) fun x =>
        { x with frags := [(0, { state := .running, mask := 0xFFFF }), (1, { state := .ready, mask := 0xFFFF0000 })], exmA := 0xFFFF
                 gsC := some ⟨0xFFFFFFFF, 0, 0, 0xFFFFFFFF⟩ }) = true
    ∧ issues .gsync (withG stC fun x => { x with gsA := some ⟨0xFFFFFFFF, 0xFFFFFFFF, 0xFFFFFFFF, 0xFFFFFFFF⟩ }) = true := by decide +kernel
/-- StatusAndRendezvous: region with something that blocks it, and with nothing, in the a-slice and the controller. -/
theorem witness_StatusAndRendezvous_region : issues .region stA = true ∧ (stA.gang gA).regionBlock = none
    ∧ issues .region (withG stA fun x => { x with sq := [(0, [⟨List.replicate 32 {}, 1⟩])] }) = true
    ∧ ((withG stA fun x => { x with sq := [(0, [⟨List.replicate 32 {}, 1⟩])] }).gang gA).regionBlock.isSome = true
    ∧ issues .region stM = true ∧ (stM.clu cM).ctl.queue = []
    ∧ issues .region (stM.modCtl cM fun x => { x with queue := [{ op := .azero, pc := 0, sup := false }] }) = true := by decide +kernel
/-- TrapEntryAndReturn: with lanes active and with none. -/
theorem witness_TrapEntryAndReturn : allIssue stA [.trap 0xFFF, .brk 1, .svc 2] (fun _ => true) = true ∧ stA.active stA.cur ≠ 0
    ∧ issues (.trap 1) (withG stA fun x => { x with exmA := 0 }) = true ∧ (withG stA fun x => { x with exmA := 0 }).active stA.cur = 0 := by
  decide +kernel
/-- A gang whose a-slice has raised a cause, its c-slice having stopped. -/
def stRaised (cause : Nat) (vec : DWord) : State :=
  (withG stA fun x => { x with trapA := some ⟨cause, 1, 5, 0xF, false, 4⟩, stopA := true, stopC := true }).modCore gA.coreId
    fun x => { x with vectors := [(cause, vec)] }
/-- TrapEntryAndReturn: delivery to a handler, to no valid entry, to the runtime, within a handler, and of the c-slice. -/
theorem witness_TrapEntryAndReturn_delivery : (stRaised 9 0x10001).stoppedFor gA false = true ∧ (stRaised 9 0x10001).valuesOut gA = false
    ∧ ((stRaised 9 0x10001).gang gA).mode = .user ∧ (tget 9 0 ((stRaised 9 0x10001).core gA.coreId).vectors).getLsbD 0 = true
    ∧ (stRaised 10 0x10001).stoppedFor gA false = true ∧ (10 : Nat) ∈ [10, 11, 14, 15, 16]
    ∧ (withG (stRaised 9 0x10001) fun x => { x with mode := .supervisor, stopC := false }).stoppedFor gA false = false
    ∧ (withG stA fun x => { x with trapC := some ⟨9, 1, 5, 0xF, false, 4⟩, stopA := true, stopC := true }).stoppedFor gA true = true := by
  decide +kernel
/-- TrapEntryAndReturn: a return with an entry in progress, with none, and of the controller. -/
theorem witness_TrapEntryAndReturn_return : issues .rft stH = true ∧ (stH.gang gA).entry = .trap ∧ (stH.gang gA).record.kill = 0
    ∧ (stH.gang gA).replay = none ∧ (stH.gang gA).cur = some 0
    ∧ issues .rft (withG stH fun x => { x with entry := .none }) = true
    ∧ issues .rft (stM.modCtl cM fun x => { x with mode := .supervisor }) = true := by decide +kernel
/-- TrapEntryAndReturn: a raised trap of the controller with a handler. -/
def stCtlRaised : State :=
  (stM.modCtl cM fun x => { x with trap := some ⟨6, 0, 3, 1, true, 4⟩ }).modCore (cM.core 0) fun x => { x with vectors := [(6, 0x10001)] }
theorem witness_TrapEntryAndReturn_controller : (stCtlRaised.clu cM).ctl.trap = some ⟨6, 0, 3, 1, true, 4⟩ ∧ (stCtlRaised.clu cM).ctl.inUse = true
    ∧ (stCtlRaised.clu cM).ctl.preempted = false ∧ (stCtlRaised.clu cM).ctl.wait = none ∧ (stCtlRaised.clu cM).ctl.miss = none ∧ (stCtlRaised.clu cM).ctl.afault = none
    ∧ (stCtlRaised.clu cM).ctl.mode = .user ∧ (tget 6 0 (stCtlRaised.core (cM.core 0)).vectors).getLsbD 0 = true := by decide +kernel

/-- Whether a memory instruction issues in a state with a lane, nothing held, and every lane passing its checks. -/
def accessPasses (s : State) (i : Instr) : Bool :=
  match memAccess i with
  | none => false
  | some f =>
    let a := f (s.countIssue (.a gA)) gA
    issues i s && !a.lanes.isEmpty && (s.gang gA).hold.isEmpty
      && a.lanes.all (fun l => (s.addressDetail gA (s.gang gA).mode a.space a.size a.kind.fullEmpty l.ea).isNone)
      && (a.space != .g || a.lanes.all fun l => (s.tlbLookup gA.cluId a.ctx l.ea).any fun e => e.permits (s.gang gA).mode (needs a.kind a.dest))
      && (a.space != .g || decide (a.lanes.length = 1) || a.lanes.all fun l => (s.clu gA.cluId).tlb.any fun e => e.covers a.ctx l.ea)
/-- The a-slice with an address of its mapped page in a6 and data in a4. -/
def stMem : State := stAB 5 0x10100
/-- The same with allocations of core scratchpad, cluster memory and scratchpad, and an offset in a6. -/
def stLocal : State :=
  (((stAB 5 0x100).modCore gA.coreId fun x => { x with allocs := [⟨0, 0, 0, 0x400⟩] }).modClu gA.cluId fun x =>
    { x with allocs := [⟨0, 0, 0, 0x400⟩] }).modDie gA.dieId fun x => { x with allocs := [⟨0, 0, 0, 0x400⟩] }
/-- MemoryIssue: every instruction of the global space, with data from a register and from a queue. -/
theorem witness_MemoryIssue : ([.ld 0 0 0 5 6 8, .ld 15 1 0 4 6 0, .st 0 0 0 6 6 4, .st 0 1 0 4 6 1, .atomAdd 0 0 4 6 8, .atomMin 1 0 4 6 8, .atomMax 2 0 4 6 8,
    .atomAnd 3 0 4 6 8, .atomOr 1 0 4 6 8, .atomXor 1 0 4 6 8, .atomExch 1 0 4 6 8, .atomCas 1 0 4 6 4, .redAdd 1 0 4 6, .redMin 1 0 4 6, .redMax 1 0 4 6,
    .redAnd 1 0 4 6, .redOr 1 0 4 6, .redXor 1 0 4 6, .fatomAdd 0 0 4 6 8, .fatomMin 0 0 4 6 8, .fatomMax 0 0 4 6 8, .fredAdd 0 0 4 6, .fredMin 0 0 4 6,
    .fredMax 0 0 4 6] : List Instr).all (accessPasses stMem) = true := by decide +kernel
/-- MemoryIssue: the other spaces, and the full-empty instructions. -/
theorem witness_MemoryIssue_spaces : ([.ld 0 0 1 5 6 8, .ld 0 0 2 5 6 8, .ld 0 0 3 6 6 8, .ldFe 0 0 1 5 6 8, .ldFec 0 0 3 5 6 8, .stFe 0 0 1 5 6 4,
    .stFe 0 1 3 4 6 0, .atomAdd 1 1 4 6 8, .redAdd 1 3 4 6] : List Instr).all (accessPasses stLocal) = true := by decide +kernel
/-- MemoryIssue: no lane active, in a register and in a queue form. -/
theorem witness_MemoryIssue_none : issues (.ld 0 0 0 5 6 8) (withG stMem fun x => { x with exmA := 0 }) = true
    ∧ (loadAccess .load 0 0 0 5 6 8 (withG stMem fun x => { x with exmA := 0 }) gA).lanes = []
    ∧ (memAccess (.ld 15 1 0 4 6 0)).all (fun f => (f (withG stMem fun x => { x with exmA := 0 }) gA).lanes.isEmpty
        && (f (withG stMem fun x => { x with exmA := 0 }) gA).queued && !(loadAccess .load 0 0 0 5 6 8 stMem gA).queued) = true
    ∧ issues (.ld 15 1 0 4 6 0) (withG stMem fun x => { x with exmA := 0 }) = true := by decide +kernel
/-- MemoryFaults: an address of 2 to the 57, one misaligned, and a page that may not be written. -/
theorem witness_MemoryFaults : issues (.ld 0 0 0 5 6 8) (stAB 0 (2 ^ 57)) = true ∧ stA.addressDetail gA .user .g 8 false (2 ^ 57) = some 6
    ∧ issues (.ld 0 0 0 5 6 8) (stAB 0 0x10101) = true ∧ stA.addressDetail gA .user .g 8 false 0x10101 = some 3
    ∧ (loadAccess .load 0 0 0 5 6 8 (stAB 0 (2 ^ 57)) gA).lanes.length = 32
    ∧ issues (.st 0 0 0 5 6 4) (stMem.modClu cM fun x => { x with tlb := [⟨1, 0x10000, 13, 0x10000, true, false, true⟩] }) = true
    ∧ (stMem.modClu cM fun x => { x with tlb := [⟨1, 0x10000, 13, 0x10000, true, false, true⟩] }).forbids gA .user 1 (false, true) 0x10100 = true := by
  decide +kernel
/-- MemoryFaults: core scratchpad at the ends of the allocation and of the supervisor window. -/
theorem witness_MemoryFaults_scratchpad : inAlloc (stLocal.allocOf gA .c) 0x3F8 8 = true ∧ inAlloc (stLocal.allocOf gA .c) 0x3FC 8 = false
    ∧ inAlloc (stLocal.allocOf gA .c) 0x40000 8 = false ∧ inAlloc (stLocal.allocOf gA .c) 0x44FF8 8 = false := by decide +kernel
/-- StoredBytes: a key of each memory, and a value longer than its bytes. -/
theorem witness_StoredBytes : Memory.wf stMem.mem = true ∧ isHbm (hbmKey 1 (hbmSize - 1)) = true ∧ keyRegion (dieKey ⟨1, 11⟩ 0x1FFFFFF) = 1
    ∧ keyRegion (cluKey ⟨1, 11, 33⟩ 0x3FFFFF) = 2 ∧ keyRegion (coreKey ⟨1, 11, 33, 7⟩ 0x3FFFF) = 3 := by decide +kernel

/-! ## Witnesses: synchronisation -/

/-- Whether a word is reached, and what its key satisfies there. -/
def reaches (r : WordReach) (p : State → Nat → Bool) : Bool :=
  match r with
  | .go t k => p t k
  | _ => false
/-- Whether an access goes on at once. -/
def passes (r : Reach) : Bool :=
  match r with
  | .go _ _ => true
  | _ => false
/-- A controller with a word's address in m6. -/
def stMh (v : DWord) : State := stM.modCtl cM fun x => { x with m := [(6, ⟨v, false⟩), (4, ⟨5, false⟩)] }
/-- A state whose mapped page holds an 8-byte word at 0x10100. -/
def withWord (s : State) (v : Nat) : State := { s with mem := memPuts (hbmKey 0 0x10100) (bytesOfNum v 8) [] }
/-- Synchronisation: a word reached by a gang and by a controller. -/
theorem witness_Synchronisation_reach : (stMem.gang gA).hold = [] ∧ stMem.flight = []
    ∧ (stMem.tlbLookup gA.cluId 1 0x10100).any (fun e => e.permits .user (needs .atomic (.reg 0))) = true
    ∧ ((stMh 0x10100).tlbLookup cM 1 0x10100).any (fun e => e.permits .user (needs .store .none)) = true := by decide +kernel
/-- Synchronisation: a free lock, a held one, and a release, of a gang and of a controller. -/
theorem witness_Synchronisation_locks : issues (.acq 6) stMem = true ∧ lockBad 0x10100 = false ∧ Memory.wf (withWord stMem 1).mem = true
    ∧ reaches (stMem.reachWord (.a gA) 0 0x10100 8 .atomic (.reg 0)) (fun t k => isHbm k && !t.placeWaits k 8 && !t.markedAt k 8 && t.readNum k 8 == 0) = true
    ∧ issues (.acq 6) (withWord stMem 1) = true
    ∧ reaches ((withWord stMem 1).reachWord (.a gA) 0 0x10100 8 .atomic (.reg 0)) (fun t k => t.readNum k 8 == 1) = true
    ∧ issues (.acq 6) (stMh 0x10100) = true
    ∧ reaches ((stMh 0x10100).reachWord (.m cM) 0 0x10100 8 .atomic (.reg 0)) (fun t k => isHbm k && t.readNum k 8 == 0) = true
    ∧ issues (.rel 6) (withWord stMem 1) = true ∧ stMem.boundBusy gA 0x10100 = false
    ∧ reaches ((withWord stMem 1).reachWord (.a gA) 0 0x10100 8 .store .none) (fun t k => isHbm k && !t.placeWaits k 8) = true := by decide +kernel
/-- The a-slice with a region of one line in a6 and a4 and an object in a8. -/
def stBind : State := withG stA fun x => { x with a := [(4, row 64), (6, row 0x10100), (8, row 0x10200)] }
/-- Synchronisation: a binding, and its removal. -/
theorem witness_Synchronisation_bindings : issues (.bind 4 6 8) stBind = true ∧ bindFault (stBind.bindingsOf 1) 0x10200 0x10100 64 = none
    ∧ issues (.unbind 6) { stBind with bindings := [(1, [⟨0x10100, 64, 0x10200⟩])] } = true
    ∧ (({ stBind with bindings := [(1, [⟨0x10100, 64, 0x10200⟩])] } : State).bindingsOf 1).find? (fun y => y.base == 0x10100)
        = some ⟨0x10100, 64, 0x10200⟩ := by decide +kernel
/-- Synchronisation: monitors, fences of the narrowest and the widest scope, and prefetches. -/
theorem witness_Synchronisation_others : issues (.mon 6) stMem = true ∧ (stMem.gang gA).cur = some 0 ∧ (lineAccess stMem gA 6).lanes.length = 32
    ∧ passes (stMem.reach (lineAccess stMem gA 6) 0x10000 4 true) = true
    ∧ allIssue stMem [.fence 0, .fence 1, .fence 2, .fence 6, .pfL1 6, .pfL2 6] (fun _ => true) = true := by decide +kernel

/-! ## Witnesses: the die -/

/-- The a-slice with a source in a6, a destination in a4, a descriptor's address in a8 and a threshold in a9; and memory with a copy
descriptor of 8 bytes, with a handle and a trigger. -/
def stCopy (handle trig word : Nat) : State :=
  let s := withG stA fun x => { x with a := [(4, row 0x10400), (6, row 0x10300), (8, row 0x10200), (9, row 5)] }
  let m := memPuts (hbmKey 0 0x10500) (bytesOfNum word 8) []
  { s with mem := memPuts (hbmKey 0 0x10200) (bytesOfNum 8 8 ++ bytesOfNum 0 8 ++ bytesOfNum handle 8 ++ bytesOfNum trig 8) m }
/-- The handle of a completion object at 0x10500. -/
def objA : Nat := 2 ^ 62 + 0x10500
/-- Whether the linear operation that a descriptor names passes its checks. -/
def copyPasses (s : State) (armed : Bool) (p : State → CopyOp → DWord → Bool) : Bool :=
  match (s.countIssue (.a gA)).readPieces (.a gA) 0x10200 2 with
  | (.go t _, bs, false) =>
    match linearOp t (.a gA) bs 0x10300 0x10400 armed with
    | some (o, trig) => (t.opFault o 0x10200).isNone && p t o trig
    | none => false
  | _ => false
/-- DieInstructions: a copy with no handle, and one with a completion object. -/
theorem witness_DieInstructions_copy : issues (.copy 4 6 8) (stCopy 0 0 0) = true ∧ (stCopy 0 0 0).unacked (.a gA) = false
    ∧ copyPasses (stCopy 0 0 0) false (fun t o _ => o.handle == 0 && decide ((t.die gA.dieId).opCount < 64)) = true
    ∧ issues (.copy 4 6 8) (stCopy objA 0 0) = true
    ∧ copyPasses (stCopy objA 0 0) false (fun t o _ => o.handle != 0 && reaches (t.reachObject (.a gA) o.handle .atomic) fun _ _ => true) = true := by
  decide +kernel
/-- A tensor descriptor of one dimension of three 8-byte elements. -/
def stTensor : State :=
  let s := withG stA fun x => { x with a := [(6, row 0), (8, row 0x10200)] }
  let bs := bytesOfNum 0x10400 8 ++ bytesOfNum 0x10500 8 ++ bytesOfNum 0x0301 16 ++ bytesOfNum 3 8 ++ bytesOfNum 8 8 ++ bytesOfNum 16 8
  { s with mem := memPuts (hbmKey 0 0x10200) bs [] }
/-- DieInstructions: a tensor copy. -/
theorem witness_DieInstructions_tcopy : issues (.tcopy 6 8) stTensor = true
    ∧ (match (stTensor.countIssue (.a gA)).readPieces (.a gA) 0x10200 23 with
      | (.go t _, bs, false) => (tensorOp t (.a gA) bs 0).any fun o => (t.opFault o 0x10200).isNone && o.handle == 0
      | _ => false) = true := by decide +kernel
/-- DieInstructions: a trigger that does not fire at issue, and one that does. -/
theorem witness_DieInstructions_copyt : issues (.copyt 4 6 8) (stCopy 0 objA 4) = true
    ∧ copyPasses (stCopy 0 objA 4) true (fun t o trig => reaches (t.reachObject (.a gA) trig .load) fun y k =>
        isHbm k && !y.placeWaits k 8 && !y.markedAt k 8 && (({ o with threshold := 5, trig := k } : CopyOp).fire (y.readNum k 8)).isNone) = true
    ∧ copyPasses (stCopy 0 objA 5) true (fun t o trig => reaches (t.reachObject (.a gA) trig .load) fun y k =>
        isHbm k && (({ o with threshold := 5, trig := k } : CopyOp).fire (y.readNum k 8)).any fun f => !f.fault) = true
    ∧ copyPasses (stCopy 0 objA (2 ^ 63)) true (fun t o trig => reaches (t.reachObject (.a gA) trig .load) fun y k =>
        (({ o with threshold := 5, trig := k } : CopyOp).fire (y.readNum k 8)).any fun f => f.fault) = true
    ∧ ((stCopy 0 objA 4).die gA.dieId).armed.length < 64 ∧ ((stCopy 0 objA 4).die gA.dieId).opCount < 64 := by decide +kernel
/-- A count of an object in memory, its handle in a6 and a target of 5 in a4; the target in m4 of a controller. -/
def stCount (word : Nat) : State := { stAB 5 (BitVec.ofNat 64 objA) with mem := memPuts (hbmKey 0 0x10500) (bytesOfNum word 8) [] }
/-- DieInstructions: a count that has not met the target, one that has, and a failed object. -/
theorem witness_DieInstructions_cwait : issues (.cwait 4 6) (stCount 4) = true ∧ countMet 4 5 = false ∧ countMet 5 5 = true
    ∧ reaches ((stCount 4).reachObject (.a gA) (BitVec.ofNat 64 objA) .load) (fun t k => isHbm k && !t.placeWaits k 8 && !t.markedAt k 8 && t.readNum k 8 == 4) = true
    ∧ reaches ((stCount (2 ^ 63)).reachObject (.a gA) (BitVec.ofNat 64 objA) .load) (fun t k => t.readNum k 8 / 2 ^ 63 % 2 == 1) = true
    ∧ issues (.cwait 4 6) (stMh (BitVec.ofNat 64 objA)) = true
    ∧ reaches ((stMh (BitVec.ofNat 64 objA)).reachObject (.m cM) (BitVec.ofNat 64 objA) .load) (fun _ _ => true) = true := by decide +kernel
/-- Tables of context 1 with an entry of the page at 0x20000 as given, the page in a6, a frame in a4 and permissions in a8; in
supervisor mode. -/
def stTables (leaf : Nat) : State :=
  let s := ((State.reset.ready (.a gA) .supervisor).modGang gA fun x => { x with a := [(4, row 0x200000), (6, row 0x20000), (8, row 7)] }).modPkg 0
    fun x => { x with contexts := [(1, ⟨0x20000, true⟩)] }
  let m := memPuts (hbmKey 0 0x80000) (bytesOfNum 0x82001 8) (memPuts (hbmKey 0 0x82080) (bytesOfNum leaf 8) [])
  { s with mem := memPuts (hbmKey 0 0x20000) (bytesOfNum 0x40001 8) (memPuts (hbmKey 0 0x40000) (bytesOfNum 0x80001 8) m) }
/-- DieInstructions: a page mapped. -/
theorem witness_DieInstructions_mappg : issues (.mappg 0 4 6 8) (stTables 0) = true ∧ (stTables 0).busy gA = false ∧ Memory.wf (stTables 0).mem = true
    ∧ (match (stTables 0).mapPlan gA 0 0x20000 0x200000 7 with
      | .inr (pas, frame) => pas == [0x82080] && frame == 0x200000
      | .inl _ => false) = true ∧ (0x200000 : Nat) + 2 ^ pageLg 0 ≤ hbmSize
    ∧ ((stTables 0).countIssue (.a gA)).frameBusy 0 1 0x20000 0x200000 (2 ^ pageLg 0) = false
    ∧ ((stTables 0).countIssue (.a gA)).walkWaits 0 1 0x20000 = false := by decide +kernel
/-- DieInstructions: a page unmapped. -/
theorem witness_DieInstructions_unmappg : issues (.unmappg 0 6) (stTables (leafOf 0 0x200000 7)) = true ∧ mapFault 0x20000 0 = none
    ∧ (stTables (leafOf 0 0x200000 7)).leavesOf 0 1 0x20000 0 = some [0x82080]
    ∧ (stTables (leafOf 0 0x200000 7)).leavesValid 0 0 [0x82080] = true
    ∧ ((stTables (leafOf 0 0x200000 7)).countIssue (.a gA)).walkWaits 0 1 0x20000 = false := by decide +kernel
/-- DieInstructions: a removal of a page, and of a context, in each scope. -/
theorem witness_DieInstructions_tlbinv : allIssue (stTables 0) [.tlbinv 6 2, .tlbinv 6 3, .tlbinv 6 4, .tlbinv 6 5] (fun _ => true) = true
    ∧ issues (.tlbinv 6 5) (withG (stTables 0) fun x => { x with a := [(6, row (BitVec.allOnes 64))], sa := [(6, row (BitVec.allOnes 64))] }) = true := by
  decide +kernel
/-- A merge entry of a page, with no requester. -/
def mergeOf (page : Nat) : Merge := { ctx := 1, page := page, lg := 13, va := page, acc := 0, state := .walking, waiters := [] }
/-- A die with a record in its fault buffer and merge entries in three states. -/
def stFaults : State := (stTables 0).modDie gA.dieId fun x =>
  { x with
    fb := [⟨0x20000, 1, 511, 3, 2, 0, 15, 4095⟩]
    merge := [(0, { mergeOf 0x20000 with state := .buffered }), (1, { mergeOf 0x40000 with state := .walking }), (2, { mergeOf 0x60000 with state := .dropped })] }
/-- DieInstructions: an empty fault buffer and one with a record; replays of an entry that is buffered and of one that is not. -/
theorem witness_DieInstructions_faults : issues (.fbread 8) (stTables 0) = true ∧ ((stTables 0).die gA.dieId).fb = [] ∧ issues (.fbread 8) stFaults = true
    ∧ (stFaults.die gA.dieId).fb = [⟨0x20000, 1, 511, 3, 2, 0, 15, 4095⟩] ∧ issues (.replay 6) stFaults = true ∧ issues .replayall stFaults = true
    ∧ (tfind 0 (stFaults.die gA.dieId).merge).any (fun m => m.state == .buffered) = true
    ∧ tfind 511 (stFaults.die gA.dieId).merge = none := by decide +kernel

/-- The a-slice with a queue's number in a6 and a time in a4; queue 3 of the die with a capacity, items and a reserve. -/
def stQueue (cap : Nat) (items : List (DWord × Bool)) : State := (stAB 1000 3).modDie gA.dieId fun x =>
  { x with qres := 1, queues := [(3, { cap := cap, ctx := 1, en := true, items := items })] }
/-- WorkQueues: room for every lane, and none. -/
theorem witness_WorkQueues_enq : issues (.enq 4 6) (stQueue 32 []) = true ∧ ((stQueue 32 []).queueCheck gA 3).isSome = true
    ∧ (((stQueue 32 []).die gA.dieId).queue 3).deqs = [] ∧ ((stQueue 32 []).die gA.dieId).cellsUsed + 32 ≤ ((stQueue 32 []).die gA.dieId).qres * 1024
    ∧ issues (.enq 4 6) (stQueue 0 []) = true ∧ ((stQueue 0 []).die gA.dieId).roomIn 3 = false := by decide +kernel
/-- WorkQueues: an item for every lane, none, a time of 0, and a failed queue. -/
theorem witness_WorkQueues_deq : allIssue (stQueue 64 (List.replicate 32 (7, true))) [.deq 6 8, .deqt 4 6 8] (fun _ => true) = true
    ∧ ((stQueue 64 (List.replicate 32 (7, true))).queueCheck gA 3).any (fun q => !q.failed && q.deqs.isEmpty && q.items.length == 32) = true
    ∧ laneCount (stA.active (.a gA)) = 32 ∧ ((stQueue 64 []).queueCheck gA 3).any (fun q => q.items.isEmpty) = true
    ∧ issues (.deq 6 8) (stQueue 64 []) = true ∧ issues (.deqt 4 6 8) (stQueue 64 []) = true ∧ ((stQueue 64 []).pkg 0).time < 2 ^ 64 - 1
    ∧ issues (.deqt 5 6 8) (stQueue 64 []) = true ∧ leaderValue (stQueue 64 []) (.a gA) .b64 5 = 0
    ∧ issues (.deq 6 8) ((stAB 0 3).modDie gA.dieId fun x => { x with queues := [(3, { ctx := 1, en := true, failed := true })] }) = true
    ∧ (((stAB 0 3).modDie gA.dieId fun x => { x with queues := [(3, { ctx := 1, en := true, failed := true })] }).queueCheck gA 3).any (·.failed) = true := by
  decide +kernel
/-- WorkQueues: a deadline reached and one not yet; a queue disabled with items; the reserve. -/
theorem witness_WorkQueues_events : ((withG (stQueue 4 []) fun x => { x with wait := some (.deq 3 1 8 (some 0)) }).gang gA).wait = some (.deq 3 1 8 (some 0))
    ∧ (0 : Nat) ≤ ((stQueue 4 []).pkg 0).time ∧ ((stQueue 4 []).pkg 0).time < 1
    ∧ (((stQueue 4 [(7, false)]).die gA.dieId).queue 3).en = true ∧ (255 : Nat) < 256 ∧ ((stA.die gA.dieId).queue 255).en = false
    ∧ (stA.die gA.dieId).allocs = [] ∧ (stA.die gA.dieId).queues = [] ∧ (2048 : Nat) % 2 ^ 12 ≤ 2048 := by decide +kernel

/-! ## Witnesses: the package -/

/-- The a-slice of firmware mode with a value in a6. -/
def stF (v : DWord) : State := (State.reset.ready (.a gA) .firmware).modGang gA fun x => { x with a := [(6, row v)], sa := [(6, row v)] }
/-- PackageInstructions: a time reached, and one not; a gang and a controller. -/
theorem witness_PackageInstructions_tmwait : issues (.tmwait 6) (stAB 0 0) = true ∧ issues (.tmwait 6) (stAB 0 9) = true ∧ issues (.tmwait 6) (stMh 9) = true
    ∧ (withG stA fun x => { x with wait := some (.tmwait 9) }).waitOf (.a gA) = some (.tmwait 9) := by decide +kernel
/-- The a-slice in supervisor mode with a value in a6. -/
def stS (v : DWord) : State := (State.reset.ready (.a gA) .supervisor).modGang gA fun x => { x with a := [(6, row v)], sa := [(6, row v)] }
/-- PackageInstructions: a save whose image fits whatever the device's sections hold. -/
theorem witness_PackageInstructions_ctxsv : issues (.ctxsv 6) (stS 0x2000000) = true ∧ ((stS 0x2000000).pkg 0).cstate = 0 ∧ ((stS 0x2000000).pkg 0).heldPre = []
    ∧ ((stS 0x2000000).gang gA).ctx = 1 ∧ ((stS 0x2000000).pkg 0).durable 1 = false ∧ leaderValue (stS 0x2000000) (.a gA) .b64 6 = 0x2000000
    ∧ (((stS 0x2000000).countIssue (.a gA)).capture 0 { ctx := 1 }).sections = [(5, 0), (6, 0), (7, 0), (9, 0)] := by decide +kernel
/-- PackageInstructions: an image of those four sections passes at that address. -/
theorem witness_PackageInstructions_image (sv : Saved) (h : sv.sections = [(5, 0), (6, 0), (7, 0), (9, 0)]) :
    saveFault 0x2000000 sv.imageLen false = false := by
  have b (x : Nat × Nat) : sectionLen x ≤ 2 ^ 32 := by
    have := Nat.mod_lt (Config.sectionRows x.1 x.2) (show 0 < 2 ^ 28 - 2 by decide)
    unfold sectionLen sectionRows
    omega
  have b5 := b (5, 0)
  have b6 := b (6, 0)
  have b7 := b (7, 0)
  have b9 := b (9, 0)
  simp only [saveFault, Saved.imageLen, h, List.foldl, hbmSize, Bool.false_and, Bool.or_false, Bool.or_eq_false_iff, decide_eq_false_iff_not]
  refine ⟨by decide, ?_⟩
  omega
/-- PackageInstructions: so does the image that the save of `stS` begins. -/
theorem witness_PackageInstructions_length : saveFault 0x2000000 (((stS 0x2000000).countIssue (.a gA)).lengthNow 0 1) false = false :=
  witness_PackageInstructions_image _ (by decide +kernel)
/-- The header of a complete image of context 2 at 0x2000000. -/
def stImage : State :=
  let bs := bytesOfNum 0x45584943 4 ++ bytesOfNum 1 2 ++ bytesOfNum 2 2 ++ bytesOfNum 128 8 ++ bytesOfNum 2 4
  { stS 0x2000000 with mem := memPuts (hbmKey 0 0x2000000) bs [] }
/-- PackageInstructions: an image read for restoring. -/
theorem witness_PackageInstructions_ctxld : issues (.ctxld 6) stImage = true ∧ (stImage.pkg 0).cstate = 0
    ∧ stImage.readHeader 0 0x2000000 = some { ctx := 2, addr := 0x2000000, length := 128 } ∧ stImage.ctxCtls 0 2 = []
    ∧ (stImage.countIssue (.a gA)).ctxGangs 0 2 = [] ∧ (stImage.pkg 0).heldPre = [] ∧ stImage.placeWaits (hbmKey 0 0x2000000) 128 = false := by decide +kernel
/-- Core 1 of cluster 0 retired. -/
def stRetired (v : DWord) : State := (stF v).modCore ⟨0, 1, 0, 0⟩ fun x => { x with full := true, retired := true }
/-- PackageInstructions: a core that holds nothing, one that holds the gang, one that is retired, and a return to service of that and of another. -/
theorem witness_PackageInstructions_rtcore : issues (.rtcore 6) (stF 1) = true ∧ (stF 1).coreHeld ⟨0, 1, 0, 0⟩ = false
    ∧ issues (.rtcore 6) (stF 0) = true ∧ (stF 0).coreHeld ⟨0, 0, 0, 0⟩ = true ∧ issues (.rtcore 6) (stF (BitVec.ofNat 64 (2 ^ 13 + 1))) = true
    ∧ ((stF 1).core ⟨0, 1, 0, 0⟩).retired = false ∧ ((stF 0).core ⟨0, 0, 0, 0⟩).retired = false
    ∧ issues (.rtcore 6) (stRetired 1) = true ∧ ((stRetired 1).core ⟨0, 1, 0, 0⟩).retired = true
    ∧ issues (.rtcore 6) (stRetired (BitVec.ofNat 64 (2 ^ 13 + 1))) = true := by decide +kernel
/-- A die with a cluster out of service. -/
def stOut : State := (stF (BitVec.ofNat 64 (2 ^ 13 + 33 * 16))).modDie gA.dieId fun x => { x with remap := [(33, ⟨false, false, true, 0⟩)] }
/-- PackageInstructions: a spare retired, an active cluster retired with a spare for it, and both returns to service. -/
theorem witness_PackageInstructions_rtclu : issues (.rtclu 6) (stF (BitVec.ofNat 64 (32 * 16))) = true
    ∧ ((stF 0).die ⟨0, 0⟩).remapOf 32 = ⟨false, true, false, 0⟩ ∧ ((stF 0).die ⟨0, 0⟩).retiring = [] ∧ (stF 0).cluBusy ⟨0, 0, 32⟩ = false
    ∧ issues (.rtclu 6) (stF (BitVec.ofNat 64 (5 * 16))) = true ∧ (((stF 0).die ⟨0, 0⟩).remapOf 5).active = true ∧ (stF 0).cluBusy ⟨0, 0, 5⟩ = false
    ∧ (List.range 34).find? (fun q => q != 5 && (((stF 0).die ⟨0, 0⟩).remapOf q).spare) = some 32
    ∧ issues (.rtclu 6) (stF (BitVec.ofNat 64 (2 ^ 13 + 5 * 16))) = true ∧ issues (.rtclu 6) stOut = true
    ∧ ((stOut.die ⟨0, 0⟩).remapOf 33).active = false ∧ ((stOut.die ⟨0, 0⟩).remapOf 33).spare = false := by decide +kernel
/-- A launch of the gang's context with a completion status word. -/
def stLaunch (v : DWord) : State := (stAB 0 v).modPkg 0 fun x => { x with launches := [(0, { ctx := 1, status := 0x10600 })] }
/-- PackageInstructions: the skew state, and a re-plan of its own launch, of another of its context, and of none. -/
theorem witness_PackageInstructions_replan : issues (.skrd 8) (stLaunch 0) = true ∧ issues (.replan 6) (stLaunch 0) = true
    ∧ issues (.replan 6) (stLaunch 0x10600) = true
    ∧ (((stLaunch 0x10600).pkg 0).launches.find? (fun l => l.2.ctx == 1 && l.2.status == 0x10600)).isSome = true
    ∧ issues (.replan 6) (stLaunch 8) = true ∧ ((stLaunch 8).pkg 0).launches.find? (fun l => l.2.ctx == 1 && l.2.status == 8) = none := by decide +kernel

/-! ## Witnesses: the fabric and phasers -/

/-- The a-slice with an address in a6, a package in a7 and data in a4 and a5. -/
def stRem (addr pkg : DWord) : State := withG stA fun x => { x with a := [(4, row 5), (6, row addr), (7, row pkg)] }
/-- Whether a remote instruction issues, every lane passing its checks or the first failing with a detail. -/
def remotePasses (s : State) (addr pkg : Nat) (bad : Option Nat) (i : Instr) : Bool :=
  match remoteShape i with
  | none => false
  | some x => issues i s && ((if 2 ^ 57 ≤ addr ∨ 2 ^ 10 ≤ pkg then some 32 else if addr % x.size ≠ 0 then some 33 else none) == bad)
      && !s.remoteOverlap gA pkg addr x.size && !s.ownOverlap gA pkg addr x.size && !s.portHeld gA && !s.feWaits gA
/-- FabricInstructions: every remote instruction; an address and a package that are too large, and one that is misaligned. -/
theorem witness_FabricInstructions_remote : ([.rld 0 6 8, .rld 2 6 8, .rst 1 4 6, .rredAdd 1 4 6, .rredMin 0 4 6, .rredMax 2 4 6, .rredAnd 3 4 6, .rredOr 1 4 6,
    .rredXor 1 4 6] : List Instr).all (remotePasses (stRem 0x10100 1023) 0x10100 1023 none) = true
    ∧ remotePasses (stRem (2 ^ 57) 0) (2 ^ 57) 0 (some 32) (.rst 1 4 6) = true ∧ remotePasses (stRem 0x10100 1024) 0x10100 1024 (some 32) (.rld 0 6 8) = true
    ∧ remotePasses (stRem 0x10100 0) 0x10100 0 none (.rst 1 4 6) = true ∧ remotePasses (stRem 0x10104 0) 0x10104 0 (some 33) (.rst 1 4 6) = true ∧ laneNum (stRem 0x10100 1023) gA 6 31 = 0x10100
    ∧ (stRem 0x10100 1023).fenceOpen gA 0 = false := by decide +kernel
/-- A window address in a6, and group 5 joined at the package in state 2 with a window of 64 KiB. -/
def stWin (addr : DWord) (state : Nat) : State := (stRem addr 0).modPkg 0 fun x =>
  { x with groups := [(5, { wva := 1, wlen := 1, ctx := 1, state := state, en := true, applied := 9 })] }
/-- The detail of a window address. -/
def windowBad (s : State) (addr size : Nat) : Option Nat := s.windowDetail gA addr size
/-- FabricInstructions: every multicast instruction; the last bytes of the window, beyond it, and misaligned. -/
theorem witness_FabricInstructions_multicast : ([.mcst 1 4 6 8, .mcatomAdd 1 4 6, .mcatomMin 0 4 6, .mcatomMax 2 4 6, .mcatomAnd 3 4 6, .mcatomOr 1 4 6,
    .mcatomXor 1 4 6] : List Instr).all (fun i => (multicastShape i).isSome && issues i (stWin 0x50000FFF8 2)) = true
    ∧ windowBad (stWin 0x50000FFF8 2) 0x50000FFF8 8 = none ∧ windowBad (stWin 0x500010000 2) 0x500010000 8 = some 34
    ∧ windowBad (stWin 0x50000FFFC 2) 0x50000FFFC 8 = some 33
    ∧ (stWin 0x50000FFF8 2).windowOverlap gA 5 0xFFF8 8 = false ∧ (stWin 0x50000FFF8 2).portHeld gA = false
    ∧ issues (.mcst 1 4 6 8) (withG (stWin 0 2) fun x => { x with exmA := 0 }) = true ∧ lanesOf ((withG (stWin 0 2) fun x => { x with exmA := 0 }).active (.a gA)) = [] := by
  decide +kernel
/-- FabricInstructions: a wait at a member, met by its target and not, and at none. -/
theorem witness_FabricInstructions_mcwait : issues (.mcwait 4 6) (stWin 5 2) = true ∧ ((stWin 5 2).group 0 5).state = 2
    ∧ (9 % 2 ^ 48 + 2 ^ 48 - 5) % 2 ^ 48 < 2 ^ 47 ∧ ¬ (9 % 2 ^ 48 + 2 ^ 48 - 10) % 2 ^ 48 < 2 ^ 47 ∧ ((stWin 6 2).group 0 6).state = 0
    ∧ issues (.mcwait 4 6) (stWin 5 5) = true ∧ ((stWin 5 5).group 0 5).state = 5 := by decide +kernel

/-- The handle of phaser 7. -/
def phA : DWord := 0x8000000000000007
/-- Phaser 7 of the package's die, an agent's registration of a role, its handle in a6 and m6, and a value in a4 and m4. -/
def stPh (role : Nat) (v : DWord) : State := (withG (stAB v phA) fun x => { x with regs := [⟨7, role, 0, 0, 0⟩] }).modPkg 0 fun x =>
  { x with phasers := [(7, { ctx := 1, en := true, anyof := true })] }
/-- The same of a controller. -/
def stPhM (role : Nat) (v : DWord) : State :=
  (stM.modCtl cM fun x => { x with m := [(6, ⟨phA, false⟩), (4, ⟨v, false⟩)], regs := [⟨7, role, 0, 0, 0⟩] }).modPkg 0 fun x =>
    { x with phasers := [(7, { ctx := 1, en := true, anyof := true })] }
/-- With no registration. -/
def stPhNone (v : DWord) : State := withG (stPh 0 v) fun x => { x with regs := [] }
/-- With the phaser failed. -/
def stPhFailed : State := (stPh 2 0).modPkg 0 fun x => { x with phasers := [(7, { ctx := 1, en := true, anyof := true, failed := true })] }
/-- PhaserInstructions: each instruction of a registrant, in a gang and in a controller; a failed phaser and a bad handle. -/
theorem witness_PhaserInstructions : allIssue (stPh 2 0) [.phleave 6, .phsig 6, .phsigBnd 6, .phwait 4 6, .phsw 4 6, .phswBnd 4 6, .phany 4 6, .phfind 6 8] (fun _ => true) = true
    ∧ allIssue (stPhM 2 0) [.phleave 6, .phsig 6, .phsigBnd 6, .phwait 4 6, .phsw 4 6, .phswBnd 4 6, .phany 4 6, .phfind 6 8] (fun _ => true) = true
    ∧ (stPh 2 0).phaserBad (.a gA) phA = false ∧ (stPhM 2 0).phaserBad (.m cM) phA = false
    ∧ (stPh 2 0).ownReg (.a gA) 7 = some ⟨7, 2, 0, 0, 0⟩ ∧ (stPhM 2 0).ownReg (.m cM) 7 = some ⟨7, 2, 0, 0, 0⟩ ∧ (stPh 2 0).releaseWaits (.a gA) phA = false
    ∧ (stPh 2 0).boundWaits (.a gA) true = false ∧ (stPhM 2 0).boundWaits (.m cM) true = false ∧ (stPhM 2 0).releaseWaits (.m cM) phA = false
    ∧ (stPh 2 0).heldOf (.a gA) = [] ∧ (stPh 2 0).active (.a gA) ≠ 0 ∧ issues (.phsig 6) stPhFailed = true ∧ (stPhFailed.phaser 0 7).failed = true
    ∧ stPhFailed.phaserBad (.a gA) phA = false ∧ issues (.phsig 6) (stAB 0 phA) = true ∧ (stAB 0 phA).phaserBad (.a gA) phA = true := by decide +kernel
/-- PhaserInstructions: a registrant that joins, as waiter and with an object as its proxy, and one that leaves none. -/
theorem witness_PhaserInstructions_join : issues (.phjoin 4 6) (stPhNone 1) = true ∧ joinFault 1 (stPhNone 1) (.a gA) 7 = none
    ∧ ((stPhNone 1).phaser 0 7).inside (agentDie (.a gA)) = true ∧ issues (.phjoin 4 6) (stPhNone (BitVec.ofNat 64 objA)) = true
    ∧ joinFault (BitVec.ofNat 64 objA) (stPhNone (BitVec.ofNat 64 objA)) (.a gA) 7 = none ∧ issues (.phleave 6) (stPhNone 0) = true
    ∧ reaches (((stPhNone (BitVec.ofNat 64 objA)).countIssue (.a gA)).reachObject (.a gA) (BitVec.ofNat 64 objA) .load) (fun _ _ => true) = true
    ∧ (stPhNone 0).regsOf (.a gA) = [] := by decide +kernel
/-- R450: a proxy's object on a page that may not be read raises detail 23. -/
theorem test_join_denied : joinFault (BitVec.ofNat 64 objA) ((stPhNone (BitVec.ofNat 64 objA)).modClu gA.cluId fun x =>
    { x with tlb := [⟨1, 0x10000, 13, 0x10000, false, true, true⟩] }) (.a gA) 7 = some (23, BitVec.ofNat 64 objA) := by decide +kernel
/-- PhaserInstructions: a phase complete and one not, with writes outstanding and without. -/
theorem witness_PhaserInstructions_phases : (((stPh 2 0).weir (.die (agentDie (.a gA))) 7).phase - 1 - 0xFFFFFFFF).toNat < 2 ^ 31
    ∧ ¬ (((stPh 2 0).weir (.die (agentDie (.a gA))) 7).phase - 1 - 0).toNat < 2 ^ 31
    ∧ phaseDone ((stPh 2 0).weir (.die (agentDie (.a gA))) 7).phase (0 - 1) = true ∧ phaseDone ((stPh 2 0).weir (.die (agentDie (.a gA))) 7).phase (1 - 1) = false
    ∧ (stPh 2 0).pendingOf (.a gA) = 0 ∧ (withG (stPh 2 0) fun x => { x with pending := 8 }).pendingOf (.a gA) ≠ 0
    ∧ (⟨7, 2, 0, 0, 0⟩ : PhReg) ∈ (stPh 2 0).regsOf (.a gA) := by decide +kernel

/-! ## Witnesses: the anvil -/

/-- A tile descriptor. -/
def tileBytes (base stride rows cols : Nat) (sp : Bool) : List Byte :=
  bytesOfNum (base + stride * 2 ^ 64 + (rows - 1) * 2 ^ 112 + (cols - 1) * 2 ^ 128 + if sp then 2 ^ 144 else 0) 32
/-- A controller with 256 KiB of cluster memory: tiles 0 to 2 of an f32 product of bf16 operands, tile 3 in `.g`, tile 4 a square of
four f32, tile 5 its row of scales, tile 6 with a reserved bit; format block 0 for bf16, 1 for a conversion; m6 is one k-step. -/
def stAnvil : State :=
  let s := (stM.modClu cM fun x => { x with allocs := [⟨0, 0, 0, 0x40000⟩] }).modCtl cM fun x => { x with m := [(6, ⟨1, false⟩)] }
  let put (n : Nat) (bs : List Byte) (m : List Host.Cell) : List Host.Cell := memPuts (cluKey cM (32 * n)) bs m
  let m := put 0 (tileBytes 0x1000 64 4 16 false) (put 1 (tileBytes 0x2000 512 4 256 false) (put 2 (tileBytes 0x4000 512 16 256 false) []))
  let m := put 3 (tileBytes 0x10000 512 2 256 true) (put 4 (tileBytes 0x8000 16 4 4 false) (put 5 (tileBytes 0x9000 16 1 4 false) m))
  let m := put 6 (bytesOfNum (0x1000 + 64 * 2 ^ 64 + 2 ^ 200) 32) (put 7 (tileBytes 0x2000 512 4 16 false) m)
  { s with mem := memPuts (cluKey cM 528) (bytesOfNum 0x20 16) m }
/-- A tile of it with a bit set that is reserved. -/
def reserved (base stride rows cols : Nat) : List Byte :=
  bytesOfNum (base + stride * 2 ^ 64 + (rows - 1) * 2 ^ 112 + (cols - 1) * 2 ^ 128 + 2 ^ 200) 32
/-- The same controller with further tiles: 8 and 9 with a reserved bit and the sizes of operands A and B, and 10 of 257 rows. -/
def stAnvilBad : State :=
  let m := memPuts (cluKey cM (32 * 8)) (reserved 0x2000 512 4 16) (memPuts (cluKey cM (32 * 9)) (reserved 0x4000 512 16 256) stAnvil.mem)
  { stAnvil with mem := memPuts (cluKey cM (32 * 10)) (tileBytes 0x10000 512 257 256 true) m }
/-- AnvilInstructions: a tile with a reserved bit as the first, the second and the third of an instruction, and one of 257 rows. -/
theorem witness_AnvilInstructions_reserved : allIssue stAnvilBad [.mma 8 1 2 0 6, .mmaz 8 1 2 0 6, .azero 8, .acvt 8 7 1, .pmapply 8 0, .lup 8 0, .chol 8 0, .qrh 8 5 0,
      .trsm 8 4 0 0, .tpin 8 0, .mma 0 8 2 0 6, .mma 0 1 9 0 6, .mmaz 0 1 9 0 6, .acvt 0 8 1, .qrh 4 8 0, .trsm 4 8 0 0, .tpin 10 0] (fun _ => true) = true
    ∧ ([8, 9, 10].all fun n => !(stAnvilBad.readTile cM n 0).2) = true ∧ (stAnvilBad.readTile cM 8 0).1.reserved = true ∧ (stAnvilBad.readTile cM 8 0).1.rows = 4
    ∧ (stAnvilBad.readTile cM 8 0).1.cols = 16 ∧ (stAnvilBad.readTile cM 9 0).1.reserved = true ∧ (stAnvilBad.readTile cM 9 0).1.rows = 16
    ∧ 256 < (stAnvilBad.readTile cM 10 0).1.rows ∧ (stAnvilBad.readTile cM 10 0).1.reserved = false
    ∧ stAnvilBad.readBlock cM 0 = (⟨0, false, {}⟩, false) ∧ (stAnvilBad.clu cM).ctl.queue = [] := by decide +kernel
/-- A tile of it. -/
def tileN (n : Nat) : RawTile := (stAnvil.readTile cM n 0).1
/-- AnvilInstructions: each issues, no capture meets poison, the queue has a place, and none has. -/
theorem witness_AnvilInstructions : allIssue stAnvil [.mma 0 1 2 0 6, .mmaz 0 1 2 0 6, .azero 0, .acvt 0 7 1, .pmapply 4 0, .pmapply 4 7, .lup 4 0, .chol 4 3, .qrh 4 5 0, .trsm 4 4 0 0,
      .trsm 4 4 7 3, .tpin 3 0, .awt 6, .gerd 3 8] (fun _ => true) = true
    ∧ (stAnvil.clu cM).ctl.queue = [] ∧ ([0, 1, 2, 3, 4, 5, 6, 7].all fun n => !(stAnvil.readTile cM n 0).2) = true
    ∧ stAnvil.readBlock cM 0 = (⟨0, false, {}⟩, false) ∧ stAnvil.readBlock cM 1 = (⟨1, false, { bfmt := 2 }⟩, false)
    ∧ issues (.azero 0) (stAnvil.modCtl cM fun x => { x with queue := List.replicate 4 { op := .azero, pc := 0, sup := false } }) = true
    ∧ (tileN 6).reserved = true := by decide +kernel
/-- AnvilInstructions: the tiles of the product, of the conversion and of the factorisations pass their checks. -/
theorem witness_AnvilInstructions_tiles : (tileN 0).Legal 0x40000 (16 * elemBytes 2) 64 ∧ (tileN 0).rows = 4 ∧ (tileN 0).cols = 16 ∧ (tileN 0).sp = false
    ∧ pairing 0 0 = some (256, 2) ∧ (tileN 1).OperandLegal 0x40000 0 0 false ∧ (tileN 1).rows = 4 ∧ (tileN 1).cols = 1 * 256 ∧ (tileN 1).sp = false
    ∧ (tileN 2).OperandLegal 0x40000 0 0 false ∧ (tileN 2).rows = 16 ∧ (tileN 2).cols = 1 * 256
    ∧ (tileN 7).OutLegal 0x40000 0 0 ∧ (tileN 7).rows = 4 ∧ (tileN 7).cols = 16 ∧ (tileN 7).sp = false
    ∧ (tileN 3).OperandLegal 0x40000 0 0 false ∧ (tileN 3).sp = true ∧ (tileN 3).rows ≤ 256
    ∧ (tileN 4).SquareLegal 0x40000 4 ∧ (tileN 4).rows = 4 ∧ (tileN 5).Legal 0x40000 (4 * 4) 16 ∧ (tileN 5).rows = 1 ∧ (tileN 5).cols = 4 := by
  unfold RawTile.SquareLegal RawTile.OutLegal RawTile.OperandLegal RawTile.Legal
  and_intros <;> decide +kernel
/-- R33: a conversion to TS3 takes a destination at an even address that no 16 divides, and none at an odd one; its scales lie at a
multiple of four. -/
theorem test_acvt_ts3_alignment : ([(0x2002, true), (0x2001, false)] : List (Nat × Bool)).all (fun x =>
    let m := memPuts (cluKey cM (32 * 7)) (tileBytes x.1 6 4 16 false) (memPuts (cluKey cM 528) (bytesOfNum (6 + 2 * 2 ^ 4 + 2 ^ 8 + 0x3004 * 2 ^ 16) 16) stAnvil.mem)
    after (exec (.acvt 0 7 1) { stAnvil with mem := m }) fun s =>
      ((s.clu cM).ctl.queue.length == 1) == x.2 && ((s.clu cM).ctl.trap.any (fun y => y.detail == 13)) == !x.2) = true := by decide +kernel
/-- AnvilInstructions: an identity permutation of four rows. -/
theorem witness_AnvilInstructions_perm : ∀ q, q < 4 → q ∈ ((stAnvil.clu cM).ctl.perm 0).take 4 := by decide +kernel

/-! ## Witnesses: accesses performed -/

/-- An access of one lane in flight, with a page of memory holding a number. -/
def stFlight (k : AccessKind) (d : Dest) (op : Nat) : State :=
  let a : Access := { blankAccess stA gA k .g 8 op .b64 d with id := 3, lanes := [⟨5, 0x10100, some (hbmKey 0 0x10100), 7, 0⟩] }
  { withWord stA 9 with flight := [a] }
/-- That access. -/
def accA (k : AccessKind) (d : Dest) (op : Nat) : Access := (stFlight k d op).flight.headD (blankAccess stA gA k .g 8 op .b64 d)
/-- MemoryEvents: a load, a store, a store that fills its granule, and an atomic that can be performed. -/
theorem witness_MemoryEvents : ([(.load, .reg 8, 5), (.store, .none, 5), (.storeFe, .none, 5), (.atomic, .reg 8, 0)] : List (AccessKind × Dest × Nat)).all (fun x =>
      let s := stFlight x.1 x.2.1 x.2.2
      let a := accA x.1 x.2.1 x.2.2
      s.flight.find? (fun y => y.id == 3) == some a && s.freeToGo a && a.lanes.all (fun l => !s.placeWaits l.key a.size && isHbm l.key) && a.got.isEmpty
        && a.lanes.all (fun l => l.pa.isSome) && Memory.wf s.mem && (s.gang gA).mode == .user && !a.sup) = true := by decide +kernel
/-- MemoryEvents: an access of a restored gang that lacks a place. -/
theorem witness_MemoryEvents_placeless : ((({ stA with flight := [{ accA .load (.reg 8) 5 with lanes := [⟨5, 0x10100, none, 7, 0⟩] }] } : State).flight.find? fun y => y.id == 3).any
    fun a => a.lanes.any fun l => l.pa.isNone) = true := by decide +kernel
/-- MemoryEvents: a load behind a store of its bytes. -/
theorem witness_MemoryEvents_behind : ({ stFlight .load (.reg 8) 5 with flight := [{ accA .store .none 5 with id := 2 }, accA .load (.reg 8) 5] } : State).freeToGo
    (accA .load (.reg 8) 5) = false := by decide +kernel
/-- A full-empty load in flight of a core's scratchpad, with its granule full or not. -/
def stFe (full : Bool) : State :=
  let a : Access := { blankAccess stA gA .loadFec .c 8 5 .b64 (.reg 8) with id := 3, lanes := [⟨0, 0x100, some (coreKey gA.coreId 0x100), 0, 0⟩] }
  { stA with flight := [a], full := if full then [coreKey gA.coreId 0x100 / 16] else [] }
/-- MemoryEvents: full granules and empty ones. -/
theorem witness_MemoryEvents_fullEmpty : ((stFe true).flight.all fun a => a.feLoad && !a.lanes.isEmpty && (stFe true).freeToGo a && (stFe true).feReady a) = true
    ∧ ((stFe false).flight.all fun a => a.lanes.all fun l => !(stFe false).full.contains (l.key / 16)) = true
    ∧ ((stFe true).gang gA).preempted = false ∧ ((withG (stFe true) fun x => { x with preempted := true }).gang gA).preempted = true
    ∧ ((stFe true).flight.all fun a => a.lanes.all fun l => l.pa.isSome) = true := by decide +kernel
/-- A store held for its queue, which has its entries. -/
def stHeld : State := withG stA fun x =>
  { x with
    hold := [{ blankAccess stA gA .store .g 8 5 .b64 .none with id := 3, waitsOn := some 1, lanes := [⟨0, 0x10100, some (hbmKey 0 0x10100), 0, 0⟩] }]
    sq := [(1, [⟨List.replicate 32 ⟨1, false⟩, 1⟩, ⟨List.replicate 32 ⟨2, false⟩, 1⟩])] }
/-- MemoryEvents: a held store whose data is there. -/
theorem witness_MemoryEvents_hold : (stHeld.gang gA).preempted = false ∧ stHeld.msgs = [] ∧ stHeld.glitch = 0 ∧ ((stHeld.gang gA).hold.all fun a =>
    a.waitsOn == some 1 && !a.lanes.isEmpty && ((tget 1 [] (stHeld.gang gA).sq).take (heldEntries a)).length == heldEntries a
      && ((tget 1 [] (stHeld.gang gA).sq).take (heldEntries a)).all fun e => a.lanes.all fun l => l.pa.isSome && !(e.word l.lane).poison) = true
    ∧ (stHeld.gang gA).trapA = none ∧ (stHeld.gang gA).region = none := by decide +kernel
/-- MemoryEvents: a held store with a marked entry. -/
theorem witness_MemoryEvents_markedHold : (((withG stHeld fun x => { x with sq := [(1, [⟨List.replicate 32 ⟨1, false⟩, 1⟩, ⟨List.replicate 32 ⟨2, true⟩, 1⟩])] }).gang gA).hold.all fun a =>
    ((tget 1 [] ((withG stHeld fun x => { x with sq := [(1, [⟨List.replicate 32 ⟨1, false⟩, 1⟩, ⟨List.replicate 32 ⟨2, true⟩, 1⟩])] }).gang gA).sq).take
      (heldEntries a)).any fun e => a.lanes.any fun l => (e.word l.lane).poison) = true := by decide +kernel
/-- A gsync of both slices. -/
def stMeet : State := withG stA fun x => { x with gsA := some ⟨1, 1, 1, 1⟩, gsC := some ⟨1, 1, 1, 1⟩ }
/-- MemoryEvents: a rendezvous, one with a slice still to come, a monitor, and waits that are looked at again. -/
theorem witness_MemoryEvents_others : (stMeet.gang gA).gsA.isSome = true ∧ (stMeet.gang gA).gsC.isSome = true ∧ (stMeet.gang gA).preempted = false
    ∧ (stMeet.gang gA).trapA = none ∧ (stMeet.gang gA).trapC = none ∧ (stA.gang gA).gsA = none
    ∧ ((withG stMeet fun x => { x with gsC := none }).gang gA).gsC.isNone = true
    ∧ ((withG stA fun x => { x with monitors := [(0, ⟨[1], [1], false⟩)] }).gang gA).monitors = [(0, ⟨[1], [1], false⟩)]
    ∧ (withG (withWord stA 0) fun x => { x with wait := some (.acq (hbmKey 0 0x10100) 0x10100 0x10100) }).waitOf (.a gA) = some (.acq (hbmKey 0 0x10100) 0x10100 0x10100)
    ∧ (withWord stA 0).stopped (.a gA) = false ∧ (withG (withWord stA 0) fun x => { x with preempted := true }).stopped (.a gA) = true
    ∧ (withWord stA 0).placeWaits (hbmKey 0 0x10100) 8 = false ∧ (withWord stA 0).markedAt (hbmKey 0 0x10100) 8 = false
    ∧ (stA.modPkg 0 fun x => { x with zeroing := [(0x10000, 0x2000)] }).placeWaits (hbmKey 0 0x10100) 8 = true
    ∧ (stM.modCtl cM fun x => { x with wait := some (.cwait (hbmKey 0 0x10500) (BitVec.ofNat 64 objA) 5) }).waitOf (.m cM)
        = some (.cwait (hbmKey 0 0x10500) (BitVec.ofNat 64 objA) 5)
    ∧ isHbm (hbmKey 0 0x10500) = true ∧ isHbm (hbmKey 0 0x10100) = true
    ∧ (stM.modCtl cM fun x => { x with wait := some .counted }).waitOf (.m cM) = some .counted
    ∧ ((withG stA fun x => { x with wait := some (.cwait (hbmKey 0 0x10500) (BitVec.ofNat 64 objA) 5) }).gang gA).wait
        = some (.cwait (hbmKey 0 0x10500) (BitVec.ofNat 64 objA) 5)
    ∧ (withWord stA 0).flight = [] ∧ stA.markedAt (hbmKey 0 0x10500) 8 = false
    ∧ ({ stA with marks := [hbmKey 0 0x10500 / 16] } : State).markedAt (hbmKey 0 0x10500) 8 = true := by decide +kernel

/-! ## Witnesses: the anvil and the copy engines at work -/

/-- A multiply of one k-step with operand B in cluster memory, or in `.g`. -/
def mulEntry (z : Nat) (zero : Bool) : AnvilEntry :=
  { op := .mma zero, pc := 0x10000, sup := false, x := (tileN 0).tile, y := (tileN 1).tile, z := (tileN z).tile }
/-- The controller with an instruction at the head of its queue. -/
def stRun (e : AnvilEntry) : State := stAnvil.modCtl cM fun x => { x with queue := [e], state := 1 }
/-- The controller with no translation. -/
def noTlb (s : State) : State := s.modClu cM fun x => { x with tlb := [] }
/-- The controller with a page that may not be read in user mode. -/
def denyTlb (s : State) : State := s.modClu cM fun x => { x with tlb := [⟨1, 0x10000, 13, 0x10000, true, true, false⟩] }
/-- AnvilAndCopyEvents: the tile fetch unit waiting, and a line that translates, has no translation, and may not be read. -/
theorem witness_AnvilAndCopyEvents_fetch : ((stAnvil.modCtl cM fun x => { x with fetchMiss := some (0, 3) }).clu cM).ctl.fetchMiss.isSome = true
    ∧ ((stRun (mulEntry 3 true)).clu cM).ctl.head = some (mulEntry 3 true) ∧ ((stRun (mulEntry 3 true)).clu cM).lineWanted (mulEntry 3 true) 0 = some 0x400
    ∧ (stRun (mulEntry 3 true)).lineTranslate cM 0x400 false = .at (hbmKey 0 0x10000) 13 ∧ (stRun (mulEntry 3 true)).placeWaits (hbmKey 0 0x10000) 64 = false
    ∧ (noTlb (stRun (mulEntry 3 true))).lineTranslate cM 0x400 false = .miss ∧ (denyTlb (stRun (mulEntry 3 true))).lineTranslate cM 0x400 false = .denied
    ∧ ((stRun (mulEntry 3 true)).clu cM).ctl.trap = none ∧ ((stRun (mulEntry 3 true)).clu cM).pins = []
    ∧ ((stRun (mulEntry 3 true)).clu cM).pin 1 0x400 = none ∧ ((stRun (mulEntry 3 true)).clu cM).ctl.ctx = 1
    ∧ ((stAnvil.modCtl cM fun x => { x with tpins := [(0x400, false, 0)] }).clu cM).ctl.head = none
    ∧ ((stAnvil.modCtl cM fun x => { x with tpins := [(0x400, false, 0)] }).clu cM).ctl.fetchMiss = none := by decide +kernel
/-- The anvil with every sector of its head's step read, none of them listing a byte. -/
def allSeen (s : State) (e : AnvilEntry) : State := s.modCtl cM fun x => { x with seen := (s.sectors cM e).map fun g => (g, [], false) }
/-- AnvilAndCopyEvents: a k-step whose sectors are to be read, and one whose lines are not there. -/
theorem witness_AnvilAndCopyEvents_kstep : ((stRun (mulEntry 2 false)).clu cM).ctl.head = some (mulEntry 2 false)
    ∧ ((stRun (mulEntry 2 false)).clu cM).lineWanted (mulEntry 2 false) 0 = none ∧ (mulEntry 2 false).linesAt 0 = []
    ∧ ((stRun (mulEntry 2 false)).clu cM).ctl.applying = none ∧ ((stRun (mulEntry 2 false)).unread cM (mulEntry 2 false)).isEmpty = false
    ∧ (((stRun (mulEntry 3 false)).clu cM).lineWanted (mulEntry 3 false) 0).isSome = true := by decide +kernel
/-- AnvilAndCopyEvents: a k-step that has read all, with the accumulator zeroed and not. -/
theorem witness_AnvilAndCopyEvents_read : ((allSeen (stRun (mulEntry 2 false)) (mulEntry 2 false)).unread cM (mulEntry 2 false)).isEmpty = true
    ∧ (((allSeen (stRun (mulEntry 2 false)) (mulEntry 2 false)).view cM).operandRows cM (tileN 1).tile 0 0 false 256 0).2 = false
    ∧ (((allSeen (stRun (mulEntry 2 false)) (mulEntry 2 false)).view cM).operandRows cM (tileN 2).tile 0 0 false 256 0).2 = false
    ∧ ((cells 4 16).all fun x => !(((allSeen (stRun (mulEntry 2 false)) (mulEntry 2 false)).view cM).tileElem cM (tileN 0).tile 4 x.1 x.2).2) = true
    ∧ Memory.wf (allSeen (stRun (mulEntry 2 false)) (mulEntry 2 false)).mem = true ∧ (tileN 0).tile.cols * 4 ≤ (tileN 0).tile.stride := by decide +kernel
/-- A factorisation of the square tile that has begun. -/
def lupEntry : AnvilEntry := { op := .lup 0 false, pc := 0x10000, sup := false, x := (tileN 4).tile, steps := 4, growth := some (.fin false 0 0, .fin false 0 0) }
/-- Whether a column is done, or faults with a detail. -/
def columnEnds (s : State) (e : AnvilEntry) (d : Option Nat) : Bool :=
  match s.columnOf cM e 0, d with
  | (.done _ _ _ _, false), none => true
  | (.fault n, false), some m => n == m
  | _, _ => false
/-- The tile with 1.0 in its first place. -/
def stFactor (e : AnvilEntry) : State :=
  let s := stRun e
  { s with mem := memPuts (cluKey cM 0x8000) (bytesOfNum 0x3F800000 4) s.mem }
/-- The factorisation before it has begun. -/
def lupFresh : AnvilEntry := { lupEntry with growth := none }
/-- AnvilAndCopyEvents: a column that has its writes, one that faults, one that meets poison, and one whose sectors are to be read. -/
theorem witness_AnvilAndCopyEvents_column : ((allSeen (stFactor lupEntry) lupEntry).clu cM).ctl.head = some lupEntry
    ∧ lupEntry.factor.any (fun f => f.1 == 0 && !f.2.1) = true ∧ ((allSeen (stFactor lupEntry) lupEntry).unread cM lupEntry).isEmpty = true
    ∧ columnEnds ((allSeen (stFactor lupEntry) lupEntry).view cM) lupEntry none = true
    ∧ columnEnds ((allSeen (stRun { lupEntry with op := .chol 0 false }) { lupEntry with op := .chol 0 false }).view cM) { lupEntry with op := .chol 0 false } (some 18) = true
    ∧ ((stFactor lupEntry).unread cM lupEntry).isEmpty = false
    ∧ (({ stFactor lupEntry with marks := [cluKey cM 0x8000 / 16] } : State).columnOf cM lupEntry 0).2 = true := by decide +kernel
/-- AnvilAndCopyEvents: a factorisation that begins, its tile unmarked. -/
theorem witness_AnvilAndCopyEvents_start : ((allSeen (stFactor lupFresh) lupFresh).clu cM).ctl.head = some lupFresh
    ∧ ((allSeen (stFactor lupFresh) lupFresh).unread cM lupFresh).isEmpty = true
    ∧ (((allSeen (stFactor lupFresh) lupFresh).view cM).readMat cM (tileN 4).tile 4 fun _ _ => true).2 = false := by decide +kernel
/-- AnvilAndCopyEvents: the queued operations, their sectors read or none to read. -/
theorem witness_AnvilAndCopyEvents_queued : ((stRun { mulEntry 2 false with op := .azero }).clu cM).ctl.head.isSome = true
    ∧ ((stRun { mulEntry 2 false with op := .azero }).unread cM { mulEntry 2 false with op := .azero }).isEmpty = true
    ∧ ((stRun { mulEntry 2 false with op := .acvt, blk := { bfmt := 2 } }).view cM).rowMarked cM (tileN 0).tile (elemBytes 2) 0 = false
    ∧ (((stRun { lupEntry with op := .acvt }).modCtl cM fun x => { x with seen := [(cluKey cM 0x8000 / 16, [], true)] }).view cM).rowMarked cM (tileN 4).tile 4 0 = true
    ∧ ({ lupEntry with op := .acvt } : AnvilEntry).byRow = true ∧ ({ lupEntry with op := .azero } : AnvilEntry).byRow = false ∧ 1 < (tileN 4).tile.rows
    ∧ ((stRun { mulEntry 2 false with op := .pmapply 0 true, x := (tileN 4).tile, perm := List.range 128 }).view cM).rowMarked cM (tileN 4).tile 4 0 = false
    ∧ ((stRun { mulEntry 2 false with op := .pmapply 0 false, x := (tileN 4).tile, perm := List.range 128 }).view cM).tileMarked cM (tileN 4).tile 4 = false
    ∧ ((allSeen (stRun { lupEntry with op := .acvt }) { lupEntry with op := .acvt }).unread cM { lupEntry with op := .acvt }).isEmpty = true
    ∧ (tileN 4).tile.cols * 4 ≤ (tileN 4).tile.stride
    ∧ ((stAnvil.modCtl cM fun x => { x with wait := some (.awt 1) }).clu cM).ctl.wait = some (.awt 1) := by decide +kernel
/-- AnvilAndCopyEvents: a step with a write left, and one with none. -/
theorem witness_AnvilAndCopyEvents_applying : [[.write (cluKey cM 0x8000) (cluKey cM 0x8000) [1]], []].all (fun ws =>
    (((stFactor lupEntry).modCtl cM fun x => { x with applying := some { writes := ws } }).clu cM).ctl.head.isSome) = true := by decide +kernel
/-- R306: the worked example of `lup`, column 1: element (2, 1) is written by the swap and then by its multiplier. -/
theorem test_lup_column_order : (match lupColumn Fmt.f32 [[0xC0800000, 0xC0C00000, 0], [0xBF000000, 0xC0000000, 0x3F800000], [0xBF800000, 0xC0800000, 0x40400000]] 3 1 with
    | .done ws _ _ _ => (ws.filter fun w => w.1 == 2 && w.2.1 == 1).map (·.2.2)
    | .fault _ => []) = [0xC0000000, 0x3F000000] := by decide +kernel

/-- A copy of eight bytes, so far as it has got. -/
def copyA (done : Nat) (handle : DWord) : CopyOp :=
  { blankOp stA (.a gA) with sbase := 0x10300, dbase := 0x10400, dims := [⟨8, 1, 1⟩], handle := handle, done := done }
/-- A die whose engine 0 runs an operation, its page in the die TLB. -/
def stEngine (o : CopyOp) : State := stA.modDie gA.dieId fun x =>
  { x with engines := [(0, [o])], tlb := [⟨1, 0x10000, 13, 0x10000, true, true, true⟩] }
/-- What an element's reach comes to. -/
def reachIs (r : ElemReach) (n : Nat) : Bool :=
  match r with
  | .miss => n == 0
  | .fault => n == 1
  | .go k => n == k
/-- AnvilAndCopyEvents: an operation that runs, one that waits and one of a stopped context; the places of an element; and ends. -/
theorem witness_AnvilAndCopyEvents_copies : ((stEngine (copyA 0 0)).die gA.dieId).engine 0 = [copyA 0 0] ∧ (copyA 0 0).ended = false ∧ (copyA 8 0).ended = true
    ∧ (stEngine (copyA 0 0)).ctxStopped 0 1 = false ∧ ((stEngine (copyA 0 0)).modPkg 0 fun x => { x with stopped := true }).ctxStopped 0 1 = true
    ∧ reachIs ((stEngine (copyA 0 0)).reachElem gA.dieId (copyA 0 0) .g 0x10300 false) (hbmKey 0 0x10300) = true
    ∧ reachIs ((stEngine (copyA 0 0)).reachElem gA.dieId (copyA 0 0) .g 0x10400 true) (hbmKey 0 0x10400) = true
    ∧ reachIs ((stEngine (copyA 0 0)).reachElem gA.dieId (copyA 0 0) .g 0x20000 false) 0 = true
    ∧ reachIs (((stEngine (copyA 0 0)).modDie gA.dieId fun x => { x with tlb := [⟨1, 0x10000, 13, 0x10000, false, true, true⟩] }).reachElem gA.dieId (copyA 0 0) .g
        0x10300 false) 1 = true
    ∧ reachIs ((stEngine (copyA 0 0)).reachElem gA.dieId (copyA 0 0) .g 0x20000 true) 0 = true
    ∧ reachIs (((stEngine (copyA 0 0)).modDie gA.dieId fun x => { x with tlb := [⟨1, 0x10000, 13, 0x10000, true, false, true⟩] }).reachElem gA.dieId (copyA 0 0) .g
        0x10400 true) 1 = true
    ∧ ((stEngine (copyA 8 (BitVec.ofNat 64 objA))).die gA.dieId).tlb.any (fun t => t.covers 1 0x10500 && t.permits .user (true, true)) = true
    ∧ handleName (BitVec.ofNat 64 objA) = 0x10500 ∧ (stEngine (copyA 8 0)).placeWaits (hbmKey 0 0x10500) 8 = false := by decide +kernel
/-- A die whose operations outside its engines are those given: fired ones, and ones that their triggers ended. -/
def stLists (fired ended : List CopyOp) : State := (stEngine (copyA 0 0)).modDie gA.dieId fun x =>
  { x with engines := x.engines ++ [(firedList, fired), (endedList, ended)] }
/-- AnvilAndCopyEvents: an operation that has fired and enters the queue; a list that can be counted, one that cannot, and one of ended operations. -/
theorem witness_AnvilAndCopyEvents_lists : ((stLists [copyA 0 0] []).die gA.dieId).engine firedList = [copyA 0 0]
    ∧ ((stLists [copyA 0 0] []).die gA.dieId).opCount < 64 ∧ (stLists [copyA 0 0] []).unackedBefore (copyA 0 0).agent (copyA 0 0).before = false
    ∧ (stLists [copyA 0 0] []).ctxStopped 0 (copyA 0 0).ctx = false
    ∧ (((stEngine (copyA 0 0)).admitFired gA.dieId (((stEngine (copyA 0 0)).die gA.dieId).engine firedList)).die gA.dieId).engine 0 = [copyA 0 0]
    ∧ (stEngine (copyA 8 0)).countable gA.dieId 0 = true ∧ (stEngine (copyA 0 0)).countable gA.dieId 0 = false
    ∧ (stEngine (copyA 0 0)).countable gA.dieId endedList = false
    ∧ (stLists [] [copyA 8 0]).countable gA.dieId 0 = false ∧ (stLists [] [copyA 8 0]).countable gA.dieId endedList = true
    ∧ ((stLists [] [copyA 8 0]).die gA.dieId).engine endedList = [copyA 8 0] := by decide +kernel
/-- AnvilAndCopyEvents: the first byte of the source and of the destination. -/
theorem witness_AnvilAndCopyEvents_places : (elementAt 0x10300 0 (copyA 0 0).srcDims).toNat = 0x10300 ∧ (elementAt 0x10400 0 (copyA 0 0).dstDims).toNat = 0x10400
    ∧ isHbm (hbmKey 0 0x10400) = true := by decide +kernel

/-! ## Witnesses: misses and the die's registers -/

/-- The gang with a load held in its replay buffer, whose page has no translation. -/
def stMiss : State :=
  let a : Access := { blankAccess stA gA .load .g 8 5 .b64 (.reg 8) with lanes := [⟨0, 0x20000, none, 0, 0⟩] }
  (stTables 0).modGang gA fun x => { x with mode := .user, replay := some ⟨a, 0x10000, 4, false⟩ }
/-- A walk or its end at merge entry 0. -/
def withMerge (s : State) (m : Merge) : State := s.modDie gA.dieId fun x => { x with merge := [(0, m)] }
/-- The merge entry of the miss. -/
def mergeA (st : MergeState) : Merge := { mergeOf 0x20000 with state := st, waiters := [.gang gA] }
/-- How a walk of the page ends. -/
def walkIs (s : State) (n : Nat) : Bool :=
  match s.walk 0 1 0x20000 with
  | .mapped _ => n == 0
  | .miss _ _ none => n == 1
  | .miss _ _ (some _) => n == 2
/-- TranslationEvents: a miss whose page the die TLB holds, one covered by an entry, one that takes the lowest free entry. -/
theorem witness_TranslationEvents_miss : (stMiss.missOf (.gang gA)).any (fun m => m.ctx == 1 && m.va == 0x20000) = true ∧ stA.missOf (.gang gA) = none
    ∧ (stMiss.die gA.dieId).waits (.gang gA) = false ∧ (stMiss.die gA.dieId).tlb = []
    ∧ (((stMiss.modDie gA.dieId fun x => { x with tlb := [⟨1, 0x20000, 13, 0x200000, true, true, true⟩] }).die gA.dieId).tlb.any fun e => e.covers 1 0x20000) = true
    ∧ ((withMerge stMiss { mergeA .walking with waiters := [] }).die gA.dieId).mergeTags (fun e => e.covers 1 0x20000) = [0]
    ∧ ((withMerge stMiss { mergeA .walking with page := 0x40000, waiters := [] }).die gA.dieId).mergeTags (fun e => e.covers 1 0x20000) = []
    ∧ tfind 1 ((withMerge stMiss { mergeA .walking with page := 0x40000, waiters := [] }).die gA.dieId).merge = none
    ∧ stMiss.requesterStopped (.gang gA) = false ∧ (withG stMiss fun x => { x with preempted := true }).requesterStopped (.gang gA) = true
    ∧ tfind 0 ((withMerge stMiss { mergeA .buffered with waiters := [] }).die gA.dieId).merge = some { mergeA .buffered with waiters := [] } := by decide +kernel
/-- A table that gives every key the same entry. -/
theorem tfind_const (xs : List Nat) (m : Merge) (k : Nat) : tfind k (xs.map fun t => (t, m)) = if k ∈ xs then some m else none := by
  induction xs with
  | nil => rfl
  | cons x xs ih =>
    simp only [List.map_cons, tfind, ih, List.mem_cons]
    by_cases h : x = k
    · simp [h]
    · simp [h, show ¬k = x from fun e => h e.symm]
/-- TranslationEvents: every merge entry live, for another page. -/
theorem witness_TranslationEvents_full (x : Die)
    (h : x.merge = (List.range 512).map fun t => (t, { mergeA .walking with page := 0x40000, waiters := [] })) :
    x.mergeTags (fun e => e.covers 1 0x20000) = [] ∧ ∀ k, k < 512 → (tfind k x.merge).isSome = true := by
  have c : Merge.covers { mergeA .walking with page := 0x40000, waiters := [] } 1 0x20000 = false := by decide +kernel
  refine ⟨?_, fun k hk => ?_⟩
  · simp only [Die.mergeTags, h, tfind_const, List.filter_eq_nil_iff]
    intro k _
    split
    · next m e => split at e <;> simp_all
    · simp
  · simp [h, tfind_const, hk]
/-- TranslationEvents: walks that end in a mapping, in none, and in a first touch with a pool and a handler. -/
theorem witness_TranslationEvents_walk : walkIs (stTables (leafOf 0 0x200000 7)) 0 = true ∧ walkIs (stTables 0) 1 = true ∧ walkIs (stTables (2 ^ 61)) 2 = true
    ∧ (stTables 0).walkWaits 0 1 0x20000 = false
    ∧ ((stTables 0).modPkg 0 fun x => { x with zeroing := [(0x80000, 0x2000)] }).walkWaits 0 1 0x20000 = true
    ∧ tfind 0 ((withMerge stMiss (mergeA .walking)).die gA.dieId).merge = some (mergeA .walking)
    ∧ ((mergeA .walking).waiters.head?.bind (withMerge stMiss (mergeA .walking)).missOf).isSome = true
    ∧ (stMiss.die gA.dieId).fb.length < 2 ^ (stMiss.die gA.dieId).lg ∧ (stMiss.gang gA).mode = .user ∧ (stMiss.gang gA).replay.isSome = true
    ∧ ((stMiss.modCore gA.coreId fun x => { x with vectors := [(0, 0x10001)] }).core gA.coreId).vector 0 = some 0x10000
    ∧ tget 0 [] ((stMiss.modDie gA.dieId fun x => { x with pools := [(0, [0x200000])] }).die gA.dieId).pools ≠ [] := by decide +kernel
/-- TranslationEvents: a frame being zeroed; a pool's frame; the bound of R121 and the deadlock of R127. -/
theorem witness_TranslationEvents_others : ((stA.modPkg 0 fun x => { x with zeroing := [(0x200000, 0x2000)] }).pkg 0).zeroing.find? (fun z => z.1 == 0x200000) = some (0x200000, 0x2000)
    ∧ (0x200000 : Nat) % 2 ^ pageLg 0 = 0 ∧ (0x200000 : Nat) + 2 ^ pageLg 0 ≤ hbmSize
    ∧ ((withG stA fun x => { x with since := 256, trapA := some ⟨9, 1, 0, 1, false, 4⟩ }).gang gA).trapA.isSome = true
    ∧ ((withG stA fun x => { x with since := 256, trapC := some ⟨9, 1, 0, 1, false, 4⟩ }).gang gA).trapC.isSome = true := by decide +kernel
/-- Both slices stalled on `gsync` for the whole time. -/
def stLocked : State := withG stA fun x => { x with lockedA := 1024, lockedC := 1024, gsA := some ⟨1, 1, 1, 1⟩, gsC := some ⟨1, 1, 1, 1⟩ }
/-- TranslationEvents: a deadlock. -/
theorem witness_TranslationEvents_deadlock : 1024 ≤ (stLocked.gang gA).lockedA ∧ 1024 ≤ (stLocked.gang gA).lockedC ∧ stLocked.accessOut gA = false
    ∧ stLocked.queueStall (.a gA) = some .gsync ∧ stLocked.queueStall (.c gA) = some .gsync
    ∧ (withG stLocked fun x => { x with gsA := none, regionWait := true }).queueStall (.a gA) = some .region := by decide +kernel
/-- A gang whose next a-slice instruction takes the data of a store from a queue, its store hold full. -/
def stFullHold : State :=
  let s := withG stLocked fun x => { x with gsA := none, a := [(6, row 0x10100)], hold := List.replicate 8 { blankAccess stA gA .store .g 8 5 .b64 .none with waitsOn := some 1 } }
  { s with mem := memPuts (hbmKey 0 0x10000) (bytesOfNum (encode (.st 0 1 0 4 6 1)).toNat 4) s.mem }
/-- TranslationEvents: a deadlock on the store hold. -/
theorem witness_TranslationEvents_fullHold : stFullHold.queueStall (.a gA) = some (.hold 1) ∧ stFullHold.accessOut gA = false := by decide +kernel

/-! ## Witnesses: launches -/

/-- Package 0 booted, with context 1's page 0x20000 mapped at 0x200000: an image's header, a placement table that names core 1 of
cluster 0, and room for a status record; and queue 0 with one packet of the first generation. -/
def stBoot : State :=
  let s := (stTables (leafOf 0 0x200000 7)).modPkg 0 fun x =>
    { x with booted := true, subqs := [(0, { base := 0x300000, ctx := 1, en := true, tail := 1 })] }
  let header := bytesOfNum 0x3034395A 4 ++ bytesOfNum 1 2 ++ bytesOfNum 0 2 ++ bytesOfNum 256 4 ++ bytesOfNum 0x40 4 ++ bytesOfNum 0x40 4
    ++ bytesOfNum 0 12 ++ bytesOfNum 1 1
  let packet := bytesOfNum 0x20000 8 ++ bytesOfNum 0x20000 8 ++ bytesOfNum 0x20400 8 ++ bytesOfNum 0 8 ++ bytesOfNum 0 8 ++ bytesOfNum 0x20600 8
  let m := memPuts (hbmKey 0 0x200000) header (memPuts (hbmKey 0 0x200400) (bytesOfNum 1 8 ++ bytesOfNum (2 ^ 19) 8) s.mem)
  { s with mem := memPuts (hbmKey 0 0x300000) packet (memPuts (hbmKey 0 0x3000F8) (bytesOfNum 1 2) m) }
/-- Its packet. -/
def packetA : List Byte := stBoot.readBytes (hbmKey 0 0x300000) 256
/-- The launch that the packet names. -/
def launchA : Launch := (stBoot.checkPacket 0 1 packetA).2
/-- LaunchEvents: a tail within the ring, beyond it, backward, and of a disabled queue. -/
theorem witness_LaunchEvents_notify : ((tget 0 ({} : SubQ) (stBoot.pkg 0).subqs).en = true ∧ (tget 1 ({} : SubQ) (stBoot.pkg 0).subqs).en = false)
    ∧ ¬ 2 ^ 4 < ((16 : Word) - 0).toNat ∧ 2 ^ 4 < ((17 : Word) - 0).toNat ∧ 2 ^ 31 ≤ ((0 : Word) - 1).toNat := by decide +kernel
/-- LaunchEvents: a packet of this generation, of the next and of none. -/
theorem witness_LaunchEvents_stamp : (stBoot.pkg 0).booted = true ∧ stBoot.placeWaits (hbmKey 0 0x300000) 256 = false ∧ (stBoot.pkg 0).launches = [] ∧ (stBoot.pkg 0).saving = none
    ∧ stBoot.readNum (hbmKey 0 0x3000F8) 2 = 0 / 2 ^ 4 + 1 ∧ ((0 + 2 ^ 4) / 2 ^ 4 + 1) % 2 ^ 16 = 2 ∧ (0x300000 : Nat) + 256 ≤ hbmSize
    ∧ (stBoot.pkg 0).restoring = none ∧ stBoot.markedAt (hbmKey 0 0x3000F0) 16 = false ∧ stBoot.packetWaits 0 1 packetA = false := by decide +kernel
/-- LaunchEvents: a packet that passes every check, whose launch starts. -/
theorem witness_LaunchEvents_start : (stBoot.checkPacket 0 1 packetA).1 = 0
    ∧ (stBoot.virtPlaces 0 1 (piecesOf 8192 launchA.status.toNat 128)).isSome = true ∧ (stBoot.virtPlaces 0 1 (piecesOf 8192 0x40000 128)).isSome = false
    ∧ (stBoot.checkPacket 0 2 packetA).1 ≠ 0 ∧ launchA.places = [(0, 0, 0, 1)]
    ∧ ((stBoot.modPkg 0 fun x => { x with launches := [(0, launchA)] }).startLaunch 0 0 launchA).any (fun t => (t.gang ⟨0, 0, 0, 1, 0⟩).inUse) = true
    ∧ ((stBoot.modPkg 0 fun x => { x with launches := [(0, launchA)] }).startLaunch 0 0 { launchA with places := [(0, 0, 0, 1), (1, 0, 0, 7)], image := { launchA.image with crew := 17 } }).isNone
        = true := by decide +kernel
/-- A launch in a state, with nothing of it left. -/
def withLaunch (x : Launch) : State := stBoot.modPkg 0 fun y => { y with launches := [(0, x)] }
/-- LaunchEvents: a launch that holds and one whose time has come; one that is done, with and without an armed copy, and one that is not. -/
theorem witness_LaunchEvents_end : (withLaunch { launchA with state := .holding, start := 0 }).launchDone 0 0 { launchA with state := .accepted } = false
    ∧ (0 : Nat) ≤ ((withLaunch launchA).pkg 0).time ∧ ((withLaunch launchA).pkg 0).time < 1
    ∧ (withLaunch { launchA with state := .running }).launchDone 0 0 { launchA with state := .running } = true
    ∧ (withLaunch launchA).armedLeft 0 0 = false ∧ (withLaunch launchA).freeable 0 launchA = none
    ∧ ((withLaunch { launchA with ctls := [cM] }).modCtl cM fun x => { x with inUse := true, ended := true, launch := 0 }).launchDone 0 0 { launchA with state := .running, ctls := [cM] } = false
    ∧ ((withLaunch { launchA with ctls := [cM] }).modCtl cM fun x => { x with inUse := true, ended := true, launch := 0 }).freeable 0 { launchA with ctls := [cM] } = some cM
    ∧ (withLaunch launchA).inImage 0 launchA = false ∧ (withLaunch launchA).inImage 0 { launchA with saved := true } = true
    ∧ (withLaunch { launchA with state := .running, saved := true }).launchDone 0 0 { launchA with state := .running, code := 5 } = true
    ∧ ((withLaunch launchA).modDie gA.dieId fun x => { x with armed := [copyA 0 0] }).armedLeft 0 0 = true
    ∧ ((withLaunch launchA).pkg 0).launches.find? (fun x => x.2.status == 0x20600) = some (0, launchA) := by decide +kernel
/-- LaunchEvents: a gang that has ended. -/
theorem witness_LaunchEvents_gang : (withG stA fun x => { x with aEnd := true, cEnd := true }).gangBusy gA = false
    ∧ ((withG stA fun x => { x with aEnd := true, cEnd := true }).gang gA).inUse = true
    ∧ (withG stA fun x => { x with aEnd := true, cEnd := true }).chunkWaits 0 0 0 = false := by decide +kernel
/-- A collective of one rank on this package whose chunk has fired, or not. -/
def collA (fired : Bool) : Coll := { ranks := [0], chunks := if fired then [{ rank := 0, pieces := [([1], false)] }] else [] }
/-- LaunchEvents: a chunk that may be taken, and one that is not there. -/
theorem witness_LaunchEvents_chunk : (withLaunch { launchA with state := .running, coll := some (collA true) }).chunkOf 0 launchA (collA true) 0 = some { rank := 0, pieces := [([1], false)] }
    ∧ (withLaunch launchA).collWaits 0 1 (collA true) = false ∧ (collA true).written = [] ∧ (collA true).ranks.length = 1 ∧ (withLaunch launchA).inImage 0 launchA = false
    ∧ (withLaunch launchA).chunkOf 0 launchA (collA false) 0 = none := by decide +kernel

/-! ## Witnesses: contexts and upkeep -/

/-- ContextEvents: an image that fits where imgaddr points, and an address that is none. -/
theorem witness_ContextEvents_fits : saveFault 0x2000000 ((stA.modPkg 0 fun x => { x with imgaddr := 0x2000000 }).lengthNow 0 1) false = false
    ∧ ((stA.modPkg 0 fun x => { x with imgaddr := 0x2000000 }).pkg 0).durable 1 = false
    ∧ saveFault 1 ((stA.modPkg 0 fun x => { x with imgaddr := 1 }).lengthNow 0 1) false = true :=
  ⟨witness_PackageInstructions_image _ (by decide +kernel), by decide +kernel, by simp [saveFault]⟩
/-- ContextEvents: a context to pre-empt, and a package that saves another or restores. -/
theorem witness_ContextEvents_preempt : (4095 : DWord).toNat % 2 ^ 16 = 4095 ∧ (4096 : DWord).toNat % 2 ^ 16 = 4096 ∧ (stA.pkg 0).heldPre = [] ∧ (stA.pkg 0).cstate = 0 ∧ ((stA.modPkg 0 fun x => { x with cstate := 1, cctx := 2 }).pkg 0).cctx ≠ 1
    ∧ ((stA.modPkg 0 fun x => { x with heldPre := [(2, 0)] }).pkg 0).heldPre = [(2, 0)] := by decide +kernel
/-- A package that saves context 1. -/
def stSaving (id : Nat) : State := stA.modPkg 0 fun x => { x with cstate := 1, cctx := 1, saving := some { id := id, ctx := 1, addr := 0x2000000 } }
/-- ContextEvents: a capture with everything complete, and with an access of the context on its way; and an image to complete. -/
theorem witness_ContextEvents_capture : ((stSaving 0).ctxGangs 0 1).all (fun g => (stSaving 0).gangQuiet g) = true ∧ ((stSaving 0).ctxCtls 0 1).all (fun c => !((stSaving 0).clu c).ctl.begun) = true ∧
    (({ seen := [(0, [], false)] } : Ctl).begun = true) ∧ (stSaving 0).ctxGangs 0 1 = [gA]
    ∧ ({ stSaving 0 with flight := (stFlight .store .none 5).flight } : State).gangQuiet gA = false ∧ Memory.wf (stSaving 1).mem = true
    ∧ ((stSaving 1).pkg 0).saving = some { id := 1, ctx := 1, addr := 0x2000000 } ∧ (0x2000000 : Nat) + 128 ≤ hbmSize ∧ Memory.wf (stSaving 0).mem = true := by decide +kernel
/-- ContextEvents: an image's place can be accessed, or is being zeroed. -/
theorem witness_ContextEvents_place : (stSaving 0).imageWaits 0 { ctx := 1, addr := 0x2000000, length := 256 } = false
    ∧ ((stSaving 0).modPkg 0 fun x => { x with zeroing := [(0x2000000, 0x2000)] }).imageWaits 0 { ctx := 1, addr := 0x2000000, length := 256 } = true := by decide +kernel
/-- An image of two lines, with a second copy or none. -/
def imageA (second : Nat) : Saved := { ctx := 2, addr := 0x2000000, length := 128, second := second }
/-- A restore of an image of two lines, and of one with a second copy. -/
def stRestore (second : Nat) : State :=
  { stA.modPkg 0 fun x => { x with cstate := 3, restoring := some { image := imageA second, line := 1 } } with
    marks := [hbmKey 0 0x2000040 / 16] }
/-- ContextEvents: a line that reads with an error, with and without another copy, and one that reads well. -/
theorem witness_ContextEvents_restore : ((stRestore 0).pkg 0).restoring = some { image := imageA 0, line := 1 }
    ∧ (stRestore 0).lineBad 0 { image := imageA 0, line := 1 } = true ∧ (stRestore 0).lineBad 0 { image := imageA 0 } = false
    ∧ ((stRestore 0x2100000).pkg 0).restoring = some { image := imageA 0x2100000, line := 1 }
    ∧ (stRestore 0).imageWaits 0 (imageA 0) = false
    ∧ tfind 0 ((withLaunch launchA).pkg 0).launches = some launchA ∧ launchA.ctx = 1 ∧ launchA.code = 0 := by decide +kernel
/-- R399: a lost context ends its launches with code 5. -/
theorem test_lost_context : (((withLaunch launchA).loseContext 0 1).pkg 0).launches.map (fun l => l.2.code) = [5] := by decide +kernel
/-- A migration of the mapped page 0x20000 to a frame. -/
def stMig (st : MigState) (frame : DWord) : State := (stTables (leafOf 0 0x200000 7)).modPkg 0 fun x =>
  { x with mig := { va := 0x20000, frame := frame, state := st, old := 0x200000, newFrame := 0x400000, page := 0x20000, lg := 13, pctx := 1 } }
/-- ContextEvents: go on a mapped page and on one that is not; the final pass and its end. -/
theorem witness_ContextEvents_migration : (((stMig .idle 0x400000).modPkg 0 fun x => { x with mig := { x.mig with ctx := 1, size := 0 } }).finishZeroing 0).mappedFrame 0 1 0x20000 0 = some (0x200000, [0x82080])
    ∧ (stMig .idle 0x400000).mappedFrame 0 1 0x20000 0 = some (0x200000, [0x82080])
    ∧ (stMig .idle 0x400000).mappedFrame 0 2 0x20000 0 = none ∧ (0x40001 : DWord).getLsbD 18 = true ∧ (0x40001 : DWord).toNat % 2 ^ 16 = 1
    ∧ ((stMig .copying 0).pkg 0).mig.state = .copying ∧ ((stMig .final 0).pkg 0).mig.state = .final ∧ (stMig .final 0).migBusy 0 ((stMig .final 0).pkg 0).mig = false
    ∧ (((stMig .final 0).modPkg 0 fun x => { x with time := 40000 }).pkg 0).mig.heldSince + 40000 ≤ 40000
    ∧ ((stMig .final 0).pkg 0).time < ((stMig .final 0).pkg 0).mig.heldSince + 40000 := by decide +kernel
/-- ContextEvents: a context that is in use. -/
theorem witness_ContextEvents_entry : (stTables 0).ctxNamed 0 1 = true ∧ (tget 1 ({} : CtxEntry) ((stTables 0).pkg 0).contexts).en = true
    ∧ (tget 2 ({} : CtxEntry) ((stTables 0).pkg 0).contexts).en = false := by decide +kernel
/-- UpkeepEvents: a place that waits and one that does not; ranges of registers; a package to boot. -/
theorem witness_UpkeepEvents : (stA.modPkg 0 fun x => { x with zeroing := [(0x10000, 0x2000)] }).placeWaits (hbmKey 0 0x10000) 8 = true
    ∧ stA.placeWaits (hbmKey 0 0x10000) 8 = false ∧ (0x10000 : Nat) + 8 ≤ hbmSize ∧ Memory.wf stA.mem = true ∧ (stA.pkg 0).booted = false
    ∧ (stA.pkg 0).bootFailed = false ∧ paKind (pkgBlock + 0x30) ≠ .nothing ∧ paKind hbmSize = .nothing ∧ stackLine 23 0 < hbmSize
    ∧ (wearReset 61).days ≥ 365 ∧ (0 : DWord).toNat % 2 ^ 16 < 365 ∧ (80 : Nat) < 81
    ∧ inBar0 (pkgBlock + 0x30) = true ∧ inBar0 hbmSize = false ∧ (tget (0, 1, 2) ({} : RowErrs) (stA.pkg 0).rows).due = false
    ∧ (tget (0, 1, 2) ({} : RowErrs) ((stA.modPkg 0 fun x => { x with rows := [((0, 1, 2), { due := true })] }).pkg 0).rows).due = true := by decide +kernel

/-! ## Witnesses: the fabric at work -/

/-- Package 0 with port 3 in a state, and a route of two ports to package 5. -/
def stPort (q : Port) : State := stA.modPkg 0 fun x => { x with ports := [(3, q)], paths := [(5, { porta := 3, portb := 4, costa := 16, costb := 16 })] }
/-- The header of a keepalive of link sequence 0, before its CRC. -/
def flitHead : List Byte := bytesOfNum 6 1 ++ bytesOfNum 3 1 ++ bytesOfNum 0 10
/-- That keepalive with its CRC, its payload zeros. -/
def sentFlit : List Byte := flitHead ++ bytesOfNum (crc32 (flitHead ++ List.replicate 64 0)).toNat 4 ++ List.replicate 64 0
/-- FabricEvents: a flit in order. -/
theorem witness_FabricEvents_flit : flitOk sentFlit = true := by
  have cut (c : Nat) : ((flitHead ++ bytesOfNum c 4 ++ List.replicate 64 0).drop 12).take 4 = bytesOfNum c 4
      ∧ (flitHead ++ bytesOfNum c 4 ++ List.replicate 64 0).take 12 ++ (flitHead ++ bytesOfNum c 4 ++ List.replicate 64 0).drop 16
        = flitHead ++ List.replicate 64 0 ∧ (flitHead ++ bytesOfNum c 4 ++ List.replicate 64 0).length = 80 := ⟨rfl, rfl, rfl⟩
  have num (c : Word) : BitVec.ofNat 32 (numOf (bytesOfNum c.toNat 4)) = c := by
    simp only [bytesOfNum, numOf]
    apply BitVec.eq_of_toNat_eq
    have := c.isLt
    simp
    omega
  simp only [flitOk, sentFlit, (cut _).1, (cut _).2.1, (cut _).2.2, num, decide_true, Bool.and_self]
/-- FabricEvents: its type is known, its sequence follows the one before it, and is not in order behind another. -/
theorem witness_FabricEvents_order (c : Nat) : flitType (flitHead ++ bytesOfNum c 4 ++ List.replicate 64 0) = 6 ∧ flitLseq (flitHead ++ bytesOfNum c 4 ++ List.replicate 64 0) = 0xFFFF + 1
    ∧ ((stPort { state := 2, lanes := 0xFF, aseq := 0xFFFF }).pkg 0 |>.port 3).carries = true ∧ (0xFFFF + 1 : BitVec 16) ≠ 0 + 1 :=
  ⟨rfl, by
    have h : ((flitHead ++ bytesOfNum c 4 ++ List.replicate 64 0).drop 2).take 2 = [0, 0] := rfl
    unfold flitLseq
    rw [h]
    decide, by decide +kernel, by decide +kernel⟩
/-- Packages 0 and 1 joined by ports 3 and 4, what package 1 has sent still on its way. -/
def stLink (wire : List (List Byte)) : State :=
  (stPort { state := 2, lanes := 0xFF, aseq := 0xFFFF, ppkg := 1, pport := 4 }).modPkg 1 fun x =>
    { x with ports := [(4, { state := 2, lanes := 0xFF, ppkg := 0, pport := 3, wire := wire })] }
/-- FabricEvents: two ports that are joined, whatever the one has sent to the other, and one whose peer is down; a route's cost as the peer offers it. -/
theorem witness_FabricEvents_link (f : List Byte) : (stLink [f]).linked 0 3 = true ∧ ((stLink [f]).pkg 0 |>.port 3).carries = true
    ∧ f ∈ ((stLink [f]).peerPort ((stLink [f]).pkg 0 |>.port 3)).wire ∧ (stPort { state := 2, ppkg := 1, pport := 4 }).linked 0 3 = false
    ∧ ((stLink [f]).pkg 0 |>.port 3).ppkg ≠ 0 ∧ (stLink [f]).offered 1 1 = 0 ∧ (stLink [f]).offered 1 5 = 0xFFFF :=
  ⟨rfl, rfl, List.mem_singleton.mpr rfl, by decide +kernel, Nat.one_ne_zero, rfl, rfl⟩
/-- FabricEvents: ports that carry, with flits to send again, without keepalives, in training, and with lanes retired. -/
theorem witness_FabricEvents_ports : ({ state := 2, retry := [[]] } : Port).carries = true ∧ ({ state := 2, swapping := true } : Port).carries = false
    ∧ ({ state := 2, retry := [] } : Port).retry.length < ({ state := 2 } : Port).window ∧ (10 : Nat) ≤ ({ state := 2, missed := 10 } : Port).missed
    ∧ ({ state := 1 } : Port).state ≤ 1 ∧ ({} : Port).state = 0 ∧ ({ state := 1 } : Port).retired = [] ∧ (8 : Nat) ∉ ({ state := 3, retired := [0], spare := true } : Port).retired
    ∧ ((List.range 4).all fun n => !([0, 5].contains n)) = false ∧ ((List.range 4).all fun n => !([5, 6].contains n)) = true
    ∧ ([4, 5, 6, 7].all fun n => !([0, 1].contains n)) = true
    ∧ (tget 5 ({} : Route) ((stPort {}).pkg 0).paths).porta = 3 ∧ (tget 5 ({} : Route) ((stPort {}).pkg 0).paths).out = some 3
    ∧ (∃ l ∈ ({ state := 3, retired := [0], spare := true } : Port).retired, l < 8) ∧ ({ state := 4, lanes := 0x0F } : Port).lanes / 2 ^ 7 % 2 = 0
    ∧ ({ state := 1, retired := [8, 5] } : Port).width = some (4, 0x0F) ∧ ({ state := 2 } : Port).queue = [] ∧ ({ state := 2 } : Port).resend = 0
    ∧ (bodyOf 1 0 0 5 7).payload.length = 64 ∧ ({ state := 0 } : Port).carries = false
    ∧ ({ state := 4, retry := List.replicate 256 [] } : Port).window ≤ ({ state := 4, retry := List.replicate 256 [] } : Port).retry.length := by decide +kernel
/-- The header of a read request for package 5, before its CRC. -/
def passHead : List Byte := bytesOfNum 2 1 ++ bytesOfNum 0 5 ++ bytesOfNum 5 2 ++ bytesOfNum 0 4
/-- FabricEvents: a flit in order that goes on to another package. -/
theorem witness_FabricEvents_pass (c : Nat) : flitType (passHead ++ bytesOfNum c 4 ++ List.replicate 64 0) = 2
    ∧ flitDst (passHead ++ bytesOfNum c 4 ++ List.replicate 64 0) = 5 ∧ (passHead ++ bytesOfNum c 4 ++ List.replicate 64 0).length = 80 := ⟨rfl, rfl, rfl⟩
/-- A remote access of the gang to a package. -/
def remA (k : AccessKind) (served lost : Bool) : Remote :=
  { gang := gA, ctx := 1, sup := false, dst := 0, kind := k, size := 8, op := 0, ty := .b64, addr := 0x20000, data := 5, poison := false, lane := 0, dreg := 8
    served := served, lost := lost }
/-- That access on its way, with the page at its destination as its leaf has it. -/
def stRemote (leaf : Nat) (r : Remote) : State := { (stTables leaf).modGang gA fun x => { x with mode := .user, pending := 8 } with msgs := [(0, .remote r)] }
/-- A flit of a kind still in a sender's queue. -/
def stQueued (s : State) (kind : Nat) : State := s.modPkg 0 fun x =>
  { x with ports := [(3, { queue := [{ kind := kind, vc := 0, dst := 0, src := 0, tag := 0, payload := [] }] })] }
/-- FabricEvents: an access to a mapped page, to one that may not be written, to none and to a package that cannot be reached; and served. -/
theorem witness_FabricEvents_remote : remoteEarlier 0 (remA .store false false) (stRemote 0 (remA .store false false)).msgs = false
    ∧ (stRemote 0 (remA .store false false)).walkWaits 0 1 0x20000 = false
    ∧ ((stRemote 0 (remA .store false false)).modPkg 0 fun x => { x with zeroing := [(0x80000, 0x2000)] }).walkWaits 0 1 0x20000 = true
    ∧ (stRemote 0 (remA .store false false)).unreachable 0 0 = false ∧ (stRemote 0 (remA .store false false)).unreachable 0 1 = true
    ∧ walkIs (stRemote (leafOf 0 0x200000 7) (remA .store false false)) 0 = true ∧ walkIs (stRemote 0 (remA .store false false)) 1 = true
    ∧ (remA .store false false).permitted ⟨1, 0x20000, 13, 0x200000, true, true, true⟩ = true
    ∧ (remA .store false false).permitted ⟨1, 0x20000, 13, 0x200000, true, false, true⟩ = false
    ∧ (stRemote 0 (remA .store false false)).placeWaits (hbmKey 0 0x200000) 8 = false ∧ isHbm (hbmKey 0 0x200000) = true
    ∧ tfind 0 (stRemote 0 (remA .load true true)).msgs = some (.remote (remA .load true true))
    ∧ ((stRemote 0 (remA .load true false)).gang gA).mode = .user
    ∧ (stRemote 0 (remA .store false false)).fenceOpen gA 0 = false ∧ (stRemote 0 (remA .store false false)).inQueue 1 0 0 0 = false
    ∧ (stRemote 0 (remA .load true false)).inQueue 3 0 0 0 = false ∧ (stRemote 0 (remA .store true false)).inQueue 4 0 0 0 = false
    ∧ (stQueued (stRemote 0 (remA .store false false)) 1).inQueue 1 0 0 0 = true
    ∧ (stQueued (stRemote 0 (remA .load true false)) 3).inQueue 3 0 0 0 = true
    ∧ (stQueued (stRemote 0 (remA .store true false)) 4).inQueue 4 0 0 0 = true := by decide +kernel
/-- The states of `stRemote` with a second lane of the same load, which has been served or not. -/
def stTwin (served : Bool) : State :=
  { stRemote (leafOf 0 0x200000 7) (remA .load false false) with
    msgs := [(0, .remote (remA .load false false)), (1, .remote { remA .load served false with lane := 1 })] }
/-- FabricEvents: a lane whose location another lane has read, and one that none has; a lane that has still to be served, and none. -/
theorem witness_FabricEvents_twin : ((stTwin true).remoteTwin (remA .load false false) (hbmKey 0 0x200000)).map (·.lane) = some 1
    ∧ (stTwin false).remoteTwin (remA .load false false) (hbmKey 0 0x200000) = none
    ∧ (stTwin true).remoteLanesOut (remA .load false false) = true
    ∧ (stRemote 0 (remA .load true false)).remoteLanesOut (remA .load true false) = false := by decide +kernel
/-- A batch of one store to group 5. -/
def batchA (held : Bool) : McBatch := { gang := some gA, group := 5, items := [(0, .store 8 8 7 false, 8)], dreg := none, held := held }
/-- Group 5 with its headgate, a member at package 0, and a batch. -/
def stGroup (held : Bool) (stable next : Nat) (st : Nat) : State :=
  let s := (stTables (leafOf 0 0x200000 7)).modPkg 0 fun x =>
    { x with groups := [(5, { wva := 2, wlen := 1, ctx := 1, state := st, en := true, applied := 9 })] }
  { s with
    headgates := [(5, { next := next, stable := stable, members := [0], records := [⟨10, .store 8 8 7 false, some gA, 8, 0⟩] })]
    msgs := [(0, .batch (batchA held))] }
/-- FabricEvents: a batch within the window, at its end and beyond it; a record to apply; a member and none. -/
theorem witness_FabricEvents_groups : tfind 0 (stGroup false 0 1 2).msgs = some (.batch (batchA false)) ∧ (stGroup false 0 1 2).rehoming 5 = false
    ∧ (stGroup false 0 1 2).batchFlies 0 (batchA false) = false ∧ batchEarlier 0 (batchA false) (stGroup false 0 1 2).msgs = false
    ∧ batchEarlier 1 (batchA false) (stGroup false 0 1 2).msgs = true ∧ (stQueued (stGroup false 0 1 2) 5).inQueue 5 0 0 0 = true
    ∧ (stGroup false 0 1 2).inQueue 5 0 0 10 = false ∧ (stGroup false 0 1 2).headDead (batchA false) = false ∧ 1024 + (batchA false).items.length ≤ 0 + 1025 ∧ 0 + 1025 < 1025 + (batchA false).items.length
    ∧ ((stGroup false 0 1 2).headgate 5).records.find? (fun r => r.seq == 9 + 1) = some ⟨10, .store 8 8 7 false, some gA, 8, 0⟩
    ∧ (stGroup false 0 1 2).windowKey 0 ((stGroup false 0 1 2).group 0 5) 8 = some (hbmKey 0 0x200008)
    ∧ (stGroup false 0 1 2).walkWaits 0 1 (2 * 2 ^ 16 + 8) = false
    ∧ (stGroup false 0 1 2).memberPackage 0 ((stGroup false 0 1 2).group 0 5) = true ∧ (stGroup false 0 1 2).memberPackage 0 {} = false
    ∧ (stGroup false 0 1 4).rehoming 5 = true ∧ ((stGroup false 0 1 4).pkg 0).deadPkg 0 = false ∧ ((stGroup false 0 1 4).group 0 5).applied = 9
    ∧ ((stGroup false 0 1 5).group 0 5).state = 5 ∧ ((stGroup false 0 1 1).group 0 5).state = 1 ∧ ((stGroup false 0 1 3).group 0 6).state = 0
    ∧ ((stGroup false 0 1 2).modPkg 0 fun x => { x with paths := [(0, { dead := true })] }).headDead (batchA false) = true := by decide +kernel
/-- Phaser 7 rooted at the gang's die with signallers, and a message about it. -/
def stWeir (sig : Nat) (m : Msg) : State :=
  { stPh 2 0 with weirs := [((.die gA.dieId, 7), { sig := sig, sigNext := sig })], msgs := [(0, m)] }
/-- An arrival at that weir. -/
def arrA (phase : Word) : Arrival := ⟨7, .die gA.dieId, phase, false, none, false, none, none⟩
/-- FabricEvents: an arrival of the pending phase and of another, one that completes it, and one that does not. -/
theorem witness_FabricEvents_arrival : tfind 0 (stWeir 1 (.arrival (arrA 0))).msgs = some (.arrival (arrA 0)) ∧ ((stWeir 1 (.arrival (arrA 0))).weir (.die gA.dieId) 7).phase = 0
    ∧ ((stWeir 1 (.arrival (arrA 0))).weir (.die gA.dieId) 7).arr + 1 = 1 ∧ ((stWeir 2 (.arrival (arrA 0))).weir (.die gA.dieId) 7).arr + 1 ≠ 2
    ∧ (arrA 1).phase ≠ 0 ∧ (stWeir 1 (.arrival (arrA 0))).registrantAt 0 7 = true
    ∧ ((stWeir 1 (.arrival (arrA 0))).weir (.die gA.dieId) 7).hold = false ∧ ((stWeir 1 (.arrival (arrA 0))).entryAt (.die gA.dieId) 7).root = .die gA.dieId
    ∧ ((stWeir 1 (.arrival (arrA 0))).entryAt (.die gA.dieId) 7).en = true ∧ ((stWeir 1 (.arrival (arrA 0))).entryAt (.die gA.dieId) 7).failed = false
    ∧ ((stWeir 1 (.arrival (arrA 0))).phaser 0 7).same ((stWeir 1 (.arrival (arrA 0))).entryAt (.die gA.dieId) 7) = true
    ∧ (stWeir 1 (.arrival (arrA 0))).linkBusy 0 (arrA 0) = false := by decide +kernel
/-- A phaser of package level with an arrival at its die weir, another arrival of the same link before it or not, and its root held or not. -/
def stUp (busy hold : Bool) : State :=
  { (stPh 2 0).modPkg 0 fun x => { x with phasers := [(7, { ctx := 1, en := true, level := 1 })] } with
    weirs := [((.die gA.dieId, 7), { sig := 1, sigNext := 1 }), ((.pkg 0, 7), { sig := 1, sigNext := 1, hold := hold })]
    msgs := (if busy then [(0, .arrival { arrA 0 with weir := .pkg 0, source := some (.die gA.dieId) })] else [])
      ++ [(1, .arrival (arrA 0)), (2, .arrival { arrA 0 with weir := .pkg 0, source := some (.die gA.dieId) })] }
/-- FabricEvents: an arrival that is passed up, one behind another of its link, one at a held root, and one of a failed phaser. -/
theorem witness_FabricEvents_up : ((stUp false false).entryAt (.die gA.dieId) 7).root ≠ .die gA.dieId ∧ parentWeir (.die gA.dieId) = some (.pkg 0)
    ∧ ((stUp false false).weir (.die gA.dieId) 7).arr + 1 = ((stUp false false).weir (.die gA.dieId) 7).sig
    ∧ ((stUp false false).weir (.die gA.dieId) 7).forwarded = false
    ∧ (stUp true false).linkBusy 2 { arrA 0 with weir := .pkg 0, source := some (.die gA.dieId) } = true
    ∧ (stUp false false).linkBusy 2 { arrA 0 with weir := .pkg 0, source := some (.die gA.dieId) } = false
    ∧ ((stUp false true).weir (.pkg 0) 7).hold = true ∧ ((stUp false true).entryAt (.pkg 0) 7).root = .pkg 0
    ∧ (stPhFailed.entryAt (.die gA.dieId) 7).failed = true := by decide +kernel
/-- FabricEvents: a change on its way up, and one behind an arrival of its agent. -/
theorem witness_FabricEvents_travel : ((stUp false false).phaser 0 7).root = .pkg 0 ∧ ((stUp false false).phaser 0 7).failed = false
    ∧ parentWeir (.die gA.dieId) = some (.pkg 0) ∧ (stUp false false).changeBusy 3 ⟨7, .a gA, true, 2, 0, false, .die gA.dieId, none⟩ = false
    ∧ ({ stUp false false with msgs := [(1, .arrival { arrA 0 with agent := some (.a gA) })] } : State).changeBusy 3
        ⟨7, .a gA, true, 2, 0, false, .die gA.dieId, none⟩ = true
    ∧ (stWeir 1 (.change ⟨7, .a gA, true, 2, 0, false, .die gA.dieId, none⟩)).changeBusy 0 ⟨7, .a gA, true, 2, 0, false, .die gA.dieId, none⟩ = false
    ∧ ((stWeir 1 (.change ⟨7, .a gA, true, 2, 0, false, .die gA.dieId, none⟩)).phaser 0 7).root = .die gA.dieId := by decide +kernel
/-- An arrival at a die weir that has forwarded its own. -/
def stPassed : State := { stUp false true with weirs := [((.die gA.dieId, 7), { sig := 1, sigNext := 2, arr := 1, forwarded := true })] }
/-- FabricEvents: a weir that has forwarded its arrival of the pending phase. -/
theorem witness_FabricEvents_passed : (stPassed.weir (.die gA.dieId) 7).forwarded = true ∧ tfind 1 stPassed.msgs = some (.arrival (arrA 0))
    ∧ stPassed.linkBusy 1 (arrA 0) = false ∧ (stPassed.entryAt (.die gA.dieId) 7).root ≠ .die gA.dieId
    ∧ (stPassed.weir (.die gA.dieId) 7).phase = (arrA 0).phase := by decide +kernel
/-- R438: with hold set a joiner of the pending phase is counted above a weir that has forwarded for it. -/
theorem test_join_held : let r : State := { stUp false true with weirs :=
      [((.die gA.dieId, 7), { sig := 1, sigNext := 1, arr := 1, forwarded := true }), ((.pkg 0, 7), { sig := 1, sigNext := 1, hold := true })] }
    let s := r.takeJoin ⟨7, .m cM, true, 0, 0, false, .pkg 0, none⟩
    (s.weir (.die gA.dieId) 7).sig = 1 ∧ (s.weir (.pkg 0) 7).sig = 2 ∧ (s.regsOf (.m cM)).map (·.next) = [0] := by decide +kernel
/-- A phaser of pod level that another package enables, its root held with every arrival. -/
def stPods (p : Nat) : State :=
  { stA.modPkg (1 - p) fun x => { x with phasers := [(7, { ctx := 1, en := true, level := 2 })] } with
    weirs := [((.pod 3 0, 7), { sig := 1, sigNext := 1, arr := 1, hold := true })] }
/-- FabricEvents: an enabling write with hold clear that lets the pending phase go, on a package that does not host the root. -/
theorem witness_FabricEvents_enable : (∃ p, p < 2 ∧ Config.podHost 3 0 ≠ p)
    ∧ ∀ p, p < 2 → ((stPods p).phaser p 7).en = false ∧ ((stPods p).weir (.pod 3 0) 7).arr = ((stPods p).weir (.pod 3 0) 7).sig
      ∧ ((stPods p).weir (.pod 3 0) 7).sig ≠ 0 ∧ 1 - p ≠ p ∧ ((stPods p).phaser (1 - p) 7).en = true ∧ ((stPods p).phaser (1 - p) 7).level = 2
      ∧ ((stPods p).pkgs.all fun q => !(tget 7 ({} : Phaser) q.2.phasers).failed) = true := by
  refine ⟨?_, by decide +kernel⟩
  by_cases h : Config.podHost 3 0 = 0
  · exact ⟨1, by omega, by omega⟩
  · exact ⟨0, by omega, h⟩
/-- FabricEvents: an enabling write at the root's package, one of pod level with no phase to let go, and one with hold set. -/
theorem witness_FabricEvents_enabling : (0x200000001 : DWord).toNat / 2 ^ 32 % 4 = 2 ∧ (0x200000001 : DWord).getLsbD 4 = false ∧ (0x200000011 : DWord).getLsbD 4 = true
    ∧ (stA.weir (.pod 3 0) 7).finder = none ∧ (stA.weir (.pod 3 0) 7).sig = 0 := by decide +kernel
/-- R441: a write of the failed bit clears what the bit reads, and the phaser stays failed. -/
theorem test_failed_bit : after (exec (.phaserEntryEnWrite 0 7 0x81) stPhFailed) (fun s => (s.phaser 0 7).failed && (s.phaser 0 7).cleared) = true := by
  decide +kernel
/-- FabricEvents: a join and a leave at the root, with a signal held and without; lost weirs; and an entry that is written. -/
theorem witness_FabricEvents_membership : tfind 0 (stWeir 1 (.change ⟨7, .a gA, true, 2, 0, false, .die gA.dieId, none⟩)).msgs = some (.change ⟨7, .a gA, true, 2, 0, false, .die gA.dieId, none⟩)
    ∧ (stWeir 1 (.change ⟨7, .a gA, false, 2, 0, false, .die gA.dieId, none⟩)).heldOf (.a gA) = []
    ∧ (withG (stWeir 1 (.change ⟨7, .a gA, false, 2, 0, false, .die gA.dieId, none⟩)) fun x => { x with heldSignals := [⟨7, 1, false, none, false, 0⟩] }).heldOf (.a gA) = [⟨7, 1, false, none, false, 0⟩]
    ∧ ({ stA with weirLost := [(0, 7, true), (0, 7, false)] } : State).weirLost.contains (0, 7, true) = true
    ∧ ({ stA with weirLost := [(0, 7, true), (0, 7, false)] } : State).weirLost.contains (0, 7, false) = true
    ∧ ({ stA with weirLost := [(0, 7, false)] } : State).weirLost.contains (0, 7, true) = false
    ∧ ({ stA with weirLost := [(0, 7, false)] } : State).weirLost.contains (0, 7, false) = true ∧ stA.weirLost.contains (0, 7, false) = false ∧ ((stPh 2 0).phaser 0 7).en = true ∧ (stA.phaser 0 7).en = false
    ∧ (1 : DWord).getLsbD 0 = true ∧ (1 : DWord).toNat / 2 ^ 32 % 4 ≠ 3
    ∧ ((stWeir 1 (.change ⟨7, .a gA, true, 2, 0, false, .die gA.dieId, none⟩)).phaser 0 7).failed = false ∧ (stPhFailed.phaser 0 7).failed = true
    ∧ (withG (stWeir 1 (.change ⟨7, .a gA, false, 2, 0, false, .die gA.dieId, none⟩)) fun x => { x with heldSignals := [⟨7, 1, false, none, false, 0⟩] }).regsOf (.a gA) = [⟨7, 2, 0, 0, 0⟩]
    ∧ (stPh 2 0).registrantAt (7 / 4096) (7 % 4096) = true ∧ ((stPh 2 0).phaser 0 7).same ((stPh 2 0).phaser 0 7) = true
    ∧ ((stWeir 1 (.arrival (arrA 0))).phaser 0 7).level ≤ 1 ∧ ((stWeir 1 (.arrival (arrA 0))).phaser 0 7).rpkg = 0
    ∧ ((stUp false false).doomedPhasers 0) = [(0, 7)] := by decide +kernel

/-! ## Witnesses: frames -/

/-- RegisterAndMemoryFrames: instructions without a destination and without a write that answer a next state, and page maps. -/
theorem witness_RegisterAndMemoryFrames : noDestination (.st 0 0 0 5 6 4) = true ∧ after (exec (.st 0 0 0 5 6 4) stMem) (fun _ => true) = true
    ∧ Instr.isEvent (.add 1 1 4 6 8 0) = false ∧ writesMemory (.add 1 1 4 6 8 0) = false ∧ after (exec (.add 1 1 4 6 8 0) stR) (fun _ => true) = true
    ∧ (stCount 4).marks = [] ∧ after (exec (.cwait 4 6) (stCount 4)) (fun _ => true) = true
    ∧ after (exec (.mappg 0 4 6 8) (stTables 0)) (fun _ => true) = true ∧ after (exec (.unmappg 0 6) (stTables (leafOf 0 0x200000 7))) (fun _ => true) = true := by
  decide +kernel

end Sys2Proof.Tests
end

section
/-! SUPPORT. Reading back what a store of a number writes (R3, R217). -/

namespace Sys2Proof.Machine

/-! ## The bytes of a number (R3) -/

/-- Byte `i` of a number is the number shifted down by `i` bytes, cut to a byte. -/
theorem bytesOfNum_getD (v n i : Nat) (h : i < n) : (bytesOfNum v n).getD i 0 = BitVec.ofNat 8 (v / 2 ^ (8 * i)) := by
  induction n generalizing v i with
  | zero => omega
  | succ n ih =>
    cases i with
    | zero => simp [bytesOfNum]
    | succ i =>
      have hp : 256 * 2 ^ (8 * i) = 2 ^ (8 * (i + 1)) := by rw [Nat.mul_succ, Nat.pow_add, Nat.mul_comm]
      rw [bytesOfNum, List.getD_cons_succ, ih _ _ (by omega), Nat.div_div_eq_div_mul, hp]

/-- Bytes read one by one are the bytes read together. -/
theorem State.readBytes_eq (s : State) (bs : List Byte) (k : Nat) (h : ∀ i, i < bs.length → s.readByte (k + i) = bs.getD i 0) :
    s.readBytes k bs.length = bs := by
  induction bs generalizing k with
  | nil => rfl
  | cons b bs ih =>
    have hb : s.readByte k = b := h 0 (by simp)
    have hbs : s.readBytes (k + 1) bs.length = bs := ih (k + 1) fun i hi => by
      have hnext := h (i + 1) (by simpa using hi)
      rwa [← Nat.add_assoc, Nat.add_right_comm, List.getD_cons_succ] at hnext
    simp only [List.length_cons, State.readBytes, hb, hbs]

/-! ## A write at a home, byte by byte -/

theorem State.writeHome_readByte_inside (s : State) (k i : Nat) (bs : List Byte) (p : Bool) (h : s.Inv) (hi : i < bs.length) :
    (s.writeHome k bs p).readByte (k + i) = bs.getD i 0 := by
  rw [State.writeHome_readByte s k (k + i) bs p h, if_pos (by omega), Nat.add_sub_cancel_left]

theorem State.writeHome_readByte_outside (s : State) (k j : Nat) (bs : List Byte) (p : Bool) (h : s.Inv)
    (hj : j < k ∨ k + bs.length ≤ j) : (s.writeHome k bs p).readByte j = s.readByte j := by
  rw [State.writeHome_readByte s k j bs p h, if_neg (by omega)]

/-- A number written at a home reads back, cut to its bytes. -/
theorem State.writeHome_readNum (s : State) (k v n : Nat) (p : Bool) (h : s.Inv) :
    (s.writeHome k (bytesOfNum v n) p).readNum k n = v % 2 ^ (8 * n) := by
  have hread := State.readBytes_eq (s.writeHome k (bytesOfNum v n) p) (bytesOfNum v n) k
    fun i hi => s.writeHome_readByte_inside k i _ p h hi
  rw [bytesOfNum_length] at hread
  rw [State.readNum, hread, numOf_bytesOfNum, Nat.pow_mul]

/-- A store to HBM or to a scratchpad is a write at its home. -/
theorem State.storeAt_eq_writeHome (s : State) (k : Nat) (bs : List Byte) (p : Bool)
    (hk : isHbm k = true ∨ keyRegion k = 1 ∨ keyRegion k = 2 ∨ keyRegion k = 3) : s.storeAt k bs p = s.writeHome k bs p := by
  have hwindow : keyRegion k ≠ 4 := by
    rcases hk with hk | hk
    · simp only [isHbm, Bool.and_eq_true, beq_iff_eq] at hk; omega
    · omega
  have hblock : (keyRegion k = 0 && !isHbm k) = false := by
    rcases hk with hk | hk
    · simp [hk]
    · have : keyRegion k ≠ 0 := by omega
      simp [this]
  simp [State.storeAt, hwindow, hblock]

/-- Settles O45: a store to such a key is a write at its home (`storeAt_eq_writeHome`), whose bytes are known one by one. -/
theorem storedBytes : Obligations.StoredBytes := by
  intro s k v n p hs hk
  rw [State.storeAt_eq_writeHome s k _ p hk]
  refine ⟨State.writeHome_wf s k _ p hs, fun i hi => ?_, State.writeHome_readNum s k v n p hs, fun j hj => ?_⟩
  · rw [s.writeHome_readByte_inside k i _ p hs (by simpa using hi), bytesOfNum_getD v n i hi]
  · exact s.writeHome_readByte_outside k j _ p hs (by simpa using hj)

end Sys2Proof.Machine
end

section
/-! SUPPORT. What the tables and the memory list keep of a part that is left out or changed, and the package's upkeep one event at a time
(R10, R244, R377, R378, R393, R395, R396, R401 to R404). -/

namespace Sys2Proof.Machine

/-! ## Tables filtered or changed throughout -/

/-- A table of which the keys that a test rejects are removed. -/
theorem tget_filter_key {K V : Type} [DecidableEq K] (f : K → Bool) (k : K) (d : V) (t : Table K V) :
    tget k d (t.filter fun e => f e.1) = if f k then tget k d t else d := by
  induction t with
  | nil => simp [tget]
  | cons e t ih =>
    by_cases hk : e.1 = k
    · cases hf : f k with
      | true => simp [tget, hk, hf]
      | false => simp [hk, hf, ih]
    · cases hf : f e.1 with
      | true => simp [tget, hk, hf, ih]
      | false => simp [tget, hk, hf, ih]

/-- An entry that is not the default is changed as a whole table's change has it. -/
theorem tget_map_of_ne {K V : Type} [DecidableEq K] (f : K → V → V) (k : K) (d : V) (t : Table K V) (h : tget k d t ≠ d) :
    tget k d (t.map fun e => (e.1, f e.1 e.2)) = f k (tget k d t) := by
  induction t with
  | nil => exact absurd rfl h
  | cons e t ih =>
    by_cases hk : e.1 = k
    · simp [tget, hk]
    · simp only [tget, if_neg hk] at h
      simp [tget, hk, ih h]

/-- An entry that a whole table's change does not touch. -/
theorem tget_map_of_fixed {K V : Type} [DecidableEq K] (f : K → V → V) (k : K) (d : V) (t : Table K V) (h : ∀ v, f k v = v) :
    tget k d (t.map fun e => (e.1, f e.1 e.2)) = tget k d t := by
  induction t with
  | nil => rfl
  | cons e t ih =>
    by_cases hk : e.1 = k
    · simp [tget, hk, h]
    · simp [tget, hk, ih]

/-- Memory of which the keys that a test rejects are removed: they read zero (log entry 1). -/
theorem memGet_filter_key (f : Nat → Bool) (k lo : Nat) (m : List Host.Cell) (h : memWfFrom lo m = true) :
    memGet k (m.filter fun c => f c.1) = if f k then memGet k m else 0 := by
  induction m generalizing lo with
  | nil => simp [memGet]
  | cons c t ih =>
    simp only [memWfFrom, Bool.and_eq_true, decide_eq_true_eq] at h
    obtain ⟨⟨-, hb⟩, ht⟩ := h
    have hwf : memWfFrom c.1 (c :: t) = true := by simp only [memWfFrom, hb, ht, Nat.le_refl, decide_true, Bool.and_true]
    by_cases hk : c.1 = k
    · cases hf : f k with
      | true => simp [memGet, hk, hf]
      | false => simpa [hk, hf] using ih _ ht
    · by_cases hlt : k < c.1
      · have hzero : memGet k (c :: t) = 0 := by simp [memGet, hk, hlt]
        rw [hzero, memGet_below k c.1 _ hlt (memWfFrom_filter _ c.1 _ hwf), ite_self]
      · cases hf : f c.1 with
        | true => simp [memGet, hk, hlt, hf, ih _ ht]
        | false => simp [memGet, hk, hlt, hf, ih _ ht]

/-! ## Cold reset (R10) -/

theorem execPackageColdReset_fresh (s : State) (p : Nat) : ∃ t, exec (.packageColdReset p) s = .next t
    ∧ (∀ g, g.pkg = p → t.gang g = {}) ∧ (∀ c, c.pkg = p → t.core c = {}) ∧ (∀ c, c.pkg = p → t.clu c = {}) ∧ (∀ d, d.pkg = p → t.die d = {})
    ∧ t.pkg p = { serial := (s.pkg p).serial, idkey := (s.pkg p).idkey, minVersion := (s.pkg p).minVersion
                  bootKey := (s.pkg p).bootKey, keyDigest := (s.pkg p).keyDigest, mgmtQueues := (s.pkg p).mgmtQueues
                  images := (s.pkg p).images, nextLaunch := (s.pkg p).nextLaunch }
    ∧ (∀ q, q ≠ p → t.pkg q = s.pkg q) ∧ (∀ g, g.pkg ≠ p → t.gang g = s.gang g)
    ∧ (s.Inv → ∀ k, t.readByte k = if keyPkg k = p ∧ keyRegion k = 4 then 0 else s.readByte k) := by
  refine ⟨_, rfl, fun g hg => ?_, fun c hc => ?_, fun c hc => ?_, fun d hd => ?_, tget_tset_same .., fun q hq => ?_, fun g hg => ?_,
    fun hs k => ?_⟩
  · exact (tget_filter_key (fun g : GangId => g.pkg != p) g {} s.gangs).trans (if_neg (by simp [hg]))
  · exact (tget_filter_key (fun c : CoreId => c.pkg != p) c {} s.cores).trans (if_neg (by simp [hc]))
  · exact (tget_filter_key (fun c : CluId => c.pkg != p) c {} s.clus).trans (if_neg (by simp [hc]))
  · exact (tget_filter_key (fun d : DieId => d.pkg != p) d {} s.dies).trans (if_neg (by simp [hd]))
  · exact tget_tset_other _ _ _ _ _ hq
  · exact (tget_filter_key (fun g : GangId => g.pkg != p) g {} s.gangs).trans (if_pos (by simp [hg]))
  · refine (memGet_filter_key (fun k => !inWindows p k) k 0 s.mem hs).trans ?_
    by_cases hp : keyPkg k = p <;> by_cases hr : keyRegion k = 4 <;> simp [inWindows, hp, hr, State.readByte]

/-! ## Boot and attestation (R403, R404) -/

theorem Pkg.stageOk_iff (x : Pkg) (image : List Byte) (sig : BitVec 512) (version : Nat) :
    x.stageOk image sig version = true ↔ Config.sm3 (bytesOfNum x.bootKey.toNat 64) = x.keyDigest
      ∧ Config.sm2Valid x.bootKey (digestBytes (Config.sm3 image)) sig = true ∧ x.minVersion ≤ version := by
  simp [Pkg.stageOk, and_assoc]

/-- A queue that the management controller has after a boot stage is one that it had, or one that the release of the work dies gave
it (R201, log entry 40). -/
theorem Pkg.mgmtQueues_bootStage (x : Pkg) (clock : Nat) (image : List Byte) (sig : BitVec 512) (version reg n : Nat)
    (h : n ∈ (x.bootStage clock image sig version reg).mgmtQueues) :
    n ∈ x.mgmtQueues ∨ n < 64 ∧ (x.bootStage clock image sig version reg).booted = true := by
  unfold Pkg.bootStage at h ⊢
  split at h
  · by_cases hrelease : Config.choice clock 2 % 2 = 0
    · simp only [if_pos hrelease, mgmtChoice, List.mem_filter, List.mem_range] at h
      exact .inr ⟨h.1, by simp [*]⟩
    · exact .inl (by simpa [hrelease] using h)
  · exact .inl h

/-- What a stage that verifies leaves: its version, and its digest in its measurement register alone. -/
theorem Pkg.bootStage_of_stageOk (x : Pkg) (clock : Nat) (image : List Byte) (sig : BitVec 512) (version reg : Nat)
    (hok : x.stageOk image sig version = true) :
    (x.bootStage clock image sig version reg).version = version ∧ (x.bootStage clock image sig version reg).bootFailed = x.bootFailed
      ∧ ∀ r, tget r 0 (x.bootStage clock image sig version reg).measure =
        if r = reg then Config.sm3 (digestBytes (tget r 0 x.measure) ++ digestBytes (Config.sm3 image)) else tget r 0 x.measure := by
  simp only [Pkg.bootStage, if_pos hok]
  refine ⟨trivial, trivial, fun r => ?_⟩
  by_cases hr : r = reg
  · rw [if_pos hr, hr, tget_tset_same]
  · rw [if_neg hr, tget_tset_other _ _ _ _ _ hr]

theorem execSecureBootStage_over (s : State) (p : Nat) (image : List Byte) (sig : BitVec 512) (version : Nat) (reg : BitVec 3)
    (h : (s.pkg p).booted = true ∨ (s.pkg p).bootFailed = true) : exec (.secureBootStage p image sig version reg) s = .next s := by
  show execSecureBootStage p image sig version reg s = .next s
  rcases h with h | h <;> simp [execSecureBootStage, h]

theorem execSecureBootStage_checked (s : State) (p : Nat) (image : List Byte) (sig : BitVec 512) (version : Nat) (reg : BitVec 3)
    (hb : (s.pkg p).booted = false) (hf : (s.pkg p).bootFailed = false) :
    exec (.secureBootStage p image sig version reg) s =
      .next { s.modPkg p fun x => x.bootStage s.clock image sig version reg.toNat with clock := s.clock + 65 } := by
  show execSecureBootStage p image sig version reg s = _
  simp [execSecureBootStage, hb, hf]

theorem Pkg.reportBody_length (x : Pkg) (nonce : BitVec 256) : (x.reportBody nonce).length = 384 := by
  simp [Pkg.reportBody, digestBytes, List.length_flatMap]

/-- The report's fields before the nonce take 32 bytes (R404). -/
theorem Pkg.nonce_reportBody (x : Pkg) (nonce : BitVec 256) : ((x.reportBody nonce).drop 32).take 32 = digestBytes nonce := by
  simp only [Pkg.reportBody, List.append_assoc]
  rw [← List.append_assoc (bytesOfNum x.version 8), ← List.append_assoc, List.drop_left' (by simp), List.take_left' (by simp [digestBytes])]

theorem Pkg.attest_layout (x : Pkg) (nonce : BitVec 256) : (x.attest nonce).length = 448
    ∧ ((x.attest nonce).drop 32).take 32 = digestBytes nonce
    ∧ (x.attest nonce).drop 384
      = bytesOfNum (Config.sm2Sign x.idkey.toNat (digestBytes (Config.sm3 ((x.attest nonce).take 384)))).toNat 64 := by
  have hlen := x.reportBody_length nonce
  refine ⟨by simp [Pkg.attest, hlen], ?_, ?_⟩
  · rw [Pkg.attest, List.drop_append_of_le_length (by omega), List.take_append_of_le_length (by simp [hlen]), Pkg.nonce_reportBody]
  · simp only [Pkg.attest]
    rw [List.drop_left' hlen, List.take_left' hlen]

/-! ## The host (R244, R395) -/

theorem hbmSize_le_of_inBar0 {addr : Nat} (h : inBar0 addr = true) : hbmSize ≤ addr := by
  simp only [inBar0, Bool.and_eq_true, decide_eq_true_eq] at h
  exact Nat.le_trans (by decide) h.1

/-- A host write that lies in HBM waits for its place, and is then a write at its home (R244, R379). -/
theorem execHostWrite_hbm (s : State) (p port addr : Nat) (data : List Byte) (hd : data ≠ []) (ha : addr + data.length ≤ hbmSize) :
    exec (.hostWrite p port addr data) s =
      if s.placeWaits (hbmKey p addr) data.length then .next s else .next (s.writeHome (hbmKey p addr) data false) := by
  have hpos := List.length_pos_iff.mpr hd
  show execHostWrite p port addr data s = _
  simp only [execHostWrite]
  rw [if_neg (by omega), if_pos (by omega), List.take_of_length_le (by omega)]

/-- A host write beyond HBM reaches the control blocks through BAR0 alone (R395, log entry 40). -/
theorem execHostWrite_beyond (s : State) (p port addr : Nat) (data : List Byte) (hd : data ≠ []) (ha : hbmSize ≤ addr) :
    exec (.hostWrite p port addr data) s = if inBar0 addr then .next (s.storeBlock p addr data) else .next s := by
  have hpos := List.length_pos_iff.mpr hd
  show execHostWrite p port addr data s = _
  simp only [execHostWrite]
  rw [if_neg (by omega), if_neg (by omega)]

/-- A host write of no bytes does nothing. -/
theorem execHostWrite_nil (s : State) (p port addr : Nat) : exec (.hostWrite p port addr []) s = .next s := rfl

theorem execHostWrite_stored (s : State) (p port addr : Nat) (data : List Byte) (hs : s.Inv) (hd : data ≠ [])
    (ha : addr + data.length ≤ hbmSize) (hw : s.placeWaits (hbmKey p addr) data.length = false) :
    ∃ t, exec (.hostWrite p port addr data) s = .next t
      ∧ (∀ i, i < data.length → t.readByte (hbmKey p addr + i) = data.getD i 0)
      ∧ ∀ k, k < hbmKey p addr ∨ hbmKey p addr + data.length ≤ k → t.readByte k = s.readByte k :=
  ⟨_, (execHostWrite_hbm s p port addr data hd ha).trans (if_neg (by simp [hw])),
    fun i hi => s.writeHome_readByte_inside _ i data false hs hi, fun k hk => s.writeHome_readByte_outside _ k data false hs hk⟩

theorem execHostRead_waits (s : State) (p port addr len : Nat) (ha : addr < hbmSize) (hw : s.placeWaits (hbmKey p addr) len = true) :
    exec (.hostRead p port addr len) s = .next s := by
  show execHostRead p port addr len s = _
  simp only [execHostRead, if_pos ha, hw, if_true]

theorem execHostRead_hbm (s : State) (p port addr len : Nat) (hn : addr + len ≤ hbmSize) (ha : addr < hbmSize)
    (hw : s.placeWaits (hbmKey p addr) len = false) : exec (.hostRead p port addr len) s =
      .next (s.modPkg p fun x => x.reply (s.readBytes (hbmKey p addr) len) (s.markedAt (hbmKey p addr) len)) := by
  have hlen : min len (hbmSize - addr) = len := by omega
  show execHostRead p port addr len s = _
  simp [execHostRead, ha, hw, hlen]

/-- A host read beyond HBM returns what a control block reads, through BAR0 alone (R395, log entry 40). -/
theorem execHostRead_beyond (s : State) (p port addr len : Nat) (ha : hbmSize ≤ addr) : exec (.hostRead p port addr len) s =
    if inBar0 addr then .next (s.modPkg p fun x => x.reply (bytesOfNum (s.readAt (hbmKey p addr) len).1 len) (s.readAt (hbmKey p addr) len).2)
    else .next s := by
  show execHostRead p port addr len s = _
  simp only [execHostRead]
  rw [if_neg (by omega)]

/-! ## Base dies (R377, R378) -/

theorem Pkg.modWear_same (x : Pkg) (u : Nat) (f : Wear → Wear) :
    tget u (wearReset u) (x.modWear u f).wear = f (tget u (wearReset u) x.wear) := tget_tset_same ..

@[simp] theorem Pkg.noteRows_wear (stack : Nat) (corrected : Bool) (ns : List Nat) (x : Pkg) :
    (x.noteRows stack corrected ns).wear = x.wear := by
  induction ns generalizing x with
  | nil => rfl
  | cons n ns ih => exact ih _

@[simp] theorem Pkg.noteRows_time (stack : Nat) (corrected : Bool) (ns : List Nat) (x : Pkg) :
    (x.noteRows stack corrected ns).time = x.time := by
  induction ns generalizing x with
  | nil => rfl
  | cons n ns ih => exact ih _

/-- Poisoning lines changes marks alone (R377). -/
theorem State.poisonLines_eq (p : Nat) (pas : List Nat) (s : State) : ∃ ms, s.poisonLines p pas = { s with marks := ms } := by
  induction pas generalizing s with
  | nil => exact ⟨s.marks, rfl⟩
  | cons pa pas ih =>
    obtain ⟨ms, hms⟩ := ih (if pa < hbmSize then { s with marks := marksAfter (hbmKey p pa) 64 true s.marks } else s)
    refine ⟨ms, hms.trans ?_⟩
    split <;> rfl

@[simp] theorem State.poisonLines_mem (p : Nat) (pas : List Nat) (s : State) : (s.poisonLines p pas).mem = s.mem := by
  obtain ⟨ms, h⟩ := s.poisonLines_eq p pas
  rw [h]
@[simp] theorem State.poisonLines_issue (p : Nat) (pas : List Nat) (s : State) : (s.poisonLines p pas).issue = s.issue := by
  obtain ⟨ms, h⟩ := s.poisonLines_eq p pas
  rw [h]
@[simp] theorem State.poisonLines_gang (p : Nat) (pas : List Nat) (s : State) (g : GangId) : (s.poisonLines p pas).gang g = s.gang g := by
  obtain ⟨ms, h⟩ := s.poisonLines_eq p pas
  rw [h]; rfl
@[simp] theorem State.poisonLines_pkg (p : Nat) (pas : List Nat) (s : State) (q : Nat) : (s.poisonLines p pas).pkg q = s.pkg q := by
  obtain ⟨ms, h⟩ := s.poisonLines_eq p pas
  rw [h]; rfl

/-- A poisoned write marks the granules that it touches, and keeps every mark (R197). -/
theorem mem_marksAfter_poison (g k n : Nat) (ms : List Nat) : g ∈ marksAfter k n true ms ↔ g ∈ granules k n ∨ g ∈ ms := by
  simp only [marksAfter, if_true, List.mem_append, List.mem_filter, List.contains_iff_mem, Bool.not_eq_true', ← Bool.not_eq_true]
  tauto

theorem State.poisonLines_keeps (p g : Nat) (pas : List Nat) (s : State) (h : g ∈ s.marks) : g ∈ (s.poisonLines p pas).marks := by
  induction pas generalizing s with
  | nil => exact h
  | cons pa pas ih =>
    refine ih _ ?_
    split
    · exact (mem_marksAfter_poison ..).mpr (.inr h)
    · exact h

/-- The first granule of a range is one that it touches. -/
theorem div_mem_granules (k n : Nat) : k / 16 ∈ granules k n := List.mem_map.mpr ⟨0, by simp⟩

/-- Every line that is poisoned reads marked. -/
theorem State.poisonLines_marked (p pa : Nat) (pas : List Nat) (s : State) (hpa : pa ∈ pas) (hb : pa < hbmSize) :
    (s.poisonLines p pas).markedAt (hbmKey p pa) 64 = true := by
  refine List.any_eq_true.mpr ⟨hbmKey p pa / 16, div_mem_granules .., List.contains_iff_mem.mpr ?_⟩
  induction pas generalizing s with
  | nil => simp at hpa
  | cons q pas ih =>
    rcases List.mem_cons.mp hpa with rfl | hmem
    · refine State.poisonLines_keeps p _ pas _ ?_
      rw [if_pos hb]
      exact (mem_marksAfter_poison ..).mpr (.inl (div_mem_granules ..))
    · exact ih _ hmem

theorem State.stackErrors_mem (s : State) (p stack : Nat) (corrected bad : List Nat) : (s.stackErrors p stack corrected bad).mem = s.mem := by
  rw [State.stackErrors, State.poisonLines_mem, State.modPkg_mem]

theorem State.stackErrors_errors (s : State) (p stack : Nat) (corrected bad : List Nat) :
    (tget (14 + stack) (wearReset (14 + stack)) ((s.stackErrors p stack corrected bad).pkg p).wear).errors
      = ((tget (14 + stack) (wearReset (14 + stack)) (s.pkg p).wear).errors + corrected.length) % 2 ^ 32 := by
  simp only [State.stackErrors, State.poisonLines_pkg, State.pkg_modPkg, Pkg.noteRows_wear, Pkg.modWear_same]

/-- A row spared while its bank has a spare row left, or not (R378). -/
theorem Pkg.spareRow_counts (x : Pkg) (stack bank row : Nat) :
    tget (stack, bank) 0 (x.spareRow stack bank row).spares
        = (if tget (stack, bank) 0 x.spares < 64 then tget (stack, bank) 0 x.spares + 1 else tget (stack, bank) 0 x.spares)
      ∧ (tget (stack, bank) 0 x.spares < 64 → (x.spareRow stack bank row).rows = tdel (stack, bank, row) x.rows)
      ∧ (tget (14 + stack) (wearReset (14 + stack)) (x.spareRow stack bank row).wear).rows = (x.spareRow stack bank row).rowsLeft stack := by
  by_cases hleft : tget (stack, bank) 0 x.spares < 64
  · simp only [Pkg.spareRow, if_pos hleft]
    exact ⟨tget_tset_same .., fun _ => rfl, congrArg Wear.rows (Pkg.modWear_same ..)⟩
  · simp only [Pkg.spareRow, if_neg hleft]
    exact ⟨rfl, fun h => (hleft h).elim, congrArg Wear.rows (Pkg.modWear_same ..)⟩

/-! ## Temperature (R401) -/

theorem execThermalStop_stops (s : State) (p : Nat) : ∃ t, exec (.thermalStop p) s = .next t ∧ t.mem = s.mem ∧ (t.pkg p).stopped = true
    ∧ (∀ g, g.pkg = p → (s.gang g).inUse = true → t.gang g = { s.gang g with preempted := true })
    ∧ (∀ g, g.pkg ≠ p → t.gang g = s.gang g)
    ∧ ∀ c, c.pkg = p → (s.clu c).ctl.inUse = true → (t.clu c).ctl.preempted = true := by
  refine ⟨_, rfl, rfl, congrArg Pkg.stopped (State.pkg_modPkg s p fun x => { x with stopped := true }), fun g hg hu => ?_, fun g hg => ?_, fun c hc hu => ?_⟩
  · have hne : s.gang g ≠ {} := fun h => by simp [h] at hu
    exact (tget_map_of_ne (fun (g : GangId) (x : Gang) => if g.pkg = p && true then { x with preempted := true } else x) g {} s.gangs hne).trans
      (if_pos (by simp [hg]))
  · exact tget_map_of_fixed (fun (g : GangId) (x : Gang) => if g.pkg = p && true then { x with preempted := true } else x) g {} s.gangs
      (by simp [hg])
  · have hne : s.clu c ≠ {} := fun h => by simp [h] at hu
    exact (congrArg (fun x : Clu => x.ctl.preempted) (tget_map_of_ne
      (fun (c : CluId) (x : Clu) => if c.pkg = p && true then { x with ctl := { x.ctl with preempted := true } } else x) c {} s.clus hne)).trans
      (by simp [hc])

/-! ## Wear (R402, R396) -/

/-- The routing entry of the wear alert, without whether it is pending. -/
def Pkg.wearRoute (x : Pkg) : IntRoute := { (tget 77 {} x.routes : IntRoute) with pending := false }

/-- The wear alert has been given: its message is among those sent, or its source is pending. -/
def Pkg.wearAlerted (x : Pkg) : Prop :=
  (x.wearRoute.enable = true → (x.wearRoute.port, x.wearRoute.vector) ∈ x.sent)
    ∧ (x.wearRoute.enable = false → (tget 77 {} x.routes : IntRoute).pending = true)

theorem Pkg.wearRoute_interrupt (x : Pkg) : (x.interrupt 77).wearRoute = x.wearRoute := by
  simp only [Pkg.interrupt]
  split
  · rfl
  · simp [Pkg.wearRoute, tget_tset_same]

theorem Pkg.wearAlerted_interrupt (x : Pkg) : (x.interrupt 77).wearAlerted := by
  rw [Pkg.wearAlerted, Pkg.wearRoute_interrupt]
  cases he : (tget 77 {} x.routes : IntRoute).enable with
  | true => simp [Pkg.interrupt, Pkg.wearRoute, he]
  | false => simp [Pkg.interrupt, Pkg.wearRoute, he, tget_tset_same]

@[simp] theorem Pkg.interrupt_wear (x : Pkg) (n : Nat) : (x.interrupt n).wear = x.wear := by
  simp only [Pkg.interrupt]
  split <;> rfl

/-- One wear record recomputed: the alert fires where it falls below a year. -/
def Pkg.recomputeWearOne (x : Pkg) (u : Nat) (v : DWord) : Pkg :=
  let y := { x with wear := tset u (x.wearRecord u v) x.wear }
  if 365 ≤ (tget u (wearReset u) x.wear).days ∧ v.toNat % 2 ^ 16 < 365 then y.interrupt 77 else y

theorem Pkg.recomputeWear_cons (x : Pkg) (u : Nat) (v : DWord) (vs : List DWord) (hu : u < 62) :
    x.recomputeWear u (v :: vs) = (x.recomputeWearOne u v).recomputeWear (u + 1) vs := by
  rw [Pkg.recomputeWear, if_neg (by omega)]
  simp [Pkg.recomputeWearOne, Pkg.wearRecord]

theorem Pkg.recomputeWear_end (x : Pkg) (u : Nat) (vs : List DWord) (hu : 62 ≤ u) : x.recomputeWear u vs = x := by
  cases vs with
  | nil => rfl
  | cons v vs => rw [Pkg.recomputeWear, if_pos hu]

theorem Pkg.recomputeWearOne_wear (x : Pkg) (u : Nat) (v : DWord) :
    (x.recomputeWearOne u v).wear = tset u (x.wearRecord u v) x.wear := by
  simp only [Pkg.recomputeWearOne]
  split
  · rw [Pkg.interrupt_wear]
  · rfl

theorem Pkg.recomputeWearOne_wearRoute (x : Pkg) (u : Nat) (v : DWord) : (x.recomputeWearOne u v).wearRoute = x.wearRoute := by
  simp only [Pkg.recomputeWearOne]
  split
  · exact Pkg.wearRoute_interrupt _
  · rfl

theorem Pkg.recomputeWearOne_keeps_wearAlerted (x : Pkg) (u : Nat) (v : DWord) (h : x.wearAlerted) : (x.recomputeWearOne u v).wearAlerted := by
  simp only [Pkg.recomputeWearOne]
  split
  · exact Pkg.wearAlerted_interrupt _
  · exact h

/-- A property that every record keeps is kept by all of them. -/
theorem Pkg.recomputeWear_induct {P : Pkg → Prop} (step : ∀ x u v, P x → P (x.recomputeWearOne u v)) (vs : List DWord) (x : Pkg) (u : Nat)
    (h : P x) : P (x.recomputeWear u vs) := by
  induction vs generalizing x u with
  | nil => exact h
  | cons v vs ih =>
    by_cases hu : u < 62
    · rw [Pkg.recomputeWear_cons x u v vs hu]
      exact ih _ _ (step x u v h)
    · rwa [Pkg.recomputeWear_end x u _ (by omega)]

theorem Pkg.recomputeWear_wearRoute (vs : List DWord) (x : Pkg) (u : Nat) : (x.recomputeWear u vs).wearRoute = x.wearRoute :=
  Pkg.recomputeWear_induct (P := fun y => y.wearRoute = x.wearRoute) (fun y u v h => (y.recomputeWearOne_wearRoute u v).trans h) vs x u rfl

/-- Records below the first that is recomputed stay. -/
theorem Pkg.recomputeWear_below (vs : List DWord) (x : Pkg) (u w : Nat) (d : Wear) (h : w < u) :
    tget w d (x.recomputeWear u vs).wear = tget w d x.wear := by
  induction vs generalizing x u with
  | nil => rfl
  | cons v vs ih =>
    by_cases hu : u < 62
    · rw [Pkg.recomputeWear_cons x u v vs hu, ih _ _ (by omega), Pkg.recomputeWearOne_wear, tget_tset_other _ _ _ _ _ (by omega)]
    · rw [Pkg.recomputeWear_end x u _ (by omega)]

/-- A record that is recomputed holds what was measured (R402). -/
theorem Pkg.recomputeWear_record (vs : List DWord) (x : Pkg) (u i : Nat) (d : Wear) (hi : i < vs.length) (hu : u + i < 62) :
    (tget (u + i) d (x.recomputeWear u vs).wear).days = (vs.getD i 0).toNat % 2 ^ 16
      ∧ (tget (u + i) d (x.recomputeWear u vs).wear).errors = (vs.getD i 0).toNat / 2 ^ 32 := by
  induction vs generalizing x u i with
  | nil => simp at hi
  | cons v vs ih =>
    rw [Pkg.recomputeWear_cons x u v vs (by omega)]
    cases i with
    | zero => 
      rw [Nat.add_zero, Pkg.recomputeWear_below vs _ _ _ _ (Nat.lt_succ_self u), Pkg.recomputeWearOne_wear, tget_tset_same]
      exact ⟨rfl, rfl⟩
    | succ i =>
      rw [← Nat.add_assoc, Nat.add_right_comm]
      exact ih _ _ _ (by simpa using hi) (by omega)

/-- The alert is given where a record falls below a year (R402). -/
theorem Pkg.recomputeWear_wearAlerted (vs : List DWord) (x : Pkg) (u i : Nat) (hi : i < vs.length) (hu : u + i < 62)
    (hold : 365 ≤ (tget (u + i) (wearReset (u + i)) x.wear).days) (hnew : (vs.getD i 0).toNat % 2 ^ 16 < 365) :
    (x.recomputeWear u vs).wearAlerted := by
  induction vs generalizing x u i with
  | nil => simp at hi
  | cons v vs ih =>
    rw [Pkg.recomputeWear_cons x u v vs (by omega)]
    cases i with
    | zero =>
      have halert : (x.recomputeWearOne u v).wearAlerted := by
        rw [Pkg.recomputeWearOne, if_pos ⟨hold, hnew⟩]
        exact Pkg.wearAlerted_interrupt _
      exact Pkg.recomputeWear_induct Pkg.recomputeWearOne_keeps_wearAlerted vs _ _ halert
    | succ i =>
      have hsucc : u + (i + 1) = u + 1 + i := by omega
      rw [hsucc] at hold hu
      refine ih _ _ i (by simpa using hi) hu ?_ hnew
      rwa [Pkg.recomputeWearOne_wear, tget_tset_other _ _ _ _ _ (by omega)]

/-! ## Interrupt routing (R396) -/

theorem Pkg.writeRoute_entry (x : Pkg) (n : Nat) (v : DWord) :
    (tget n {} (x.writeRoute n v).routes : IntRoute) = ⟨v.toNat % 2 ^ 11, v.toNat / 2 ^ 11 % 2, v.getLsbD 12,
      (tget n {} x.routes : IntRoute).pending && !v.getLsbD 12⟩ := by
  simp only [Pkg.writeRoute]
  split <;> exact tget_tset_same ..

theorem Pkg.writeRoute_sent (x : Pkg) (n : Nat) (v : DWord) : (x.writeRoute n v).sent =
    if v.getLsbD 12 && (tget n {} x.routes : IntRoute).pending then x.sent ++ [(v.toNat / 2 ^ 11 % 2, v.toNat % 2 ^ 11)] else x.sent := by
  simp only [Pkg.writeRoute]
  split <;> rfl

end Sys2Proof.Machine
end

section
/-! SUPPORT. Register writes (R7, R375), and the cycle of a core (R107, R191). -/

namespace Sys2Proof.Machine

/-! ## Registers of the package control block (R375) -/

/-- A store to a control block that is not aligned, or to an address that names nothing, is ignored (R330, R375). -/
theorem State.storeBlock_ignored (s : State) (p pa : Nat) (bs : List Byte) (h : pa % 8 ≠ 0 ∨ paKind pa = .nothing) :
    s.storeBlock p pa bs = s := by
  rcases h with ha | hk
  · simp [State.storeBlock, ha]
  · simp [State.storeBlock, hk]

theorem execRegisterWrite_ignored (s : State) (p addr : Nat) (v : DWord) (h : addr % 8 ≠ 0 ∨ paKind addr = .nothing) :
    exec (.registerWrite p addr v) s = .next s :=
  congrArg Host.Outcome.next (s.storeBlock_ignored p addr (bytesOfNum v.toNat 8) h)

theorem paKind_pkgBlock (off : Nat) (h : off < 0x100000) : paKind (pkgBlock + off) = .pkg off := by
  have hhbm : ¬ pkgBlock + off < hbmSize := by rw [pkgBlock, hbmSize]; omega
  have hdie : ¬ (dieBlocks ≤ pkgBlock + off ∧ pkgBlock + off < dieBlocks + 12 * 0x10000) := by rw [pkgBlock, dieBlocks]; omega
  have hpkg : pkgBlock ≤ pkgBlock + off ∧ pkgBlock + off < pkgBlock + 0x100000 := by omega
  simp only [paKind, if_neg hhbm, Bool.and_eq_true, decide_eq_true_eq, if_neg hdie, if_pos hpkg, Nat.add_sub_cancel_left]

theorem pkgBlock_mod_eight (off : Nat) : (pkgBlock + off) % 8 = off % 8 := by
  rw [pkgBlock]; omega

/-- An aligned store of eight bytes to the package control block (R375). -/
theorem State.storeBlock_pkgBlock (s : State) (p off : Nat) (v : DWord) (ho : off < 0x100000) (ha : off % 8 = 0) :
    s.storeBlock p (pkgBlock + off) (bytesOfNum v.toNat 8) = s.storePkg p off v := by
  have hv : BitVec.ofNat 64 (numOf (bytesOfNum v.toNat 8)) = v := by
    rw [numOf_bytesOfNum, Nat.mod_eq_of_lt (show v.toNat < 256 ^ 8 from v.isLt), BitVec.ofNat_toNat, BitVec.setWidth_eq]
  simp [State.storeBlock, pkgBlock_mod_eight, ha, paKind_pkgBlock off ho, hv]

/-- An aligned write to the package control block's registers below `0x1000`. -/
theorem execRegisterWrite_low (s : State) (p off : Nat) (v : DWord) (ho : off < 0x1000) (ha : off % 8 = 0) :
    exec (.registerWrite p (pkgBlock + off) v) s = .next (s.storePkgLow p off v) :=
  congrArg Host.Outcome.next ((s.storeBlock_pkgBlock p off v (by omega) ha).trans (if_pos ho))

/-- An aligned load of eight bytes from the package control block reads a word of it (R330). -/
theorem State.readAt_pkgBlock (s : State) (p off : Nat) (ho : off < 0x100000) (ha : off % 8 = 0) :
    s.readAt (hbmKey p (pkgBlock + off)) 8 = ((s.pkg p).word off, false) := by
  have hlt : pkgBlock + off < 2 ^ 56 := by rw [pkgBlock]; omega
  have hpa : keyPa (hbmKey p (pkgBlock + off)) = pkgBlock + off := by rw [keyPa, hbmKey]; omega
  have hpkg : keyPkg (hbmKey p (pkgBlock + off)) = p := by rw [keyPkg, hbmKey]; omega
  have hregion : keyRegion (hbmKey p (pkgBlock + off)) = 0 := by rw [keyRegion, hbmKey]; omega
  simp [State.readAt, hregion, hpa, hpkg, paKind_pkgBlock off ho, ha]

theorem Pkg.word_imgaddr (x : Pkg) : x.word 0x20 = x.imgaddr.toNat := rfl
theorem Pkg.word_powcap (x : Pkg) : x.word 0x30 = x.powcap := rfl
theorem Pkg.word_migVa (x : Pkg) : x.word 0x40 = x.mig.va.toNat := rfl
theorem Pkg.word_migFrame (x : Pkg) : x.word 0x50 = x.mig.frame.toNat := rfl

theorem execRegisterWrite_imgaddr (s : State) (p : Nat) (v : DWord) :
    exec (.registerWrite p (pkgBlock + 0x20) v) s = .next (s.modPkg p fun x => { x with imgaddr := v })
      ∧ (s.modPkg p fun x => { x with imgaddr := v }).readAt (hbmKey p (pkgBlock + 0x20)) 8 = (v.toNat, false) := by
  refine ⟨execRegisterWrite_low s p 0x20 v (by omega) (by omega), ?_⟩
  rw [State.readAt_pkgBlock _ _ _ (by omega) (by omega), State.pkg_modPkg, Pkg.word_imgaddr]

/-- A power limit within its range is stored (R401). -/
theorem execRegisterWrite_powcap (s : State) (p : Nat) (v : DWord) (hlo : 1000 ≤ v.toNat % 2 ^ 16) (hhi : v.toNat % 2 ^ 16 ≤ 10000) :
    ∃ t, exec (.registerWrite p (pkgBlock + 0x30) v) s = .next t ∧ t.mem = s.mem
      ∧ t.readAt (hbmKey p (pkgBlock + 0x30)) 8 = (v.toNat % 2 ^ 16, false) := by
  have hvalue : powcapValue (v.toNat % 2 ^ 16) s.clock = v.toNat % 2 ^ 16 := by 
    rw [powcapValue, if_pos (by simp only [Bool.and_eq_true, decide_eq_true_eq]; exact ⟨hlo, hhi⟩)]
  refine ⟨s.writePowcap p v, execRegisterWrite_low s p 0x30 v (by omega) (by omega), rfl, ?_⟩
  rw [State.readAt_pkgBlock _ _ _ (by omega) (by omega), Pkg.word_powcap]
  exact congrArg (·, false) ((congrArg Pkg.powcap (State.pkg_modPkg s p fun x =>
    { x with powcap := powcapValue (v.toNat % 2 ^ 16) s.clock })).trans hvalue)

/-- The address and the frame of a migration are stored as they are (R380). -/
theorem execRegisterWrite_mig (s : State) (p addr : Nat) (v : DWord) (h : addr = pkgBlock + 0x40 ∨ addr = pkgBlock + 0x50) :
    ∃ t, exec (.registerWrite p addr v) s = .next t ∧ t.mem = s.mem ∧ t.readAt (hbmKey p addr) 8 = (v.toNat, false) := by
  rcases h with rfl | rfl
  · refine ⟨_, execRegisterWrite_low s p 0x40 v (by omega) (by omega), rfl, ?_⟩
    rw [State.readAt_pkgBlock _ _ _ (by omega) (by omega), Pkg.word_migVa]
    exact congrArg (fun x : Pkg => (x.mig.va.toNat, false)) (State.pkg_modPkg s p fun x => { x with mig := { x.mig with va := v } })
  · refine ⟨_, execRegisterWrite_low s p 0x50 v (by omega) (by omega), rfl, ?_⟩
    rw [State.readAt_pkgBlock _ _ _ (by omega) (by omega), Pkg.word_migFrame]
    exact congrArg (fun x : Pkg => (x.mig.frame.toNat, false)) (State.pkg_modPkg s p fun x => { x with mig := { x.mig with frame := v } })

/-- The clock, the migration's status and the count of lost writes are read-only. -/
theorem execRegisterWrite_readOnly (s : State) (p addr : Nat) (v : DWord)
    (h : addr = pkgBlock + 0x38 ∨ addr = pkgBlock + 0x58 ∨ addr = pkgBlock + 0x900) : exec (.registerWrite p addr v) s = .next s := by
  rcases h with rfl | rfl | rfl
  · exact execRegisterWrite_low s p 0x38 v (by omega) (by omega)
  · exact execRegisterWrite_low s p 0x58 v (by omega) (by omega)
  · exact execRegisterWrite_low s p 0x900 v (by omega) (by omega)

/-! ## What a cycle leaves alone beside its selection -/

/-- What the upkeep of a cycle (its stall counts and its bit errors) leaves: memory, the issue list, the wait counts of the a-slices
and the time bases. -/
structure State.KeepsWaits (s t : State) : Prop where
  mem : t.mem = s.mem
  issue : t.issue = s.issue
  waitA : ∀ g, (t.gang g).waitA = (s.gang g).waitA
  time : ∀ p, (t.pkg p).time = (s.pkg p).time

theorem State.KeepsWaits.of_eq {s t : State} (hm : t.mem = s.mem) (hi : t.issue = s.issue) (hg : t.gangs = s.gangs) (hp : t.pkgs = s.pkgs) :
    s.KeepsWaits t :=
  ⟨hm, hi, fun g => by rw [State.gang, hg]; rfl, fun p => by rw [State.pkg, hp]; rfl⟩

theorem State.KeepsWaits.refl (s : State) : s.KeepsWaits s := .of_eq rfl rfl rfl rfl

theorem State.KeepsWaits.trans {s t u : State} (h : s.KeepsWaits t) (k : t.KeepsWaits u) : s.KeepsWaits u :=
  ⟨k.mem.trans h.mem, k.issue.trans h.issue, fun g => (k.waitA g).trans (h.waitA g), fun p => (k.time p).trans (h.time p)⟩

theorem State.keepsWaits_modGang (s : State) (g : GangId) (f : Gang → Gang) (h : ∀ x, (f x).waitA = x.waitA) :
    s.KeepsWaits (s.modGang g f) := by
  refine ⟨rfl, rfl, fun k => ?_, fun _ => rfl⟩
  by_cases hk : k = g
  · rw [hk, State.gang_modGang, h]
  · rw [State.gang_modGang_other _ _ _ _ hk]

theorem State.keepsWaits_modPkg (s : State) (p : Nat) (f : Pkg → Pkg) (h : ∀ x, (f x).time = x.time) : s.KeepsWaits (s.modPkg p f) := by
  refine ⟨rfl, rfl, fun _ => rfl, fun q => ?_⟩
  by_cases hq : q = p
  · rw [hq, State.pkg_modPkg, h]
  · rw [State.pkg_modPkg_other _ _ _ _ hq]

theorem State.keepsWaits_poisonLines (s : State) (p : Nat) (pas : List Nat) : s.KeepsWaits (s.poisonLines p pas) :=
  ⟨by simp, by simp, by simp, by simp⟩

/-! ## Stalls (R107, R127) -/

theorem Gang.countA_waitA (x : Gang) (pops : Bool) (st : Option Stall) : (x.countA pops st).waitA = x.waitA := by
  unfold Gang.countA
  split
  · rfl
  · split <;> rfl

theorem Gang.countC_waitA (x : Gang) (st : Option Stall) : (x.countC st).waitA = x.waitA := by
  unfold Gang.countC
  split <;> rfl

theorem State.keepsWaits_countStalls (s : State) (g : GangId) : s.KeepsWaits (s.countStalls g) := by
  simp only [State.countStalls]
  split
  · exact .refl s
  · refine ⟨rfl, rfl, fun k => ?_, fun _ => rfl⟩
    by_cases hk : k = g
    · rw [hk, State.gang_setGang]
      exact (Gang.countC_waitA ..).trans (Gang.countA_waitA ..)
    · rw [State.gang_setGang_other _ _ _ _ hk]

theorem State.keepsWaits_countAllStalls (gs : List GangId) (s : State) : s.KeepsWaits (s.countAllStalls gs) := by
  induction gs generalizing s with
  | nil => exact .refl s
  | cons g gs ih => exact (s.keepsWaits_countStalls g).trans (ih _)

/-! ## Bit errors (log entry 34) -/

theorem Gang.writeA_waitA (x : Gang) (code : Nat) (m : Word) (f : Nat → Val) : (x.writeA code m f).waitA = x.waitA := by
  unfold Gang.writeA
  repeat' split
  all_goals rfl

theorem State.keepsWaits_stackErrors (s : State) (p stack : Nat) (corrected bad : List Nat) : s.KeepsWaits (s.stackErrors p stack corrected bad) :=
  (s.keepsWaits_modPkg p _ fun x => by simp only [Pkg.noteRows_time]; rfl).trans (State.keepsWaits_poisonLines _ p _)

theorem State.keepsWaits_refetch (s : State) (p pa : Nat) : s.KeepsWaits (s.refetch p pa) := by
  unfold State.refetch
  split
  · exact s.keepsWaits_poisonLines p [pa]
  · exact .refl s

/-- A bit error in a gang is counted at its core where the gang is in use. -/
theorem State.keepsWaits_gangError (s : State) (c : CoreId) (g : GangId) (f : Gang → Gang) (h : ∀ x, (f x).waitA = x.waitA) :
    s.KeepsWaits (if (s.gang g).inUse then (s.modGang g f).modCore c fun x => { x with poison := x.poison + 1 } else s) := by
  split
  · exact (s.keepsWaits_modGang g f h).trans (.of_eq rfl rfl rfl rfl)
  · exact .refl s

/-- Whatever bit error the free choices bring, the cycle's selection is left alone. -/
theorem State.keepsWaits_bitError (s : State) (c : CoreId) : s.KeepsWaits (s.bitError c) := by
  have hcorr : s.KeepsWaits ({ s with clock := s.clock + 6 }.modCore c fun x =>
      { x with corr := x.corr + BitVec.ofNat 32 (Config.choice (s.clock + 0) (2 ^ 32) % 2 ^ 32) }) := .of_eq rfl rfl rfl rfl
  simp only [State.bitError]
  refine hcorr.trans ?_
  split
  · exact .of_eq rfl rfl rfl rfl
  · exact State.keepsWaits_gangError _ c _ _ fun x => Gang.writeA_waitA _ _ _ _
  · exact State.keepsWaits_gangError _ c _ _ fun x => rfl
  · exact State.keepsWaits_gangError _ c _ _ fun x => rfl
  · exact State.keepsWaits_gangError _ c _ _ fun x => rfl
  · exact .of_eq rfl rfl rfl rfl
  · exact .of_eq rfl rfl rfl rfl
  · exact .of_eq rfl rfl rfl rfl
  · exact .of_eq rfl rfl rfl rfl
  · exact State.keepsWaits_gangError _ c _ _ fun x => rfl
  · exact State.keepsWaits_refetch _ _ _
  · exact State.keepsWaits_stackErrors _ _ _ _ _
  · exact State.keepsWaits_stackErrors _ _ _ _ _
  · exact .of_eq rfl rfl rfl rfl
  · exact .refl _

/-! ## Selection (R191) -/

theorem insertBy_perm {α : Type} (before : α → α → Bool) (x : α) (xs : List α) : (insertBy before x xs).Perm (x :: xs) := by
  induction xs with
  | nil => exact .refl _
  | cons y ys ih =>
    unfold insertBy
    split
    · exact .refl _
    · exact (ih.cons y).trans (.swap x y ys)

theorem sortBy_perm {α : Type} (before : α → α → Bool) (xs : List α) : (sortBy before xs).Perm xs := by
  induction xs with
  | nil => exact .refl _
  | cons x xs ih => exact (insertBy_perm _ x _).trans (ih.cons x)

theorem pick_sublist (pipes : Nat) (xs : List Cand) : (pick pipes xs).Sublist (xs.map Cand.gang) := by
  induction xs generalizing pipes with
  | nil => exact .slnil
  | cons x xs ih =>
    simp only [pick]
    generalize (if x.both then 2 else 1) = need
    split
    · exact (ih _).cons_cons _
    · exact (ih _).cons _

/-- Each candidate takes a pipe at least, so there are no more of them than pipes. -/
theorem pick_length_le (pipes : Nat) (xs : List Cand) : (pick pipes xs).length ≤ pipes := by
  induction xs generalizing pipes with
  | nil => exact Nat.zero_le _
  | cons x xs ih =>
    have hneed : 1 ≤ if x.both then 2 else 1 := by split <;> omega
    simp only [pick]
    generalize (if x.both then 2 else 1) = need at hneed ⊢
    split
    · have hrest := ih (pipes - need)
      rw [List.length_cons]
      omega
    · exact ih _

theorem State.issuers_length_le (s : State) (aSide : Bool) (gs : List GangId) : (s.issuers aSide gs).length ≤ 2 := pick_length_le 2 _

/-- Those that issue are some of the gangs that are ready, in another order. -/
theorem State.issuers_sublist (s : State) (aSide : Bool) (gs : List GangId) : ∃ l, l.Perm gs ∧ (s.issuers aSide gs).Sublist l := by
  refine ⟨_, ?_, pick_sublist 2 _⟩
  refine ((sortBy_perm Cand.before _).map Cand.gang).trans ?_
  simp [Function.comp_def]

theorem State.issuers_nodup (s : State) (aSide : Bool) {gs : List GangId} (h : gs.Nodup) : (s.issuers aSide gs).Nodup := by
  obtain ⟨l, hperm, hsub⟩ := s.issuers_sublist aSide gs
  exact hsub.nodup (hperm.nodup_iff.mpr h)

theorem State.issuers_subset (s : State) (aSide : Bool) (gs : List GangId) : s.issuers aSide gs ⊆ gs := by
  obtain ⟨l, hperm, hsub⟩ := s.issuers_sublist aSide gs
  exact fun _ hg => hperm.subset (hsub.subset hg)

theorem slotsOf_nodup (c : CoreId) : (slotsOf c).Nodup :=
  List.nodup_range.map fun _ _ h => congrArg GangId.slot h

theorem mem_slotsOf {c : CoreId} {g : GangId} : g ∈ slotsOf c ↔ ∃ n, n < 16 ∧ c.slot n = g := by simp [slotsOf]

theorem State.readyGangs_nodup (s : State) (c : CoreId) (unit : GangId → UnitId) : (s.readyGangs c unit).Nodup :=
  (slotsOf_nodup c).filter _

theorem State.readyGangs_subset (s : State) (c : CoreId) (unit : GangId → UnitId) : s.readyGangs c unit ⊆ slotsOf c :=
  List.filter_subset_self _

theorem State.mem_ctlIssuers {s : State} {c : CoreId} {u : UnitId} (h : u ∈ s.ctlIssuers c) : c.core = 0 ∧ u = .m c.cluId := by
  unfold State.ctlIssuers at h
  split at h
  · rename_i hready
    simp only [Bool.and_eq_true, decide_eq_true_eq] at hready
    exact ⟨hready.1, List.mem_singleton.mp h⟩
  · simp at h

theorem State.ctlIssuers_nodup (s : State) (c : CoreId) : (s.ctlIssuers c).Nodup := by
  unfold State.ctlIssuers
  split
  · exact List.nodup_singleton _
  · exact List.nodup_nil

/-! ## Wait counts (R191) -/

theorem State.updateWaits_mem (aSide : Bool) (chosen gs : List GangId) (s : State) : (s.updateWaits aSide chosen gs).mem = s.mem := by
  induction gs generalizing s with
  | nil => rfl
  | cons g gs ih => exact ih _

theorem State.updateWaits_issue (aSide : Bool) (chosen gs : List GangId) (s : State) : (s.updateWaits aSide chosen gs).issue = s.issue := by
  induction gs generalizing s with
  | nil => rfl
  | cons g gs ih => exact ih _

theorem State.updateWaits_pkg (aSide : Bool) (chosen gs : List GangId) (s : State) (p : Nat) :
    (s.updateWaits aSide chosen gs).pkg p = s.pkg p := by
  induction gs generalizing s with
  | nil => rfl
  | cons g gs ih => exact ih _

theorem State.updateWaits_gang_of_not_mem (aSide : Bool) (chosen gs : List GangId) (s : State) {g : GangId} (h : g ∉ gs) :
    (s.updateWaits aSide chosen gs).gang g = s.gang g := by
  induction gs generalizing s with
  | nil => rfl
  | cons k gs ih =>
    obtain ⟨hk, hgs⟩ := not_or.mp (mt List.mem_cons.mpr h)
    exact (ih _ hgs).trans (State.gang_modGang_other _ _ _ _ hk)

/-- A ready a-slice that is chosen waits no longer; any other waits one cycle more. -/
theorem State.updateWaits_waitA (chosen gs : List GangId) (s : State) {g : GangId} (hgs : gs.Nodup) (h : g ∈ gs) :
    ((s.updateWaits true chosen gs).gang g).waitA = if g ∈ chosen then 0 else (s.gang g).waitA + 1 := by
  induction gs generalizing s with
  | nil => simp at h
  | cons k gs ih =>
    obtain ⟨hk, hnodup⟩ := List.nodup_cons.mp hgs
    rw [State.updateWaits]
    by_cases hg : g = k
    · subst hg
      rw [State.updateWaits_gang_of_not_mem _ _ _ _ hk, State.gang_modGang]
      simp
    · rw [ih _ hnodup ((List.mem_cons.mp h).resolve_left hg), State.gang_modGang_other _ _ _ _ hg]

theorem State.keepsWaits_updateWaitsC (chosen gs : List GangId) (s : State) : s.KeepsWaits (s.updateWaits false chosen gs) := by
  induction gs generalizing s with
  | nil => exact .refl s
  | cons g gs ih => exact (s.keepsWaits_modGang g (fun x => { x with waitC := if chosen.contains g then 0 else x.waitC + 1 }) fun _ => rfl).trans (ih _)

/-! ## The cycle -/

/-- Replacement changes caches and TLBs alone. -/
theorem State.evict_eq (s : State) (c : CoreId) :
    ∃ cores clus dies, s.evict c = { s with cores := cores, clus := clus, dies := dies, clock := s.clock + 3 } := by
  simp only [State.evict]
  split <;> split <;> split <;> exact ⟨_, _, _, rfl⟩

/-- A core's cycle before it selects: replacement, the time base and the stall counts. -/
def State.cycleBegun (s : State) (c : CoreId) : State :=
  let s := s.evict c
  (s.modPkg c.pkg fun x => { x with time := x.time + s.timeRoom c.pkg (Config.timeAdvance s.clock) }).countAllStalls (slotsOf c)

/-- The a-slices that a core selects. -/
def State.chosenA (s : State) (c : CoreId) : List GangId := s.issuers true (s.readyGangs c .a)
/-- The c-slices that a core selects. -/
def State.chosenC (s : State) (c : CoreId) : List GangId := s.issuers false (s.readyGangs c .c)
/-- All the units that a core's cycle selects. -/
def State.selected (s : State) (c : CoreId) : List UnitId := (s.chosenA c).map .a ++ (s.chosenC c).map .c ++ s.ctlIssuers c

/-- The wait counts of a core's gangs after its selection. -/
def State.cycleWaited (s : State) (c : CoreId) : State :=
  (s.updateWaits true (s.chosenA c) (s.readyGangs c .a)).updateWaits false (s.chosenC c) (s.readyGangs c .c)

/-- A core's cycle once it has selected, before bit errors. -/
def State.cycleIssued (s : State) (c : CoreId) : State :=
  let w := s.cycleWaited c
  { w with
    issue := w.issue ++ (s.chosenA c).map UnitId.a ++ (s.chosenC c).map UnitId.c ++ s.ctlIssuers c
    glitch := Config.choice w.clock 3
    clock := w.clock + 1 }

theorem execIssueCycle_eq (c : CoreId) (s : State) :
    exec (.issueCycle c) s = .next (((s.cycleBegun c).cycleIssued c).bitError c) := by
  show execIssueCycle c s = _
  rfl

theorem State.cycleBegun_mem (s : State) (c : CoreId) : (s.cycleBegun c).mem = s.mem := by
  obtain ⟨cores, clus, dies, h⟩ := s.evict_eq c
  rw [State.cycleBegun, h, (State.keepsWaits_countAllStalls _ _).mem, State.modPkg_mem]

theorem State.cycleBegun_issue (s : State) (c : CoreId) : (s.cycleBegun c).issue = s.issue := by
  obtain ⟨cores, clus, dies, h⟩ := s.evict_eq c
  rw [State.cycleBegun, h, (State.keepsWaits_countAllStalls _ _).issue, State.modPkg_issue]

theorem State.cycleBegun_waitA (s : State) (c : CoreId) (g : GangId) : ((s.cycleBegun c).gang g).waitA = (s.gang g).waitA := by
  obtain ⟨cores, clus, dies, h⟩ := s.evict_eq c
  rw [State.cycleBegun, h, (State.keepsWaits_countAllStalls _ _).waitA]
  rfl

/-- The time base moves on within what its bound leaves it (R394). -/
theorem State.cycleBegun_time (s : State) (c : CoreId) :
    ((s.cycleBegun c).pkg c.pkg).time = (s.pkg c.pkg).time + s.timeRoom c.pkg (Config.timeAdvance (s.clock + 3)) := by
  obtain ⟨cores, clus, dies, h⟩ := s.evict_eq c
  rw [State.cycleBegun, h, (State.keepsWaits_countAllStalls _ _).time, State.pkg_modPkg]
  rfl

theorem State.cycleWaited_mem (s : State) (c : CoreId) : (s.cycleWaited c).mem = s.mem :=
  (State.updateWaits_mem ..).trans (State.updateWaits_mem ..)

theorem State.cycleWaited_issue (s : State) (c : CoreId) : (s.cycleWaited c).issue = s.issue :=
  (State.updateWaits_issue ..).trans (State.updateWaits_issue ..)

theorem State.cycleWaited_pkg (s : State) (c : CoreId) (p : Nat) : (s.cycleWaited c).pkg p = s.pkg p :=
  (State.updateWaits_pkg ..).trans (State.updateWaits_pkg ..)

theorem State.cycleWaited_waitA (s : State) (c : CoreId) (g : GangId) : ((s.cycleWaited c).gang g).waitA =
    ((s.updateWaits true (s.chosenA c) (s.readyGangs c .a)).gang g).waitA :=
  (State.keepsWaits_updateWaitsC ..).waitA g

theorem State.cycleWaited_chosen (s : State) (c : CoreId) {g : GangId} (h : g ∈ s.chosenA c) : ((s.cycleWaited c).gang g).waitA = 0 := by
  rw [State.cycleWaited_waitA, State.updateWaits_waitA _ _ _ (s.readyGangs_nodup c .a) (s.issuers_subset true _ h), if_pos h]

theorem State.cycleWaited_not_chosen (s : State) (c : CoreId) {g : GangId} (h : g ∉ s.chosenA c) :
    ((s.cycleWaited c).gang g).waitA = (s.gang g).waitA ∨ ((s.cycleWaited c).gang g).waitA = (s.gang g).waitA + 1 := by
  rw [State.cycleWaited_waitA]
  by_cases hready : g ∈ s.readyGangs c .a
  · rw [State.updateWaits_waitA _ _ _ (s.readyGangs_nodup c .a) hready, if_neg h]
    exact .inr rfl
  · rw [State.updateWaits_gang_of_not_mem _ _ _ _ hready]
    exact .inl rfl

theorem State.cycleIssued_mem (s : State) (c : CoreId) : (s.cycleIssued c).mem = s.mem := by
  simp only [State.cycleIssued, State.cycleWaited_mem]

theorem State.cycleIssued_gang (s : State) (c : CoreId) (g : GangId) : (s.cycleIssued c).gang g = (s.cycleWaited c).gang g := by
  simp only [State.cycleIssued, State.gang]

theorem State.cycleIssued_pkg (s : State) (c : CoreId) (p : Nat) : (s.cycleIssued c).pkg p = s.pkg p := by
  rw [← State.cycleWaited_pkg s c p]
  simp only [State.cycleIssued, State.pkg]

theorem State.cycleIssued_issue (s : State) (c : CoreId) : (s.cycleIssued c).issue = s.issue ++ s.selected c := by
  simp only [State.cycleIssued, State.selected, State.cycleWaited_issue, List.append_assoc]

/-! ## What is selected -/

theorem State.mem_selected {s : State} {c : CoreId} {u : UnitId} :
    u ∈ s.selected c ↔ (∃ g ∈ s.chosenA c, u = .a g) ∨ (∃ g ∈ s.chosenC c, u = .c g) ∨ u ∈ s.ctlIssuers c := by
  simp only [State.selected, List.mem_append, List.mem_map, or_assoc, eq_comm]

theorem State.a_mem_selected {s : State} {c : CoreId} {g : GangId} : .a g ∈ s.selected c ↔ g ∈ s.chosenA c := by
  rw [State.mem_selected]
  refine ⟨fun h => ?_, fun h => .inl ⟨g, h, rfl⟩⟩
  rcases h with ⟨k, hk, heq⟩ | ⟨k, hk, heq⟩ | hm
  · rwa [UnitId.a.inj heq]
  · cases heq
  · cases (State.mem_ctlIssuers hm).2

theorem State.selected_nodup (s : State) (c : CoreId) : (s.selected c).Nodup := by
  have ha := (s.issuers_nodup true (s.readyGangs_nodup c .a)).map fun _ _ => UnitId.a.inj
  have hc := (s.issuers_nodup false (s.readyGangs_nodup c .c)).map fun _ _ => UnitId.c.inj
  refine (ha.append hc fun u hua huc => ?_).append (s.ctlIssuers_nodup c) fun u hu hm => ?_
  · obtain ⟨g, -, rfl⟩ := List.mem_map.mp hua
    obtain ⟨k, -, hk⟩ := List.mem_map.mp huc
    cases hk
  · rw [(State.mem_ctlIssuers hm).2] at hu
    simp at hu

/-- Only gangs of the core, and its cluster's controller with core 0, are selected (R191, R281). -/
theorem State.selected_units (s : State) (c : CoreId) {u : UnitId} (h : u ∈ s.selected c) :
    (∃ n, n < 16 ∧ (u = .a (c.slot n) ∨ u = .c (c.slot n))) ∨ c.core = 0 ∧ u = .m c.cluId := by
  rcases State.mem_selected.mp h with ⟨g, hg, rfl⟩ | ⟨g, hg, rfl⟩ | hm
  · obtain ⟨n, hn, rfl⟩ := mem_slotsOf.mp (s.readyGangs_subset c .a (s.issuers_subset true _ hg))
    exact .inl ⟨n, hn, .inl rfl⟩
  · obtain ⟨n, hn, rfl⟩ := mem_slotsOf.mp (s.readyGangs_subset c .c (s.issuers_subset false _ hg))
    exact .inl ⟨n, hn, .inr rfl⟩
  · exact .inr (State.mem_ctlIssuers hm)

/-- The units of one kind among those selected. -/
theorem State.filter_selected (s : State) (c : CoreId) :
    (s.selected c).filter (fun u => u.kind == .A) = (s.chosenA c).map .a ∧ (s.selected c).filter (fun u => u.kind == .C) = (s.chosenC c).map .c := by
  have hctl (k : UnitKind) (hk : k ≠ .M) : (s.ctlIssuers c).filter (fun u => u.kind == k) = [] := by
    refine List.filter_eq_nil_iff.mpr fun u hu => ?_
    rw [(State.mem_ctlIssuers hu).2]
    simpa [UnitId.kind] using hk.symm
  have hall {α : Type} (xs : List α) : xs.filter (fun _ => true) = xs := List.filter_eq_self.mpr fun _ _ => rfl
  have hnone {α : Type} (xs : List α) : xs.filter (fun _ => false) = [] := List.filter_eq_nil_iff.mpr fun _ _ => Bool.false_ne_true
  constructor
  · rw [State.selected, List.filter_append, List.filter_append, hctl .A (by decide), List.filter_map, List.filter_map, List.append_nil]
    exact (congrArg₂ (fun xs ys => xs.map UnitId.a ++ ys.map UnitId.c) (hall _) (hnone _)).trans (List.append_nil _)
  · rw [State.selected, List.filter_append, List.filter_append, hctl .C (by decide), List.filter_map, List.filter_map, List.append_nil]
    exact congrArg₂ (fun xs ys => xs.map UnitId.a ++ ys.map UnitId.c) (hnone _) (hall _)

/-- A cycle selects at most two issuers of a slice, and counts the waits of its a-slices (R191). -/
theorem execIssueCycle_selects (s : State) (c : CoreId) : ∃ t l, exec (.issueCycle c) s = .next t ∧ t.mem = s.mem ∧ t.issue = s.issue ++ l
    ∧ l.Nodup ∧ (∀ u ∈ l, (∃ n, n < 16 ∧ (u = .a (c.slot n) ∨ u = .c (c.slot n))) ∨ c.core = 0 ∧ u = .m c.cluId)
    ∧ (l.filter fun u => u.kind == .A).length ≤ 2 ∧ (l.filter fun u => u.kind == .C).length ≤ 2
    ∧ (∀ n, n < 16 → (.a (c.slot n) ∈ l → (t.gang (c.slot n)).waitA = 0)
      ∧ (.a (c.slot n) ∉ l → (t.gang (c.slot n)).waitA = (s.gang (c.slot n)).waitA ∨ (t.gang (c.slot n)).waitA = (s.gang (c.slot n)).waitA + 1))
    ∧ (t.pkg c.pkg).time = (s.pkg c.pkg).time + s.timeRoom c.pkg (Config.timeAdvance (s.clock + 3)) := by
  obtain ⟨r, hr⟩ : ∃ r, r = s.cycleBegun c := ⟨_, rfl⟩
  obtain ⟨hA, hC⟩ := r.filter_selected c
  have herr := (r.cycleIssued c).keepsWaits_bitError c
  refine ⟨_, r.selected c, hr ▸ execIssueCycle_eq c s, ?_, ?_, r.selected_nodup c, fun u => r.selected_units c, ?_, ?_,
    fun n hn => ⟨fun h => ?_, fun h => ?_⟩, ?_⟩
  · rw [herr.mem, r.cycleIssued_mem, hr, s.cycleBegun_mem]
  · rw [herr.issue, r.cycleIssued_issue, hr, s.cycleBegun_issue]
  · rw [hA, List.length_map]
    exact r.issuers_length_le true _
  · rw [hC, List.length_map]
    exact r.issuers_length_le false _
  · rw [herr.waitA, r.cycleIssued_gang, r.cycleWaited_chosen c (State.a_mem_selected.mp h)]
  · rw [herr.waitA, r.cycleIssued_gang, ← s.cycleBegun_waitA c, ← hr]
    exact r.cycleWaited_not_chosen c (mt State.a_mem_selected.mpr h)
  · rw [herr.time, r.cycleIssued_pkg, hr, s.cycleBegun_time]

end Sys2Proof.Machine
end

section
/-! SUPPORT. Each upkeep event with the effect that its rule gives it, and the statement about them. -/

namespace Sys2Proof.Machine

/-! ## Boot (R403) -/

/-- A stage that does not verify stops the boot and changes nothing else of the package. -/
theorem Pkg.bootStage_of_not_stageOk (x : Pkg) (clock : Nat) (image : List Byte) (sig : BitVec 512) (version reg : Nat)
    (h : ¬ x.stageOk image sig version = true) : x.bootStage clock image sig version reg = { x with bootFailed := true } := if_neg h

/-- A boot stage changes its package alone, and draws the free choices of one stage. -/
theorem execSecureBootStage_stage (s : State) (p : Nat) (image : List Byte) (sig : BitVec 512) (version : Nat) (reg : BitVec 3)
    (hb : (s.pkg p).booted = false) (hf : (s.pkg p).bootFailed = false) :
    ∃ t, exec (.secureBootStage p image sig version reg) s = .next t ∧ t.mem = s.mem ∧ t.clock = s.clock + 65
      ∧ (∀ q, q ≠ p → t.pkg q = s.pkg q) ∧ t.pkg p = (s.pkg p).bootStage s.clock image sig version reg.toNat :=
  ⟨_, execSecureBootStage_checked s p image sig version reg hb hf, rfl, rfl,
    fun q hq => s.pkg_modPkg_other p q (fun x => x.bootStage s.clock image sig version reg.toNat) hq,
    s.pkg_modPkg p fun x => x.bootStage s.clock image sig version reg.toNat⟩

/-- A stage with a valid signature and count extends its measurement register; any other stops the boot. -/
theorem execSecureBootStage_verifies (s : State) (p : Nat) (image : List Byte) (sig : BitVec 512) (version : Nat) (reg : BitVec 3)
    (hb : (s.pkg p).booted = false) (hf : (s.pkg p).bootFailed = false) :
    ∃ t, exec (.secureBootStage p image sig version reg) s = .next t ∧ t.mem = s.mem ∧ t.clock = s.clock + 65
      ∧ (∀ q, q ≠ p → t.pkg q = s.pkg q)
      ∧ (∀ n ∈ (t.pkg p).mgmtQueues, n ∈ (s.pkg p).mgmtQueues ∨ n < 64 ∧ (t.pkg p).booted = true)
      ∧ ((s.pkg p).stageOk image sig version = true → (t.pkg p).version = version ∧ (t.pkg p).bootFailed = false
        ∧ ∀ r, tget r 0 (t.pkg p).measure = if r = reg.toNat
          then Config.sm3 (digestBytes (tget r 0 (s.pkg p).measure) ++ digestBytes (Config.sm3 image)) else tget r 0 (s.pkg p).measure)
      ∧ (¬ (s.pkg p).stageOk image sig version = true →
        (t.pkg p).bootFailed = true ∧ (t.pkg p).booted = false ∧ (t.pkg p).measure = (s.pkg p).measure) := by
  obtain ⟨t, ht, hmem, hclock, hother, hpkg⟩ := execSecureBootStage_stage s p image sig version reg hb hf
  refine ⟨t, ht, hmem, hclock, hother, ?_, fun hok => ?_, fun hbad => ?_⟩
  · rw [hpkg]
    exact fun n => (s.pkg p).mgmtQueues_bootStage s.clock image sig version reg.toNat n
  · rw [hpkg, ← hf]
    exact (s.pkg p).bootStage_of_stageOk s.clock image sig version reg.toNat hok
  · rw [hpkg, (s.pkg p).bootStage_of_not_stageOk s.clock image sig version reg.toNat hbad]
    exact ⟨rfl, hb, rfl⟩

/-! ## Base dies, wear and routing (R377, R378, R396, R402) -/

theorem execBaseDieScrub_eq (s : State) (p stack : Nat) (corrected bad : List Nat) : exec (.baseDieScrub p stack corrected bad) s =
    if stack < 24 then .next (s.stackErrors p stack corrected bad) else .next s := rfl

theorem execBaseDieScrub_errors (s : State) (p stack : Nat) (corrected bad : List Nat) (h : stack < 24) :
    ∃ t, exec (.baseDieScrub p stack corrected bad) s = .next t ∧ t.mem = s.mem
      ∧ (tget (14 + stack) (wearReset (14 + stack)) (t.pkg p).wear).errors
          = ((tget (14 + stack) (wearReset (14 + stack)) (s.pkg p).wear).errors + corrected.length) % 2 ^ 32
      ∧ ∀ n ∈ bad, stackLine stack n < hbmSize → t.markedAt (hbmKey p (stackLine stack n)) 64 = true :=
  ⟨_, (execBaseDieScrub_eq ..).trans (if_pos h), s.stackErrors_mem p stack corrected bad, s.stackErrors_errors p stack corrected bad,
    fun _ hn hline => State.poisonLines_marked p _ _ _ (List.mem_map_of_mem hn) hline⟩

theorem execRowSpareCopy_eq (s : State) (p stack bank row : Nat) : exec (.rowSpareCopy p stack bank row) s =
    if stack < 24 && (tget (stack, bank, row) {} (s.pkg p).rows : RowErrs).due then .next (s.modPkg p fun x => x.spareRow stack bank row)
    else .next s := rfl

theorem execRowSpareCopy_not_due (s : State) (p stack bank row : Nat)
    (h : 24 ≤ stack ∨ (tget (stack, bank, row) {} (s.pkg p).rows : RowErrs).due = false) :
    exec (.rowSpareCopy p stack bank row) s = .next s := by
  refine (execRowSpareCopy_eq ..).trans (if_neg ?_)
  rcases h with hstack | hdue
  · simp [Nat.not_lt.mpr hstack]
  · simp [hdue]

theorem execRowSpareCopy_due (s : State) (p stack bank row : Nat) (h : stack < 24)
    (hdue : (tget (stack, bank, row) {} (s.pkg p).rows : RowErrs).due = true) :
    exec (.rowSpareCopy p stack bank row) s = .next (s.modPkg p fun x => x.spareRow stack bank row) :=
  (execRowSpareCopy_eq ..).trans (if_pos (by simp [h, hdue]))

theorem execWearRecompute_eq (s : State) (p : Nat) (vs : List DWord) :
    exec (.wearRecompute p vs) s = .next (s.modPkg p fun x => x.recomputeWear 0 vs) := rfl

/-- The records take what was measured, and the alert is given by the route that the package had (R402, R396). -/
theorem Pkg.recomputeWear_from_zero (x : Pkg) (vs : List DWord) :
    (∀ u, u < vs.length → u < 62 → let w := tget u (wearReset u) (x.recomputeWear 0 vs).wear
      w.days = (vs.getD u 0).toNat % 2 ^ 16 ∧ w.errors = (vs.getD u 0).toNat / 2 ^ 32)
    ∧ ∀ u, u < vs.length → u < 62 → 365 ≤ (tget u (wearReset u) x.wear).days → (vs.getD u 0).toNat % 2 ^ 16 < 365 →
      let r : IntRoute := tget 77 {} x.routes
      (r.enable = true → (r.port, r.vector) ∈ (x.recomputeWear 0 vs).sent)
        ∧ (r.enable = false → (tget 77 ({} : IntRoute) (x.recomputeWear 0 vs).routes).pending = true) := by
  refine ⟨fun u hu hlt => ?_, fun u hu hlt hold hnew => ?_⟩
  · have hrecord := x.recomputeWear_record vs 0 u (wearReset u) hu (by omega)
    rwa [Nat.zero_add] at hrecord
  · obtain ⟨hsent, hpending⟩ := x.recomputeWear_wearAlerted vs 0 u hu (by omega) (by rwa [Nat.zero_add]) hnew
    rw [Pkg.recomputeWear_wearRoute] at hsent hpending
    exact ⟨hsent, hpending⟩

theorem execInterruptRouteWrite_eq (s : State) (p n : Nat) (v : DWord) : exec (.interruptRouteWrite p n v) s =
    if n < 81 then .next (s.modPkg p fun x => x.writeRoute n v) else .next s := rfl

/-! ## The statement -/

/-- Settles O58: each clause is what the lemmas about its event say. -/
theorem upkeepEvents : Obligations.UpkeepEvents := by
  refine ⟨execPackageColdReset_fresh, ?boot, ?attestation, ?hostWrite, ?hostRead, ?scrub, ?spareRow, fun s p up => ⟨rfl, rfl, execThermalStop_stops s p⟩,
    ?wear, fun s p offs locked forward => ⟨rfl, rfl⟩, ?route, ?register, execIssueCycle_selects⟩
  case boot =>
    refine fun s p image sig version reg => ⟨execSecureBootStage_over s p image sig version reg, fun hb hf => ?_⟩
    simpa only [Pkg.stageOk_iff] using execSecureBootStage_verifies s p image sig version reg hb hf
  case attestation =>
    exact fun s p nonce => ⟨_, _, rfl, rfl, congrArg Pkg.replies (s.pkg_modPkg p _), (s.pkg p).attest_layout nonce⟩
  case hostWrite =>
    refine fun s p port addr data => ⟨fun hd => hd ▸ execHostWrite_nil s p port addr,
      fun hd ha hw => (execHostWrite_hbm s p port addr data hd ha).trans (if_pos hw), execHostWrite_stored s p port addr data,
      fun hd hbar => (execHostWrite_beyond s p port addr data hd (hbmSize_le_of_inBar0 hbar)).trans (if_pos hbar), fun ha hbar => ?_⟩
    by_cases hd : data = []
    · exact hd ▸ execHostWrite_nil s p port addr
    · exact (execHostWrite_beyond s p port addr data hd ha).trans (if_neg (Bool.eq_false_iff.mp hbar))
  case hostRead =>
    exact fun s p port addr len => ⟨execHostRead_waits s p port addr len, execHostRead_hbm s p port addr len,
      fun hbar => (execHostRead_beyond s p port addr len (hbmSize_le_of_inBar0 hbar)).trans (if_pos hbar),
      fun ha hbar => (execHostRead_beyond s p port addr len ha).trans (if_neg (Bool.eq_false_iff.mp hbar))⟩
  case scrub =>
    exact fun s p stack corrected bad => ⟨fun h => (execBaseDieScrub_eq ..).trans (if_neg (Nat.not_lt.mpr h)),
      execBaseDieScrub_errors s p stack corrected bad⟩
  case spareRow =>
    refine fun s p stack bank row => ⟨execRowSpareCopy_not_due s p stack bank row,
      fun h hdue => ⟨_, execRowSpareCopy_due s p stack bank row h hdue, rfl, rfl, ?_⟩⟩
    rw [State.pkg_modPkg]
    exact (s.pkg p).spareRow_counts stack bank row
  case wear =>
    refine fun s p vs => ⟨_, execWearRecompute_eq s p vs, rfl, ?_⟩
    rw [State.pkg_modPkg]
    exact (s.pkg p).recomputeWear_from_zero vs
  case route =>
    refine fun s p n v => ⟨fun h => (execInterruptRouteWrite_eq ..).trans (if_neg (Nat.not_lt.mpr h)),
      fun h => ⟨_, (execInterruptRouteWrite_eq ..).trans (if_pos h), rfl, ?_⟩⟩
    simp only [State.pkg_modPkg, Pkg.writeRoute_entry, Pkg.writeRoute_sent, and_self]
  case register =>
    exact fun s p addr v => ⟨execRegisterWrite_ignored s p addr v, fun h => h ▸ execRegisterWrite_imgaddr s p v,
      fun h hlo hhi => h ▸ execRegisterWrite_powcap s p v hlo hhi, execRegisterWrite_mig s p addr v, execRegisterWrite_readOnly s p addr v⟩

end Sys2Proof.Machine
end

section
/-! SUPPORT. The words that no unit decodes (R51). -/

namespace Sys2Proof.Machine

/-- A word whose low halfword is zero is a 16-bit one, and its halfword is the illegal one. -/
theorem decode_of_zero_halfword (u : UnitKind) (m : Mode) {w : Word} (h : w.truncate 16 = (0 : Half)) : decode u m w = .error 2 := by
  have hshort : w.getLsbD 0 = false := by
    have hbit : (w.truncate 16).getLsbD 0 = (0 : Half).getLsbD 0 := congrArg (BitVec.getLsbD · 0) h
    simpa using hbit
  rw [decode, if_neg (ne_true_of_eq_false hshort)]
  exact if_pos h

/-- The word of all ones is a 32-bit one of opcode `0x7F`, which is illegal. -/
theorem decode_of_ones (u : UnitKind) (m : Mode) : decode u m 0xFFFFFFFF = .error 2 := by
  have hlong : (0xFFFFFFFF : Word).getLsbD 0 = true := by decide
  have hopcode : (0xFFFFFFFF : Word).extractLsb' 1 7 = 0x7F := by decide
  rw [decode, if_pos hlong, if_pos hopcode]

/-- Settles O8: both words are refused with detail 2, before any row is looked at. -/
theorem blankMemoryIsIllegal : Obligations.BlankMemoryIsIllegal :=
  ⟨fun u m _ h => ⟨2, by decide, decode_of_zero_halfword u m h⟩, fun u m => ⟨2, by decide, decode_of_ones u m⟩⟩

end Sys2Proof.Machine
end

section
/-! SUPPORT. The value of a carrier at a type: its low bits as a bit vector of the type's width, unsigned and signed, and what a
register or a queue entry holds of it (R24, R55, R61). -/

namespace Sys2Proof.Machine

/-! ## Widths -/

theorem Ty.bits_pos (t : Ty) : 0 < t.bits := by cases t <;> decide

theorem Ty.bits_le (t : Ty) : t.bits ≤ 64 := by cases t <;> decide

theorem Ty.bits_of_wide {t : Ty} (h : t.wide = true) : t.bits = 64 := by cases t <;> simp_all [Ty.wide, Ty.bits]

/-! ## A carrier's low bits -/

/-- The unsigned value of a carrier is that of its low bits. -/
theorem unsignedOf_eq_toNat (t : Ty) (v : DWord) : unsignedOf t v = (v.setWidth t.bits).toNat :=
  (BitVec.toNat_setWidth ..).symm

/-- The signed value of a carrier is the two's complement value of its low bits. -/
theorem signedOf_eq_toInt (t : Ty) (v : DWord) : signedOf t v = (v.setWidth t.bits).toInt := by
  have hhalf : 2 ^ t.bits = 2 * 2 ^ (t.bits - 1) := by
    rw [← Nat.pow_succ', Nat.succ_eq_add_one, Nat.sub_one_add_one (Ty.bits_pos t).ne']
  rw [signedOf, unsignedOf_eq_toNat, BitVec.toInt_eq_toNat_cond]
  push_cast
  exact if_congr (by omega) rfl rfl

theorem unsignedOf_lt (t : Ty) (v : DWord) : unsignedOf t v < 2 ^ t.bits := Nat.mod_lt _ (Nat.two_pow_pos _)

/-- A number modulo 2 to the width is the carrier of its bits. -/
theorem wrapTo_eq_setWidth (t : Ty) (x : Int) : wrapTo t x = (BitVec.ofInt t.bits x).setWidth 64 := by
  apply BitVec.eq_of_toNat_eq
  have hpow : 2 ^ t.bits ≤ 2 ^ 64 := Nat.pow_le_pow_right (by decide) (Ty.bits_le t)
  have hpos : 0 < 2 ^ t.bits := Nat.two_pow_pos _
  simp only [wrapTo, BitVec.toNat_setWidth, BitVec.toNat_ofInt]
  push_cast
  generalize hP : 2 ^ t.bits = P at hpow hpos
  have hPi : (2 : Int) ^ t.bits = P := by exact_mod_cast hP
  rw [hPi]
  have := Int.emod_nonneg x (b := (P : Int)) (by omega)
  have := Int.emod_lt_of_pos x (b := (P : Int)) (by omega)
  omega

/-! ## What a register holds (R55) -/

/-- A 64-bit result is held as it is. -/
theorem extendResult_of_wide {t : Ty} (u : UnitKind) (h : t.wide = true) (v : DWord) : extendResult u t v = v := by
  have hmask : v &&& BitVec.ofNat 64 (2 ^ 64 - 1) = v := BitVec.and_allOnes
  simp only [extendResult, Ty.bits_of_wide h, hmask]
  simp

/-- The bits of a carrier within the width of a type. -/
theorem toNat_and_low (t : Ty) (v : DWord) : (v &&& BitVec.ofNat 64 (2 ^ t.bits - 1)).toNat = unsignedOf t v := by
  have hpow : 2 ^ t.bits ≤ 2 ^ 64 := Nat.pow_le_pow_right (by decide) (Ty.bits_le t)
  rw [BitVec.toNat_and, BitVec.toNat_ofNat, Nat.mod_eq_of_lt (by omega), Nat.and_two_pow_sub_one_eq_mod, unsignedOf]

/-- The sign bit of a type is set where the unsigned value lies in the upper half. -/
theorem getLsbD_sign (t : Ty) (v : DWord) :
    (v &&& BitVec.ofNat 64 (2 ^ t.bits - 1)).getLsbD (t.bits - 1) = decide (2 ^ (t.bits - 1) ≤ unsignedOf t v) := by
  have hlt : unsignedOf t v < 2 ^ (t.bits - 1 + 1) := by
    rw [Nat.sub_one_add_one (Ty.bits_pos t).ne']; exact unsignedOf_lt t v
  rw [BitVec.getLsbD, toNat_and_low]
  by_cases h : 2 ^ (t.bits - 1) ≤ unsignedOf t v
  · rw [decide_eq_true h, Nat.testBit_of_two_pow_le_and_two_pow_add_one_gt h hlt]
  · rw [decide_eq_false h, Nat.testBit_lt_two_pow (by omega)]

/-- Bits set from a width up add what they stand for. -/
theorem toNat_or_high {t : Ty} {m : DWord} (h : m.toNat < 2 ^ t.bits) :
    (m ||| BitVec.ofNat 64 (2 ^ 64 - 2 ^ t.bits)).toNat = m.toNat + (2 ^ 64 - 2 ^ t.bits) := by
  have hpos : 0 < 2 ^ t.bits := Nat.two_pow_pos _
  have hsplit : 2 ^ 64 - 2 ^ t.bits = 2 ^ t.bits * (2 ^ (64 - t.bits) - 1) := by
    rw [Nat.mul_sub_one, ← Nat.pow_add, Nat.add_sub_cancel' (Ty.bits_le t)]
  rw [BitVec.toNat_or, BitVec.toNat_ofNat, Nat.mod_eq_of_lt (by omega), hsplit, Nat.or_comm,
    ← Nat.two_pow_add_eq_or_of_lt h, Nat.add_comm]

/-- In the a-slice and the controller a result is held as the 64 bits of its value. -/
theorem extendResult_eq_ofInt {u : UnitKind} (hu : u ≠ .C) (t : Ty) (v : DWord) :
    extendResult u t v = BitVec.ofInt 64 (valueOf t v) := by
  have hpow : 2 ^ t.bits ≤ 2 ^ 64 := Nat.pow_le_pow_right (by decide) (Ty.bits_le t)
  have hcast : ((2 ^ t.bits : Nat) : Int) = 2 ^ t.bits := by push_cast; rfl
  have hlt := unsignedOf_lt t v
  have hlow := toNat_and_low t v
  apply BitVec.eq_of_toNat_eq
  rw [BitVec.toNat_ofInt]
  simp only [extendResult, getLsbD_sign, valueOf, signedOf, decide_eq_false hu, Bool.false_and, Bool.false_eq_true, if_false]
  by_cases hneg : t.signed = true ∧ 2 ^ (t.bits - 1) ≤ unsignedOf t v
  · obtain ⟨hs, hhigh⟩ := hneg
    rw [if_pos (by simp [hs, hhigh]), if_pos hs, if_neg (by omega), toNat_or_high (by omega), hlow, ← hcast]
    omega
  · have hvalue : (if t.signed then (if unsignedOf t v < 2 ^ (t.bits - 1) then (unsignedOf t v : Int) else unsignedOf t v - 2 ^ t.bits)
        else (unsignedOf t v : Int)) = unsignedOf t v := by
      split_ifs with hs hlt' <;> [rfl; exact absurd ⟨hs, Nat.not_lt.mp hlt'⟩ hneg; rfl]
    rw [if_neg (by simpa using hneg), hvalue, hlow]
    omega

/-- In the c-slice the low 32 bits that are held are those of the value. -/
theorem extendResult_C_low (t : Ty) (v : DWord) : (extendResult .C t v).setWidth 32 = BitVec.ofInt 32 (valueOf t v) := by
  have hcut : (extendResult .C t v).setWidth 32 = (extendResult .A t v).setWidth 32 := by
    have hword (w : DWord) : (w &&& 0xFFFFFFFF).setWidth 32 = w.setWidth 32 := by
      rw [BitVec.setWidth_and]; exact BitVec.and_allOnes
    simp only [extendResult]
    split
    · split
      · rw [hword]; simp
      · simp
    · rfl
  rw [hcut, extendResult_eq_ofInt (by decide)]
  apply BitVec.eq_of_toNat_eq
  rw [BitVec.toNat_setWidth, BitVec.toNat_ofInt, BitVec.toNat_ofInt]
  omega

end Sys2Proof.Machine
end

section
/-! SUPPORT. What a written register reads as, in each unit (R52 to R56, R293), and what a result pushes into the queues of its
sink (R61, R101). -/

namespace Sys2Proof.Machine

/-! ## Lanes -/

/-- The value of a lane in a list made lane by lane. -/
theorem getD_map_laneIdx {α : Type} (f : Nat → α) (d : α) {n : Nat} (h : n < 32) : (laneIdx.map f).getD n d = f n := by
  simp [laneIdx, List.getD_eq_getElem?_getD, h]

theorem lowestLane_zero : lowestLane 0 = none := by decide

/-- The lowest lane of a mask is the one below which the mask has none. -/
theorem lowestLane_eq_some {m : Word} {l : Nat} (hl : l < 32) (hset : m.getLsbD l = true) (hmin : ∀ j, j < l → m.getLsbD j = false) :
    lowestLane m = some l := by
  rw [lowestLane, laneIdx, List.find?_range_eq_some]
  exact ⟨hset, List.mem_range.mpr hl, fun j hj => by simp [hmin j hj]⟩

/-! ## Registers of the slices -/

@[simp] theorem Gang.writeA_banked (x : Gang) (code c : Nat) (act : Word) (f : Nat → Val) :
    (x.writeA code act f).banked c = x.banked c := by
  unfold Gang.writeA
  split
  · split
    · rfl
    · split <;> rfl
  · split <;> rfl

/-- An a register reads in a lane what was written there, and in a lane outside the mask what it held (R134). -/
theorem Gang.readA_writeA (x : Gang) {code n : Nat} (act : Word) (f : Nat → Val) (hc : code < 48) (hn : n < 32) :
    (x.writeA code act f).readA code n = if act.getLsbD n then f n else x.readA code n := by
  have hs : ¬ code ≥ 48 := Nat.not_le.mpr hc
  rw [Gang.readA, if_neg hs, Gang.writeA_banked, Gang.writeA, if_neg hs]
  by_cases hb : x.banked code = true <;> simp only [hb, if_true, if_false, Bool.false_eq_true, tget_tset_same, getD_map_laneIdx _ _ hn]

/-- An s register reads in every lane what the lowest lane of the mask wrote (R56). -/
theorem Gang.readA_writeA_uniform (x : Gang) {code l : Nat} (n : Nat) {act : Word} (f : Nat → Val) (hc : 48 ≤ code)
    (hl : lowestLane act = some l) : (x.writeA code act f).readA code n = f l := by
  rw [Gang.readA, if_pos hc, Gang.writeA_banked, Gang.writeA, if_pos hc, hl]
  by_cases hb : x.banked code = true <;> simp only [hb, if_true, if_false, Bool.false_eq_true, tget_tset_same]

/-- With no lane in the mask an s register stays as it is (R56). -/
theorem Gang.writeA_uniform_none (x : Gang) {code : Nat} {act : Word} (f : Nat → Val) (hc : 48 ≤ code) (hl : lowestLane act = none) :
    x.writeA code act f = x := by
  rw [Gang.writeA, if_pos hc, hl]

/-- A c-slice register reads in a lane what was written there, and in a lane outside the mask what it held. -/
theorem Gang.readC_writeC (x : Gang) (code : Nat) {n : Nat} (act : Word) (f : Nat → Val32) (hn : n < 32) :
    (x.writeC code act f).readC code n = if act.getLsbD n then f n else x.readC code n := by
  simp only [Gang.readC, Gang.writeC, tget_tset_same, getD_map_laneIdx _ _ hn]

theorem Gang.readC_writeC_other (x : Gang) {code c : Nat} (n : Nat) (act : Word) (f : Nat → Val32) (h : c ≠ code) :
    (x.writeC code act f).readC c n = x.readC c n := by
  simp only [Gang.readC, Gang.writeC, tget_tset_other _ _ _ _ _ h]

/-! ## Registers of the controller (R293) -/

/-- The registers of the running mode's own bank are written as they are. -/
theorem Ctl.writeM_user (x : Ctl) {code : Nat} (v : Val) (h : x.mode = .user ∨ code < 24) :
    x.writeM code v = { x with m := tset code v x.m } := by
  rw [Ctl.writeM, if_neg]
  rcases h with hmode | hlow
  · simp [hmode]
  · simp [hlow]

/-- m28 to m31 of the supervisor bank are written as they are. -/
theorem Ctl.writeM_supervisor (x : Ctl) {code : Nat} (v : Val) (hmode : x.mode ≠ .user) (h : 28 ≤ code) :
    x.writeM code v = { x with sm := tset code v x.sm } := by
  have hbank : 24 ≤ code := by omega
  simp [Ctl.writeM, hmode, hbank, h]

/-- m24 of the supervisor bank takes its skip bit alone. -/
theorem Ctl.writeM_skip (x : Ctl) (v : Val) (hmode : x.mode ≠ .user) :
    x.writeM 24 v = { x with sm := tset 24 { v with bits := ((x.readM 24).bits &&& 0xFFFF) ||| (v.bits &&& 0x10000) } x.sm } := by
  simp [Ctl.writeM, hmode]

/-- m25 to m27 of the supervisor bank are not written. -/
theorem Ctl.writeM_fixed (x : Ctl) {code : Nat} (v : Val) (hmode : x.mode ≠ .user) (hlow : 24 < code) (hhigh : code < 28) :
    x.writeM code v = x := by
  have hbank : 24 ≤ code := hlow.le
  simp [Ctl.writeM, hmode, hbank, hlow.ne', Nat.not_le.mpr hhigh]

/-- A controller register that can be written reads what was written. -/
theorem Ctl.readM_writeM (x : Ctl) {code : Nat} (v : Val) (h : x.mode = .user ∨ code < 24 ∨ 28 ≤ code) :
    (x.writeM code v).readM code = v := by
  by_cases huser : x.mode = .user ∨ code < 24
  · have hown : (x.mode != .user && decide (code ≥ 24)) = false := by
      rcases huser with hmode | hlow
      · simp [hmode]
      · simp [hlow]
    rw [Ctl.writeM_user x v huser, Ctl.readM, hown, if_neg Bool.false_ne_true, tget_tset_same]
  · obtain ⟨hmode, hbank⟩ := not_or.mp huser
    have hhigh : 28 ≤ code := (h.resolve_left hmode).resolve_left hbank
    have hsup : (x.mode != .user && decide (code ≥ 24)) = true := by simp [hmode, Nat.not_lt.mp hbank]
    rw [Ctl.writeM_supervisor x v hmode hhigh, Ctl.readM, hsup, if_pos rfl, tget_tset_same]

/-- m24 of the supervisor bank reads the low 16 bits it held and the skip bit that was written. -/
theorem Ctl.readM_writeM_skip (x : Ctl) (v : Val) (hmode : x.mode ≠ .user) :
    ((x.writeM 24 v).readM 24).bits = ((x.readM 24).bits &&& 0xFFFF) ||| (v.bits &&& 0x10000) := by
  have hsup : (x.mode != .user && decide (24 ≥ 24)) = true := by simp [hmode]
  rw [Ctl.writeM_skip x v hmode]
  generalize (x.readM 24).bits = old
  rw [Ctl.readM, hsup, if_pos rfl, tget_tset_same]

/-! ## Registers of a unit -/

/-- A 64-bit value of the c-slice is read from a register pair, low word first (R53). -/
theorem State.readReg_c_wide (s : State) (g : GangId) {t : Ty} (code n : Nat) (ht : t.wide = true) :
    s.readReg (.c g) t code n = ⟨((s.gang g).readC (code + 1) n).bits ++ ((s.gang g).readC code n).bits,
      ((s.gang g).readC (code + 1) n).poison || ((s.gang g).readC code n).poison⟩ := by
  simp only [State.readReg, ht, if_true]

theorem State.readReg_c_narrow (s : State) (g : GangId) {t : Ty} (code n : Nat) (ht : t.wide = false) :
    s.readReg (.c g) t code n = ⟨((s.gang g).readC code n).bits.zeroExtend 64, ((s.gang g).readC code n).poison⟩ := by
  simp only [State.readReg, ht, Bool.false_eq_true, if_false]

/-- A 64-bit result of the c-slice is written to a register pair, low word first (R53). -/
theorem State.gang_writeReg_c_wide (s : State) (g : GangId) {t : Ty} (code : Nat) (act : Word) (f : Nat → DWord) (ht : t.wide = true) :
    (s.writeReg (.c g) t code act f).gang g = ((s.gang g).writeC code act fun n => ⟨(f n).setWidth 32, false⟩).writeC (code + 1) act
      fun n => ⟨(f n).extractLsb' 32 32, false⟩ := by
  simp only [State.writeReg, State.gang_modGang, ht, if_true, extendResult_of_wide .C ht]

theorem State.gang_writeReg_c_narrow (s : State) (g : GangId) {t : Ty} (code : Nat) (act : Word) (f : Nat → DWord) (ht : t.wide = false) :
    (s.writeReg (.c g) t code act f).gang g = (s.gang g).writeC code act fun n => ⟨(extendResult .C t (f n)).truncate 32, false⟩ := by
  simp only [State.writeReg, State.gang_modGang, ht, Bool.false_eq_true, if_false]

/-- The two words of a 64-bit value. -/
theorem high_append_low (v : DWord) : v.extractLsb' 32 32 ++ v.setWidth 32 = v := by
  rw [BitVec.setWidth_eq_extractLsb' (by decide)]
  exact BitVec.extractLsb'_append_extractLsb' (w := 32) (len := 32)

/-- A 64-bit result of the c-slice reads back from its register pair. -/
theorem State.readReg_writeReg_c_wide (s : State) (g : GangId) {t : Ty} (code : Nat) {n : Nat} (act : Word) (f : Nat → DWord)
    (ht : t.wide = true) (hn : n < 32) :
    (s.writeReg (.c g) t code act f).readReg (.c g) .b64 code n = if act.getLsbD n then ⟨f n, false⟩ else s.readReg (.c g) .b64 code n := by
  rw [State.readReg_c_wide _ g code n rfl, State.readReg_c_wide _ g code n rfl, State.gang_writeReg_c_wide s g code act f ht,
    Gang.readC_writeC _ _ _ _ hn, Gang.readC_writeC_other _ _ _ _ (Nat.succ_ne_self code).symm, Gang.readC_writeC _ _ _ _ hn,
    Gang.readC_writeC_other _ _ _ _ (Nat.succ_ne_self code)]
  split
  · simp only [high_append_low, Bool.or_self]
  · rfl

/-- A result of at most 32 bits reads back from its register. -/
theorem State.readReg_writeReg_c_narrow (s : State) (g : GangId) {t : Ty} (code : Nat) {n : Nat} (act : Word) (f : Nat → DWord)
    (ht : t.wide = false) (hn : n < 32) :
    (s.writeReg (.c g) t code act f).readReg (.c g) .b32 code n
      = if act.getLsbD n then ⟨((extendResult .C t (f n)).truncate 32).zeroExtend 64, false⟩ else s.readReg (.c g) .b32 code n := by
  rw [State.readReg_c_narrow _ g code n rfl, State.readReg_c_narrow _ g code n rfl, State.gang_writeReg_c_narrow s g code act f ht,
    Gang.readC_writeC _ _ _ _ hn]
  split <;> rfl

/-- The controller has one lane, which is always written. -/
theorem State.writeReg_m (s : State) (c : CluId) (t : Ty) (code : Nat) {act : Word} (f : Nat → DWord) (h : act = 1) :
    s.writeReg (.m c) t code act f = s.modCtl c fun x => x.writeM code ⟨extendResult .M t (f 0), false⟩ :=
  if_neg (h ▸ by decide)

/-- Settles O28: what is written reads back, unit by unit, and the 64 bits held are those of the value. -/
theorem registerWrite : Obligations.RegisterWrite := by
  intro s t code act f n hn
  refine ⟨fun g hc => ?aSlice, fun g ht _ => s.readReg_writeReg_c_wide g code act f ht hn,
    fun g ht => s.readReg_writeReg_c_narrow g code act f ht hn, fun c hcode hact => ?controller,
    fun c hmode hact => ⟨?skip, fun hlow hhigh => ?fixed⟩, extendResult_eq_ofInt (by decide) t (f n), ?same⟩
  case aSlice =>
    simp only [State.readReg, State.writeReg, State.gang_modGang]
    exact Gang.readA_writeA _ _ _ hc hn
  case controller =>
    rw [s.writeReg_m c t code f hact, State.readReg, State.ctl_modCtl]
    exact Ctl.readM_writeM _ _ hcode
  case skip =>
    rw [s.writeReg_m c t 24 f hact, State.readReg, State.ctl_modCtl]
    exact Ctl.readM_writeM_skip _ _ hmode
  case fixed =>
    rw [s.writeReg_m c t code f hact]
    simp only [State.modCtl, State.modClu, Ctl.writeM_fixed _ _ hmode hlow hhigh]
  case same =>
    rw [extendResult_eq_ofInt (by decide), extendResult_eq_ofInt (by decide)]

/-- Settles O29: the lowest lane of the mask is the one written. -/
theorem uniformRegisterWrite : Obligations.UniformRegisterWrite := by
  intro s g t code act f n hcode
  refine ⟨fun l hl hset hmin => ?_, fun hnone => ?_⟩
  · simp only [State.readReg, State.writeReg, State.gang_modGang]
    exact Gang.readA_writeA_uniform _ n _ hcode (lowestLane_eq_some hl hset hmin)
  · rw [State.writeReg, State.modGang, Gang.writeA_uniform_none _ _ hcode (hnone ▸ lowestLane_zero)]
    rfl

end Sys2Proof.Machine
end

section
/-! SUPPORT. What a value result pushes into the queues of its sink, and what its delivery leaves as it is (R61, R100, R101). -/

namespace Sys2Proof.Machine

/-! ## Entries -/

theorem QEntry.word_entryOf {act : Word} (f : Nat → Word) {n : Nat} (hn : n < 32) (h : act.getLsbD n = true) :
    (entryOf act f).word n = ⟨f n, false⟩ := by
  have hvalid : (entryOf act f).valid.getLsbD n = true := h
  rw [QEntry.word, if_pos hvalid, entryOf, getD_map_laneIdx _ _ hn, if_pos h]

/-- A lane without its valid bit reads zero (R101). -/
theorem QEntry.word_of_not_valid {e : QEntry} {n : Nat} (h : e.valid.getLsbD n = false) : e.word n = {} := by
  rw [QEntry.word, if_neg (by simp [h])]

theorem LaneForm.resultEntries_length (lf : LaneForm) (act : Word) (r : Nat → DWord) :
    (lf.resultEntries act r).length = if lf.res.wide then 2 else 1 := by
  unfold LaneForm.resultEntries
  split <;> rfl

theorem LaneForm.resultEntries_valid {lf : LaneForm} {act : Word} {r : Nat → DWord} {e : QEntry} (h : e ∈ lf.resultEntries act r) :
    e.valid = act := by
  unfold LaneForm.resultEntries at h
  split at h
  · rcases List.mem_pair.mp h with rfl | rfl <;> rfl
  · rw [List.mem_singleton.mp h]; rfl

/-- The words that a result pushes for an active lane: the two of a 64-bit value, or the value's 32 bits (R61). -/
theorem LaneForm.resultEntries_words (lf : LaneForm) {act : Word} (r : Nat → DWord) {n : Nat} (hn : n < 32) (h : act.getLsbD n = true) :
    (lf.resultEntries act r).map (fun e => e.word n)
      = if lf.res.wide then [⟨(r n).extractLsb' 0 32, false⟩, ⟨(r n).extractLsb' 32 32, false⟩]
        else [⟨BitVec.ofInt 32 (valueOf lf.res (r n)), false⟩] := by
  unfold LaneForm.resultEntries
  split
  next hwide =>
    simp only [List.map_cons, List.map_nil, QEntry.word_entryOf _ hn h, extendResult_of_wide .C hwide]
    rw [← BitVec.setWidth_eq_extractLsb' (by decide)]
  next =>
    simp only [List.map_cons, List.map_nil, QEntry.word_entryOf _ hn h]
    rw [BitVec.truncate_eq_setWidth, extendResult_C_low]

/-! ## Pushing -/

@[simp] theorem Gang.push_A_lq (x : Gang) (b : Nat) (es : List QEntry) :
    (x.push .A b es).lq = tset (b - 1) (tget (b - 1) [] x.lq ++ es) x.lq := rfl

@[simp] theorem Gang.push_C_sq (x : Gang) (b : Nat) (es : List QEntry) :
    (x.push .C b es).sq = if b = 3 then x.sq else tset (b - 1) (tget (b - 1) [] x.sq ++ es) x.sq := by
  simp only [Gang.push]; split <;> rfl

@[simp] theorem Gang.push_C_fq (x : Gang) (b : Nat) (es : List QEntry) : (x.push .C b es).fq = if b = 3 then x.fq ++ es else x.fq := by
  simp only [Gang.push]; split <;> rfl

/-- What the a-slice's sink appends to each load queue. -/
theorem pushSinks_a_lq (sk : BitVec 4) (es : List QEntry) (s : State) (g : GangId) {b : Nat} (hb : b = 1 ∨ b = 2) :
    tget (b - 1) [] ((pushSinks sk es s (.a g)).gang g).lq = tget (b - 1) [] (s.gang g).lq ++ if sk.getLsbD b then es else [] := by
  simp only [pushSinks, State.gang_modGang, apply_ite Gang.lq, Gang.push_A_lq]
  rcases hb with rfl | rfl <;> cases sk.getLsbD 1 <;> cases sk.getLsbD 2 <;> simp [tget_tset_same, tget_tset_other]

/-- What the c-slice's sink appends to each queue toward the a-slice. -/
theorem pushSinks_c_sq (sk : BitVec 4) (es : List QEntry) (s : State) (g : GangId) {b : Nat} (hb : b = 1 ∨ b = 2) :
    tget (b - 1) [] ((pushSinks sk es s (.c g)).gang g).sq = tget (b - 1) [] (s.gang g).sq ++ if sk.getLsbD b then es else [] := by
  simp only [pushSinks, State.gang_modGang, apply_ite Gang.sq, Gang.push_C_sq]
  rcases hb with rfl | rfl <;> cases sk.getLsbD 1 <;> cases sk.getLsbD 2 <;> simp [tget_tset_same, tget_tset_other]

theorem pushSinks_c_fq (sk : BitVec 4) (es : List QEntry) (s : State) (g : GangId) :
    ((pushSinks sk es s (.c g)).gang g).fq = (s.gang g).fq ++ if sk.getLsbD 3 then es else [] := by
  simp only [pushSinks, State.gang_modGang, apply_ite Gang.fq, Gang.push_C_fq]
  cases sk.getLsbD 3 <;> simp

/-- What a push of the a-slice leaves as it is. -/
theorem pushSinks_a_frame (sk : BitVec 4) (es : List QEntry) (s : State) (g : GangId) :
    let x := (pushSinks sk es s (.a g)).gang g
    x.sq = (s.gang g).sq ∧ x.fq = (s.gang g).fq ∧ x.a = (s.gang g).a ∧ x.s = (s.gang g).s ∧ x.sa = (s.gang g).sa
      ∧ x.ss = (s.gang g).ss := by
  simp only [pushSinks, State.gang_modGang]
  cases sk.getLsbD 1 <;> cases sk.getLsbD 2 <;> exact ⟨rfl, rfl, rfl, rfl, rfl, rfl⟩

/-- What a push of the c-slice leaves as it is. -/
theorem pushSinks_c_frame (sk : BitVec 4) (es : List QEntry) (s : State) (g : GangId) :
    let x := (pushSinks sk es s (.c g)).gang g
    x.lq = (s.gang g).lq ∧ x.v = (s.gang g).v := by
  simp only [pushSinks, State.gang_modGang]
  cases sk.getLsbD 1 <;> cases sk.getLsbD 2 <;> cases sk.getLsbD 3 <;> exact ⟨rfl, rfl⟩

/-! ## Delivery -/

/-- A register write leaves the queues of its gang as they are. -/
theorem State.writeReg_queues (s : State) {u : UnitId} {g : GangId} (hu : u = .a g ∨ u = .c g) (t : Ty) (code : Nat) (act : Word)
    (f : Nat → DWord) : let x := (s.writeReg u t code act f).gang g
      x.lq = (s.gang g).lq ∧ x.sq = (s.gang g).sq ∧ x.fq = (s.gang g).fq := by
  rcases hu with rfl | rfl
  · simp only [State.writeReg, State.gang_modGang, Gang.writeA]
    split
    · split
      · exact ⟨rfl, rfl, rfl⟩
      · split <;> exact ⟨rfl, rfl, rfl⟩
    · split <;> exact ⟨rfl, rfl, rfl⟩
  · simp only [State.writeReg, State.gang_modGang]
    split <;> exact ⟨rfl, rfl, rfl⟩

/-- A value result is pushed as it would be without a register in its sink. -/
theorem LaneForm.deliver_eq_pushSinks (lf : LaneForm) (s : State) {u : UnitId} {g : GangId} (hu : u = .a g ∨ u = .c g) (act : Word)
    (r : Nat → DWord) : ∃ w : State, lf.deliver s u act r = pushSinks lf.sk (lf.resultEntries act r) w u
      ∧ ((w.gang g).lq = (s.gang g).lq ∧ (w.gang g).sq = (s.gang g).sq ∧ (w.gang g).fq = (s.gang g).fq)
      ∧ (lf.sk.getLsbD 0 = false → w = s) := by
  refine ⟨_, rfl, ?_, fun h => if_neg (ne_true_of_eq_false h)⟩
  split
  · exact s.writeReg_queues hu ..
  · exact ⟨rfl, rfl, rfl⟩

/-- Settles O30: each named queue is appended the entries of the result, whose words are known lane by lane. -/
theorem sinkDelivery : Obligations.SinkDelivery := by
  intro lf s g act r t y pushed appended
  obtain ⟨w, ht, ⟨hwlq, hwsq, hwfq⟩, hws⟩ := LaneForm.deliver_eq_pushSinks lf s (.inl rfl : UnitId.a g = .a g ∨ _) act r
  obtain ⟨z, hy, ⟨hzlq, hzsq, hzfq⟩, hzs⟩ := LaneForm.deliver_eq_pushSinks lf s (.inr rfl : _ ∨ UnitId.c g = .c g) act r
  obtain ⟨htsq, htfq, hta, hts, htsa, htss⟩ := pushSinks_a_frame lf.sk (lf.resultEntries act r) w g
  obtain ⟨hylq, hyv⟩ := pushSinks_c_frame lf.sk (lf.resultEntries act r) z g
  have hpushed : pushed (lf.resultEntries act r) :=
    ⟨LaneForm.resultEntries_length lf act r, fun e he => LaneForm.resultEntries_valid he,
      fun n hn h => LaneForm.resultEntries_words lf r hn h,
      fun n h e he => QEntry.word_of_not_valid (by rw [LaneForm.resultEntries_valid he, h])⟩
  have happended {before after : List QEntry} {b : Nat}
      (h : after = before ++ if lf.sk.getLsbD b then lf.resultEntries act r else []) : appended before after b :=
    ⟨fun hno => by simpa [hno] using h, fun hyes => ⟨_, by simpa [hyes] using h, hpushed⟩⟩
  have htg : t.gang g = _ := congrArg (State.gang · g) ht
  have hyg : y.gang g = _ := congrArg (State.gang · g) hy
  rw [htg, hyg]
  refine ⟨fun b hb => ⟨happended ?_, happended ?_⟩, happended ?_, ⟨htsq.trans hwsq, htfq.trans hwfq, hylq.trans hzlq⟩, fun hno => ?_⟩
  · rw [pushSinks_a_lq _ _ _ _ hb, hwlq]
  · rw [pushSinks_c_sq _ _ _ _ hb, hzsq]
  · rw [pushSinks_c_fq, hzfq]
  · obtain rfl := hws hno
    obtain rfl := hzs hno
    exact ⟨hta, hts, htsa, htss, hyv⟩

end Sys2Proof.Machine
end

section
/-! SUPPORT. The integer functions of the lanes are those of their rules: at a type of 32 or 64 bits each is a bit vector operation
on the low bits of its operands (R139). -/

namespace Sys2Proof.Machine

/-- A type whose functions work on 32 or on 64 bits. -/
def laneWide (t : Ty) : Prop := t.bits = if t.wide then 64 else 32

/-- A function at the width of a type, on the low bits of its operands. -/
theorem atWidth2_eq {t : Ty} (ht : laneWide t) (f : (W : Nat) → BitVec W → BitVec W → BitVec W) (a b : DWord) :
    atWidth2 t f a b = (f t.bits (a.setWidth t.bits) (b.setWidth t.bits)).setWidth 64 := by
  unfold laneWide at ht
  rw [atWidth2]
  split
  next hw => rw [ht, if_pos hw]; simp only [BitVec.setWidth_eq]
  next hw => rw [ht, if_neg hw]

/-- A function whose result is known as a number gives that number modulo 2 to the width. -/
theorem atWidth2_eq_wrapTo {t : Ty} (ht : laneWide t) {f : (W : Nat) → BitVec W → BitVec W → BitVec W} {a b : DWord} {v : Int}
    (h : f t.bits (a.setWidth t.bits) (b.setWidth t.bits) = BitVec.ofInt t.bits v) : atWidth2 t f a b = wrapTo t v := by
  rw [atWidth2_eq ht, h, wrapTo_eq_setWidth]

/-! ## Shifts and choices as numbers -/

theorem shiftLeft_eq_ofInt {W : Nat} (x : BitVec W) (k : Nat) : x <<< k = BitVec.ofInt W ((x.toNat : Int) * 2 ^ k) := by
  have hcast : (x.toNat : Int) * 2 ^ k = ((x.toNat * 2 ^ k : Nat) : Int) := by push_cast; rfl
  apply BitVec.eq_of_toNat_eq
  rw [hcast, BitVec.ofInt_natCast, BitVec.toNat_ofNat, BitVec.toNat_shiftLeft, Nat.shiftLeft_eq]

theorem ushiftRight_eq_ofInt {W : Nat} (x : BitVec W) (k : Nat) : x >>> k = BitVec.ofInt W ((x.toNat : Int) / 2 ^ k) := by
  have hcast : (x.toNat : Int) / 2 ^ k = ((x.toNat / 2 ^ k : Nat) : Int) := by push_cast; rfl
  apply BitVec.eq_of_toNat_eq
  rw [hcast, BitVec.ofInt_natCast, BitVec.toNat_ofNat, BitVec.toNat_ushiftRight, Nat.shiftRight_eq_div_pow,
    Nat.mod_eq_of_lt ((Nat.div_le_self _ _).trans_lt x.isLt)]

theorem sshiftRight_eq_ofInt {W : Nat} (x : BitVec W) (k : Nat) : x.sshiftRight k = BitVec.ofInt W (x.toInt / 2 ^ k) := by
  rw [BitVec.sshiftRight_eq, Int.shiftRight_eq_div_pow]
  push_cast
  rfl

/-- The value of some bits as a signed or an unsigned number of their width. -/
def bitsValue (signed : Bool) {W : Nat} (x : BitVec W) : Int := if signed then x.toInt else x.toNat

theorem valueOf_eq_bitsValue (t : Ty) (v : DWord) : valueOf t v = bitsValue t.signed (v.setWidth t.bits) := by
  rw [valueOf, signedOf_eq_toInt, unsignedOf_eq_toNat, bitsValue]

/-- Some bits are those of their value. -/
theorem ofInt_bitsValue (signed : Bool) {W : Nat} (x : BitVec W) : BitVec.ofInt W (bitsValue signed x) = x := by
  cases signed
  · exact (BitVec.ofInt_natCast ..).trans ((BitVec.ofNat_toNat ..).trans (BitVec.setWidth_eq x))
  · exact BitVec.ofInt_toInt

/-- The comparison of a signed or unsigned type is that of the values. -/
theorem le_iff_bitsValue_le (signed : Bool) {W : Nat} (x y : BitVec W) :
    (if signed then x.sle y else x.ule y) = true ↔ bitsValue signed x ≤ bitsValue signed y := by
  cases signed
  · exact BitVec.ule_iff_toNat_le.trans Int.ofNat_le.symm
  · exact BitVec.sle_iff_toInt_le

/-! ## Each function and its rule -/

section
variable {t : Ty} (ht : laneWide t) (a b : DWord)
include ht

theorem aluAdd_eq_ruleAdd : aluAdd t a b = ruleAdd t a b := by
  refine atWidth2_eq_wrapTo ht ?_
  simp only [unsignedOf_eq_toNat, BitVec.ofInt_add, BitVec.ofInt_natCast, BitVec.ofNat_toNat, BitVec.setWidth_eq]

theorem aluSub_eq_ruleSub : aluSub t a b = ruleSub t a b := by
  refine atWidth2_eq_wrapTo ht ?_
  simp only [unsignedOf_eq_toNat, Int.sub_eq_add_neg, BitVec.ofInt_add, BitVec.ofInt_neg, BitVec.ofInt_natCast,
    BitVec.ofNat_toNat, BitVec.setWidth_eq, BitVec.sub_eq_add_neg]

theorem aluMul_eq_ruleMul : aluMul t a b = ruleMul t a b := by
  refine atWidth2_eq_wrapTo ht ?_
  simp only [unsignedOf_eq_toNat, BitVec.ofInt_mul, BitVec.ofInt_natCast, BitVec.ofNat_toNat, BitVec.setWidth_eq]

theorem aluAnd_eq_ruleAnd : aluAnd t a b = ruleAnd t a b := by
  rw [aluAnd, atWidth2_eq ht, ruleAnd, unsignedOf_eq_toNat, unsignedOf_eq_toNat, ← BitVec.toNat_and, BitVec.ofNat_toNat]

theorem aluOr_eq_ruleOr : aluOr t a b = ruleOr t a b := by
  rw [aluOr, atWidth2_eq ht, ruleOr, unsignedOf_eq_toNat, unsignedOf_eq_toNat, ← BitVec.toNat_or, BitVec.ofNat_toNat]

theorem aluXor_eq_ruleXor : aluXor t a b = ruleXor t a b := by
  rw [aluXor, atWidth2_eq ht, ruleXor, unsignedOf_eq_toNat, unsignedOf_eq_toNat, ← BitVec.toNat_xor, BitVec.ofNat_toNat]

theorem aluShl_eq_ruleShl : aluShl t a b = ruleShl t a b := by
  refine atWidth2_eq_wrapTo ht ?_
  rw [shiftOf, unsignedOf_eq_toNat, unsignedOf_eq_toNat, shiftLeft_eq_ofInt]

theorem aluShr_eq_ruleShr : aluShr t a b = ruleShr t a b := by
  refine atWidth2_eq_wrapTo ht ?_
  rw [shiftOf, unsignedOf_eq_toNat, unsignedOf_eq_toNat, ushiftRight_eq_ofInt]

theorem aluSar_eq_ruleSar : aluSar t a b = ruleSar t a b := by
  refine atWidth2_eq_wrapTo ht ?_
  rw [shiftOf, signedOf_eq_toInt, unsignedOf_eq_toNat, sshiftRight_eq_ofInt]

theorem aluMin_eq_ruleMin : aluMin t a b = ruleMin t a b := by
  refine atWidth2_eq_wrapTo ht ?_
  rw [valueOf_eq_bitsValue, valueOf_eq_bitsValue, min_def, apply_ite (BitVec.ofInt _), ofInt_bitsValue, ofInt_bitsValue]
  exact if_congr (le_iff_bitsValue_le ..) rfl rfl

theorem aluMax_eq_ruleMax : aluMax t a b = ruleMax t a b := by
  refine atWidth2_eq_wrapTo ht ?_
  rw [valueOf_eq_bitsValue, valueOf_eq_bitsValue, max_comm, max_def, apply_ite (BitVec.ofInt _), ofInt_bitsValue, ofInt_bitsValue]
  exact if_congr (le_iff_bitsValue_le ..) rfl rfl

end

/-! ## The natural types of a unit (R59) -/

theorem laneWide_natural (u : UnitKind) : laneWide u.natural := by cases u <;> rfl

theorem laneWide_signedNatural (u : UnitKind) : laneWide (signedNatural u) := by cases u <;> rfl

/-! ## Replacing a halfword (R66) -/

/-- Replacing 16 bits at a position puts the new ones between the bits above and the bits below. -/
theorem replace_field (v x k : Nat) :
    v - v / 2 ^ k % 2 ^ 16 * 2 ^ k + x * 2 ^ k = 2 ^ k * (2 ^ 16 * (v / 2 ^ k / 2 ^ 16) + x) + v % 2 ^ k := by
  have hlow : 2 ^ k * (v / 2 ^ k) + v % 2 ^ k = v := Nat.div_add_mod v (2 ^ k)
  have hfield : 2 ^ 16 * (v / 2 ^ k / 2 ^ 16) + v / 2 ^ k % 2 ^ 16 = v / 2 ^ k := Nat.div_add_mod _ _
  have hrest : v - v / 2 ^ k % 2 ^ 16 * 2 ^ k = 2 ^ k * (2 ^ 16 * (v / 2 ^ k / 2 ^ 16)) + v % 2 ^ k := by
    apply Nat.sub_eq_of_eq_add
    calc v = 2 ^ k * (2 ^ 16 * (v / 2 ^ k / 2 ^ 16) + v / 2 ^ k % 2 ^ 16) + v % 2 ^ k := by rw [hfield, hlow]
      _ = _ := by ring
  rw [hrest]
  ring

/-- What `movh` leaves in d, as a number. -/
theorem putHalf_eq (v : DWord) (h : Nat) (x : Half) :
    putHalf v h x = BitVec.ofNat 64 (v.toNat - v.toNat / 2 ^ (16 * h) % 2 ^ 16 * 2 ^ (16 * h) + x.toNat * 2 ^ (16 * h)) := by
  rw [replace_field, putHalf]
  generalize 16 * h = k
  apply BitVec.eq_of_getLsbD_eq
  intro j hj
  have hlow : v.toNat % 2 ^ k < 2 ^ k := Nat.mod_lt _ (Nat.two_pow_pos k)
  have hmask (i : Nat) : (0xFFFF : DWord).getLsbD i = decide (i < 16) := by
    rw [show (0xFFFF : DWord) = BitVec.ofNat 64 (2 ^ 16 - 1) from rfl, BitVec.getLsbD_ofNat, Nat.testBit_two_pow_sub_one]
    simp only [← Bool.decide_and, decide_eq_decide]
    omega
  simp only [BitVec.getLsbD_or, BitVec.getLsbD_and, BitVec.getLsbD_not, BitVec.getLsbD_shiftLeft, hj, hmask, BitVec.getLsbD_ofNat,
    BitVec.getLsbD_setWidth, decide_true, Bool.true_and, Nat.testBit_two_pow_mul_add _ hlow, Nat.testBit_two_pow_mul_add _ x.isLt,
    Nat.testBit_mod_two_pow, Nat.testBit_div_two_pow, BitVec.testBit_toNat]
  rcases Nat.lt_or_ge j k with hjk | hjk
  · simp [hjk]
  · have hj' : j - k < 64 := by omega
    rcases Nat.lt_or_ge (j - k) 16 with hfield | habove
    · simp [Nat.not_lt.mpr hjk, hfield, hj']
    · have hbit : j - k - 16 + 16 + k = j := by omega
      have hx : x.getLsbD (j - k) = false := BitVec.getLsbD_of_ge x _ habove
      simp [Nat.not_lt.mpr hjk, Nat.not_lt.mpr habove, hj', hbit, hx]

end Sys2Proof.Machine
end

section
/-! SUPPORT. The order of R23 on the bits of a format is that of their exact values, and what follows for `fmax` and for a
conversion between floating types (R25, R150). -/

namespace Sys2Proof.Machine

/-! ## Magnitudes -/

/-- The value of a finite magnitude in units of the format's least subnormal. -/
def Fmt.units (F : Fmt) (m : Nat) : Nat :=
  (if m / 2 ^ F.fw = 0 then m % 2 ^ F.fw else 2 ^ F.fw + m % 2 ^ F.fw) * 2 ^ (m / 2 ^ F.fw - 1)

theorem Fmt.units_lt (F : Fmt) (m : Nat) : F.units m < 2 ^ F.fw * 2 ^ (m / 2 ^ F.fw) := by
  have hlow : m % 2 ^ F.fw < 2 ^ F.fw := Nat.mod_lt _ (Nat.two_pow_pos _)
  unfold Fmt.units
  split
  next he => simpa [he] using hlow
  next he =>
    calc (2 ^ F.fw + m % 2 ^ F.fw) * 2 ^ (m / 2 ^ F.fw - 1)
        < (2 ^ F.fw + 2 ^ F.fw) * 2 ^ (m / 2 ^ F.fw - 1) := Nat.mul_lt_mul_of_pos_right (by omega) (Nat.two_pow_pos _)
      _ = 2 ^ F.fw * 2 ^ (m / 2 ^ F.fw - 1 + 1) := by ring
      _ = 2 ^ F.fw * 2 ^ (m / 2 ^ F.fw) := by rw [Nat.sub_one_add_one he]

theorem Fmt.le_units (F : Fmt) {m : Nat} (he : m / 2 ^ F.fw ≠ 0) : 2 ^ F.fw * 2 ^ (m / 2 ^ F.fw - 1) ≤ F.units m := by
  rw [Fmt.units, if_neg he]
  exact Nat.mul_le_mul_right _ (Nat.le_add_right ..)

/-- A greater magnitude has a greater value. -/
theorem Fmt.units_strictMono (F : Fmt) : StrictMono F.units := by
  intro m n h
  rcases (Nat.div_le_div_right h.le : m / 2 ^ F.fw ≤ n / 2 ^ F.fw).lt_or_eq with hlt | heq
  · have hn : n / 2 ^ F.fw ≠ 0 := Nat.ne_zero_of_lt hlt
    calc F.units m < 2 ^ F.fw * 2 ^ (m / 2 ^ F.fw) := F.units_lt m
      _ ≤ 2 ^ F.fw * 2 ^ (n / 2 ^ F.fw - 1) := Nat.mul_le_mul_left _ (Nat.pow_le_pow_right (by decide) (Nat.le_sub_one_of_lt hlt))
      _ ≤ F.units n := F.le_units hn
  · have hm := Nat.div_add_mod m (2 ^ F.fw)
    have hn := Nat.div_add_mod n (2 ^ F.fw)
    rw [heq] at hm
    unfold Fmt.units
    rw [heq]
    apply Nat.mul_lt_mul_of_pos_right _ (Nat.two_pow_pos _)
    split <;> omega

/-- The rational number that the bits of a finite value stand for. -/
theorem Fmt.toRat_value (F : Fmt) {b : Nat} (hnan : F.isNaN b = false) (hinf : F.isInf b = false) :
    (∃ m x, F.value b = .fin (F.neg b) m x) ∧
    (F.value b).toRat = (if F.neg b then -1 else 1) * ((F.units (F.mag b) : ℚ) * 2 ^ (1 - F.bias - F.fw : Int)) := by
  simp only [Fmt.value, hnan, hinf, Bool.false_eq_true, if_false]
  by_cases he : F.mag b / 2 ^ F.fw = 0
  · rw [if_pos he]
    refine ⟨⟨_, _, rfl⟩, ?_⟩
    simp [FV.toRat, Fmt.units, he]
  · rw [if_neg he]
    refine ⟨⟨_, _, rfl⟩, ?_⟩
    simp only [FV.toRat, Fmt.units, if_neg he]
    generalize F.mag b / 2 ^ F.fw = e at he
    have hexp : (e : Int) - F.bias - F.fw = ((e - 1 : Nat) : Int) + (1 - F.bias - F.fw) := by omega
    rw [hexp, zpow_add₀ two_ne_zero, zpow_natCast]
    push_cast
    ring

/-! ## The order -/

theorem Fmt.mag_lt_of_isInf (F : Fmt) {a b : Nat} (ha : F.isInf a = true) (hnan : F.isNaN b = false) (hinf : F.isInf b = false) :
    F.mag b < F.mag a := by
  simp only [Fmt.isInf, Bool.and_eq_true, beq_iff_eq] at ha
  obtain ⟨hF, hmag⟩ := ha
  simp only [Fmt.isNaN, Fmt.isInf, hF, if_true, Bool.true_and, decide_eq_false_iff_not, beq_eq_false_iff_ne] at hnan hinf
  omega

theorem Fmt.value_of_isInf (F : Fmt) {b : Nat} (hnan : F.isNaN b = false) (h : F.isInf b = true) : F.value b = .inf (F.neg b) := by
  simp [Fmt.value, hnan, h]

theorem Fmt.value_eq_nan_iff (F : Fmt) (b : Nat) : F.value b = .nan ↔ F.isNaN b = true := by
  refine ⟨fun hv => ?_, fun h => by simp [Fmt.value, h]⟩
  by_contra h
  have hnan : F.isNaN b = false := Bool.eq_false_iff.mpr h
  cases hinf : F.isInf b
  · obtain ⟨⟨m, x, hfin⟩, -⟩ := F.toRat_value hnan hinf
    exact FV.noConfusion (hv.symm.trans hfin)
  · exact FV.noConfusion (hv.symm.trans (F.value_of_isInf hnan hinf))

theorem Fmt.key_of_neg (F : Fmt) {b : Nat} (h : F.neg b = true) : F.key b = -(F.mag b : Int) - 1 := if_pos h

theorem Fmt.key_of_not_neg (F : Fmt) {b : Nat} (h : F.neg b = false) : F.key b = F.mag b := if_neg (ne_true_of_eq_false h)

theorem Fmt.key_bounds (F : Fmt) (b : Nat) : -(F.mag b : Int) - 1 ≤ F.key b ∧ F.key b ≤ F.mag b := by
  cases h : F.neg b
  · rw [F.key_of_not_neg h]; omega
  · rw [F.key_of_neg h]; omega

/-- Between finite values the signs decide, or for equal signs the magnitudes. -/
theorem Fmt.below_value_finite (F : Fmt) {a b : Nat} (ha : F.isNaN a = false) (hb : F.isNaN b = false)
    (ha' : F.isInf a = false) (hb' : F.isInf b = false) : (F.value a).below (F.value b) = decide (F.key a < F.key b) := by
  obtain ⟨⟨m, x, hva⟩, hra⟩ := F.toRat_value ha ha'
  obtain ⟨⟨n, y, hvb⟩, hrb⟩ := F.toRat_value hb hb'
  rw [hva] at hra
  rw [hvb] at hrb
  have hunit : (0 : ℚ) < 2 ^ (1 - F.bias - F.fw : Int) := by positivity
  generalize (2 : ℚ) ^ (1 - F.bias - F.fw : Int) = c at hra hrb hunit
  have hlt (m n : Nat) : (F.units m : ℚ) * c < F.units n * c ↔ m < n := by
    rw [mul_lt_mul_iff_left₀ hunit, Nat.cast_lt, F.units_strictMono.lt_iff_lt]
  have hnonnegA : 0 ≤ (F.units (F.mag a) : ℚ) * c := by positivity
  have hnonnegB : 0 ≤ (F.units (F.mag b) : ℚ) * c := by positivity
  rw [hva, hvb]
  cases hna : F.neg a <;> cases hnb : F.neg b <;> rw [hna] at hra <;> rw [hnb] at hrb <;> simp only [FV.below, hra, hrb]
  case false.false =>
    simp [hlt, F.key_of_not_neg hna, F.key_of_not_neg hnb]
  case false.true =>
    rw [F.key_of_not_neg hna, F.key_of_neg hnb, decide_eq_false (by omega : ¬ (F.mag a : Int) < -F.mag b - 1)]
    simp
    linarith
  case true.false =>
    have hle : -((F.units (F.mag a) : ℚ) * c) ≤ F.units (F.mag b) * c := by linarith
    rw [F.key_of_neg hna, F.key_of_not_neg hnb, decide_eq_true (by omega : -(F.mag a : Int) - 1 < F.mag b)]
    simpa using hle.lt_or_eq
  case true.true =>
    simp [hlt, F.key_of_neg hna, F.key_of_neg hnb]

/-- Of two numbers the one lies below the other in the order of R23 where its key is the lesser. -/
theorem Fmt.below_value (F : Fmt) {a b : Nat} (ha : F.isNaN a = false) (hb : F.isNaN b = false) :
    (F.value a).below (F.value b) = decide (F.key a < F.key b) := by
  obtain ⟨hloa, hhia⟩ := F.key_bounds a
  obtain ⟨hlob, hhib⟩ := F.key_bounds b
  cases ha' : F.isInf a <;> cases hb' : F.isInf b
  case false.false => exact F.below_value_finite ha hb ha' hb'
  case false.true =>
    have hmag := F.mag_lt_of_isInf hb' ha ha'
    obtain ⟨⟨m, x, hva⟩, -⟩ := F.toRat_value ha ha'
    rw [hva, F.value_of_isInf hb hb']
    cases hn : F.neg b
    · exact (decide_eq_true (by rw [F.key_of_not_neg hn]; omega)).symm
    · exact (decide_eq_false (by rw [F.key_of_neg hn]; omega)).symm
  case true.false =>
    have hmag := F.mag_lt_of_isInf ha' hb hb'
    obtain ⟨⟨m, x, hvb⟩, -⟩ := F.toRat_value hb hb'
    rw [F.value_of_isInf ha ha', hvb]
    cases hn : F.neg a
    · exact (decide_eq_false (by rw [F.key_of_not_neg hn]; omega)).symm
    · exact (decide_eq_true (by rw [F.key_of_neg hn]; omega)).symm
  case true.true =>
    have hmag : F.mag a = F.mag b := by
      simp only [Fmt.isInf, Bool.and_eq_true, beq_iff_eq] at ha' hb'
      exact ha'.2.trans hb'.2.symm
    rw [F.value_of_isInf ha ha', F.value_of_isInf hb hb']
    cases hna : F.neg a <;> cases hnb : F.neg b
    · exact (decide_eq_false (by rw [F.key_of_not_neg hna, F.key_of_not_neg hnb]; omega)).symm
    · exact (decide_eq_false (by rw [F.key_of_not_neg hna, F.key_of_neg hnb]; omega)).symm
    · exact (decide_eq_true (by rw [F.key_of_neg hna, F.key_of_not_neg hnb]; omega)).symm
    · exact (decide_eq_false (by rw [F.key_of_neg hna, F.key_of_neg hnb]; omega)).symm

/-! ## Maximum (R150) -/

theorem floatOf_eq_nan_iff (t : Ty) (a : DWord) : floatOf t a = .nan ↔ (Fmt.ofTy t).isNaN (lowBits t a) = true :=
  (Fmt.ofTy t).value_eq_nan_iff _

/-- The greater of two operands by their keys is the greater in the order of R23; of equal ones both give the first. -/
theorem aluFmax_eq_ruleMinimum (t : Ty) (a b : DWord) : aluFmax t a b = ruleMinimum true t a b := by
  have hiff : ((Fmt.ofTy t).isNaN (lowBits t a) || (Fmt.ofTy t).isNaN (lowBits t b)) = true ↔ floatOf t a = .nan ∨ floatOf t b = .nan := by
    rw [Bool.or_eq_true, floatOf_eq_nan_iff, floatOf_eq_nan_iff]
  rw [aluFmax, float2, Fmt.pick, ruleMinimum]
  by_cases hnan : floatOf t a = .nan ∨ floatOf t b = .nan
  · rw [if_pos hnan, if_pos (hiff.mpr hnan), quietNaN]
  · rw [if_neg hnan, if_neg (mt hiff.mp hnan), rulePick]
    rw [floatOf_eq_nan_iff, floatOf_eq_nan_iff, not_or, Bool.not_eq_true, Bool.not_eq_true] at hnan
    have hbelow : (floatOf t a).below (floatOf t b) = decide ((Fmt.ofTy t).key (lowBits t a) < (Fmt.ofTy t).key (lowBits t b)) :=
      Fmt.below_value _ hnan.1 hnan.2
    rcases lt_or_ge ((Fmt.ofTy t).key (lowBits t a)) ((Fmt.ofTy t).key (lowBits t b)) with hlt | hge
    · have hpick : (floatOf t a).below (floatOf t b) = true := hbelow.trans (decide_eq_true hlt)
      simp only [if_true, hpick, ge_iff_le, Int.not_le.mpr hlt, if_false]; rfl
    · have hpick : (floatOf t a).below (floatOf t b) = false := hbelow.trans (decide_eq_false (Int.not_lt.mpr hge))
      simp only [if_true, hpick, ge_iff_le, hge, Bool.false_eq_true, if_false]; rfl

/-! ## Conversion between floating types (R25) -/

theorem Fmt.infBits_eq (t : Ty) : (Fmt.ofTy t).infBits = if t = .e4m3 then (Fmt.ofTy t).maxFinite else (Fmt.ofTy t).infBits := by
  split
  next h => subst h; rfl
  next => rfl

theorem aluCvt_eq_ruleCvt (r : Rnd) {dst src : Ty} (hd : dst.floating = true) (hs : src.floating = true) (a : DWord) :
    aluCvt r dst src a = ruleCvt r dst src a := by
  have hvalue : (Fmt.ofTy src).value (a.toNat % 2 ^ src.bits) = floatOf src a := rfl
  simp only [aluCvt, convert, ruleCvt, hd, hs, hvalue]
  cases floatOf src a with
  | nan => rfl
  | inf n => simp [Fmt.ofValue, ← Fmt.infBits_eq]
  | fin n m x => rfl

end Sys2Proof.Machine
end

section
/-! SUPPORT. The 16-bit and immediate forms: an instruction of such a form that issues writes its result and moves on (R59, R65,
R66, R158). -/

namespace Sys2Proof.Machine

/-! ## What is counted at issue -/

/-- What is counted at issue changes no register. -/
@[simp] theorem State.countIssue_readReg (s : State) (u : UnitId) (t : Ty) (code n : Nat) :
    (s.countIssue u).readReg u t code n = s.readReg u t code n := by
  cases u with
  | a g => simp only [State.readReg, State.countIssue, State.gang_modGang]; rfl
  | c g => simp only [State.readReg, State.countIssue, State.gang_modGang]; rfl
  | m c => rfl

/-- What is counted at issue changes no active lane. -/
@[simp] theorem State.countIssue_active (s : State) (u : UnitId) : (s.countIssue u).active u = s.active u := by
  cases u with
  | a g => simp only [State.active, State.countIssue, State.gang_modGang]; rfl
  | c g => simp only [State.active, State.countIssue, State.gang_modGang]; rfl
  | m c => rfl

/-! ## The forms -/

/-- The state in which an instruction that issues has written a result to d at a type, lane by lane from the registers that it
read, and moved on. -/
def State.wrote (s : State) (i : Instr) (ty : Ty) (d : Nat) (r : (Nat → DWord) → DWord) : State :=
  ((s.countIssue s.cur).writeReg (s.countIssue s.cur).cur ty d (s.active s.cur) fun n => r fun c => (s.readReg s.cur ty c n).bits).advance i

theorem directOp_of_issues {i : Instr} {s : State} (h : issues i s = true) (t : UnitKind → Ty) (d : BitVec 6)
    {f : UnitKind → (Nat → Nat → DWord) → Nat → DWord} {r : (Nat → DWord) → DWord}
    (hr : ∀ x n, f s.cur.kind x n = r fun c => x c n) :
    directOp i t d f s = .next (s.wrote i (t s.cur.kind) d.toNat r) := by
  have hf (x) : f s.cur.kind x = fun n => r fun c => x c n := funext (hr x)
  rw [directOp, issue_of_issues _ h]
  simp only [State.countIssue_cur, State.countIssue_readReg, State.countIssue_active, hf, State.wrote]

/-- A 16-bit form combines d and b. -/
theorem shortOp_of_issues {i : Instr} {s : State} (h : issues i s = true) (t : UnitKind → Ty) (d : BitVec 6) (b : BitVec 5)
    {f : Ty → DWord → DWord → DWord} {r : (Nat → DWord) → DWord} (hr : ∀ x, f (t s.cur.kind) (x d.toNat) (x b.toNat) = r x) :
    shortOp i t d b f s = .next (s.wrote i (t s.cur.kind) d.toNat r) :=
  directOp_of_issues h t d fun x n => hr fun c => x c n

/-- An immediate form combines d and the extended immediate. -/
theorem immOp_of_issues {i : Instr} {s : State} (h : issues i s = true) (t : UnitKind → Ty) (d : BitVec 6) {v w : DWord} (hv : v = w)
    {f : Ty → DWord → DWord → DWord} {r : (Nat → DWord) → DWord} (hr : ∀ x, f (t s.cur.kind) (x d.toNat) w = r x) :
    immOp i t d v f s = .next (s.wrote i (t s.cur.kind) d.toNat r) :=
  directOp_of_issues h t d fun x n => hv ▸ hr fun c => x c n

theorem signExtend_eq_ofInt (i : Half) : i.signExtend 64 = BitVec.ofInt 64 i.toInt := rfl

theorem zeroExtend_eq_ofNat (i : Half) : i.zeroExtend 64 = BitVec.ofNat 64 i.toNat := (BitVec.ofNat_toNat ..).symm

/-- An FP16 immediate is widened as a conversion does (R95, R158). -/
theorem immFloat_eq (u : UnitKind) (i : Half) : immFloat u.floating i = ruleCvt .rne u.floating .f16 (BitVec.ofNat 64 i.toNat) := by
  have hfloating : u.floating.floating = true := by cases u <;> rfl
  rw [immFloat, zeroExtend_eq_ofNat, aluCvt_eq_ruleCvt .rne hfloating rfl]

/-! ## The statement -/

/-- Each integer form is a direct operation whose function is that of its rule. -/
theorem exec_of_shortRule {i : Instr} {s : State} {ty : Ty} {d : Nat} {r : (Nat → DWord) → DWord}
    (hr : shortRule s.cur.kind i = some (ty, d, r)) (h : issues i s = true) : exec i s = .next (s.wrote i ty d r) := by
  have hn := laneWide_natural s.cur.kind
  have hs := laneWide_signedNatural s.cur.kind
  unfold shortRule at hr
  split at hr <;> cases hr
  · exact (rfl : _ = execMov16 _ _ s).trans (shortOp_of_issues h UnitKind.natural _ _ fun _ => rfl)
  · exact (rfl : _ = execAdd16 _ _ s).trans (shortOp_of_issues h UnitKind.natural _ _ fun _ => aluAdd_eq_ruleAdd hn _ _)
  · exact (rfl : _ = execSub16 _ _ s).trans (shortOp_of_issues h UnitKind.natural _ _ fun _ => aluSub_eq_ruleSub hn _ _)
  · exact (rfl : _ = execMul16 _ _ s).trans (shortOp_of_issues h UnitKind.natural _ _ fun _ => aluMul_eq_ruleMul hn _ _)
  · exact (rfl : _ = execAnd16 _ _ s).trans (shortOp_of_issues h UnitKind.natural _ _ fun _ => aluAnd_eq_ruleAnd hn _ _)
  · exact (rfl : _ = execOr16 _ _ s).trans (shortOp_of_issues h UnitKind.natural _ _ fun _ => aluOr_eq_ruleOr hn _ _)
  · exact (rfl : _ = execXor16 _ _ s).trans (shortOp_of_issues h UnitKind.natural _ _ fun _ => aluXor_eq_ruleXor hn _ _)
  · exact (rfl : _ = execShl16 _ _ s).trans (shortOp_of_issues h UnitKind.natural _ _ fun _ => aluShl_eq_ruleShl hn _ _)
  · exact (rfl : _ = execShr16 _ _ s).trans (shortOp_of_issues h UnitKind.natural _ _ fun _ => aluShr_eq_ruleShr hn _ _)
  · exact (rfl : _ = execSar16 _ _ s).trans (shortOp_of_issues h UnitKind.natural _ _ fun _ => aluSar_eq_ruleSar hn _ _)
  · exact (rfl : _ = execMin16 _ _ s).trans (shortOp_of_issues h signedNatural _ _ fun _ => aluMin_eq_ruleMin hs _ _)
  · exact (rfl : _ = execMax16 _ _ s).trans (shortOp_of_issues h signedNatural _ _ fun _ => aluMax_eq_ruleMax hs _ _)
  · exact (rfl : _ = execMovImm _ _ s).trans
      (immOp_of_issues h UnitKind.natural _ (signExtend_eq_ofInt _) fun _ => rfl)
  · exact (rfl : _ = execAddImm _ _ s).trans
      (immOp_of_issues h UnitKind.natural _ (signExtend_eq_ofInt _) fun _ => aluAdd_eq_ruleAdd hn _ _)
  · exact (rfl : _ = execMulImm _ _ s).trans
      (immOp_of_issues h UnitKind.natural _ (signExtend_eq_ofInt _) fun _ => aluMul_eq_ruleMul hn _ _)
  · exact (rfl : _ = execAndImm _ _ s).trans
      (immOp_of_issues h UnitKind.natural _ (zeroExtend_eq_ofNat _) fun _ => aluAnd_eq_ruleAnd hn _ _)
  · exact (rfl : _ = execOrImm _ _ s).trans
      (immOp_of_issues h UnitKind.natural _ (zeroExtend_eq_ofNat _) fun _ => aluOr_eq_ruleOr hn _ _)
  · exact (rfl : _ = execXorImm _ _ s).trans
      (immOp_of_issues h UnitKind.natural _ (zeroExtend_eq_ofNat _) fun _ => aluXor_eq_ruleXor hn _ _)
  · exact (rfl : _ = execShlImm _ _ s).trans
      (immOp_of_issues h UnitKind.natural _ (zeroExtend_eq_ofNat _) fun _ => aluShl_eq_ruleShl hn _ _)
  · exact (rfl : _ = execShrImm _ _ s).trans
      (immOp_of_issues h UnitKind.natural _ (zeroExtend_eq_ofNat _) fun _ => aluShr_eq_ruleShr hn _ _)
  · exact (rfl : _ = execSarImm _ _ s).trans
      (immOp_of_issues h UnitKind.natural _ (zeroExtend_eq_ofNat _) fun _ => aluSar_eq_ruleSar hn _ _)
  · exact (rfl : _ = execMinImm _ _ s).trans
      (immOp_of_issues h signedNatural _ (signExtend_eq_ofInt _) fun _ => aluMin_eq_ruleMin hs _ _)
  · exact (rfl : _ = execMaxImm _ _ s).trans
      (immOp_of_issues h signedNatural _ (signExtend_eq_ofInt _) fun _ => aluMax_eq_ruleMax hs _ _)
  · exact (rfl : _ = execMovh _ _ _ s).trans (directOp_of_issues h UnitKind.natural _ fun _ _ => putHalf_eq ..)

/-- Each floating form is a direct operation whose function is that of its rule. -/
theorem exec_of_shortFloatRule {i : Instr} {s : State} {d : Nat} {r : (Nat → DWord) → DWord}
    (hr : shortFloatRule s.cur.kind i = some (d, r)) (h : issues i s = true) :
    exec i s = .next (s.wrote i s.cur.kind.floating d r) := by
  have himm := immFloat_eq s.cur.kind
  unfold shortFloatRule at hr
  split at hr <;> cases hr
  · exact (rfl : _ = execFadd16 _ _ s).trans (shortOp_of_issues h UnitKind.floating _ _ fun _ => rfl)
  · exact (rfl : _ = execFsub16 _ _ s).trans (shortOp_of_issues h UnitKind.floating _ _ fun _ => rfl)
  · exact (rfl : _ = execFmul16 _ _ s).trans (shortOp_of_issues h UnitKind.floating _ _ fun _ => rfl)
  · exact (rfl : _ = execFmax16 _ _ s).trans (shortOp_of_issues h UnitKind.floating _ _ fun _ => aluFmax_eq_ruleMinimum _ _ _)
  · exact (rfl : _ = execFmovImm _ _ s).trans (immOp_of_issues h UnitKind.floating _ rfl fun _ => himm _)
  · exact (rfl : _ = execFaddImm _ _ s).trans (immOp_of_issues h UnitKind.floating _ rfl fun _ => congrArg _ (himm _))
  · exact (rfl : _ = execFmulImm _ _ s).trans (immOp_of_issues h UnitKind.floating _ rfl fun _ => congrArg _ (himm _))
  · exact (rfl : _ = execFmaxImm _ _ s).trans (immOp_of_issues h UnitKind.floating _ rfl fun _ => by rw [himm, aluFmax_eq_ruleMinimum])

/-- Settles O22: the integer and the floating forms each write what their rule gives and move on. -/
theorem shortFormResults : Obligations.ShortFormResults :=
  ⟨fun _ _ _ _ _ hr h => exec_of_shortRule hr h, fun _ _ _ _ hr h => exec_of_shortFloatRule hr h⟩

end Sys2Proof.Machine
end

section
/-! SUPPORT. What an instruction that issues in the a-slice may rely on, and how the operations of the gang's fragment and join tables
act: facts for the statements of control flow (R103 to R118). -/

namespace Sys2Proof.Machine

/-! ## What issuing tells of the state -/

theorem runnable_of_issues {i : Instr} {s : State} (h : issues i s = true) : s.runnable s.cur = true := by
  simp only [issues, Bool.and_eq_true] at h
  exact h.1.1.1.1.1.1

theorem supervisorIllegal_of_issues {i : Instr} {s : State} (h : issues i s = true) :
    supervisorIllegal s.cur (s.mode s.cur) i = false := by
  simp only [issues, Bool.and_eq_true, Bool.not_eq_true'] at h
  exact h.1.1.1.1.2

theorem stallOf_of_issues {i : Instr} {s : State} (h : issues i s = true) : stallOf s s.cur i = none := by
  simp only [issues, Bool.and_eq_true, Option.isNone_iff_eq_none] at h
  exact h.1.1.1.2

/-- An instruction that is no lane operation and issues is not held by what it needs itself. -/
theorem stallOther_of_issues {i : Instr} {s : State} (h : issues i s = true) (hl : i.laneForm s.cur.kind = none) :
    stallOther s s.cur i = none := by
  have hs := stallOf_of_issues h
  simp only [stallOf, hl] at hs
  split at hs
  · cases hs
  · exact hs

/-- The a-slice issues in user mode only when no record waits for room (R105). -/
theorem Gang.dqNext_of_runnable {s : State} {g : GangId} (h : s.runnable (.a g) = true) (hm : (s.gang g).mode = .user) :
    (s.gang g).dqNext = [] := by
  simp only [State.runnable, Bool.and_eq_true, hm] at h
  obtain ⟨_, hq⟩ := h
  simp only [bne_self_eq_false, Bool.false_or, Bool.and_eq_true, List.isEmpty_iff] at hq
  exact hq.1.1.1

/-- Where an instruction is illegal in the a-slice outside user mode (R207), one that issues does so in user mode. -/
theorem mode_of_issues {i : Instr} {s : State} {g : GangId} (hc : s.cur = .a g) (h : issues i s = true)
    (hi : ∀ m, supervisorIllegal (.a g) m i = (m != .user)) : (s.gang g).mode = .user := by
  have := supervisorIllegal_of_issues h
  rw [hc, hi] at this
  simpa [State.mode] using this

/-! ## Room in `dq` (R105) -/

/-- No record waits, and `dq` has room for one. -/
def Gang.hasRoom (x : Gang) : Prop := x.dqNext = [] ∧ x.dq.length < x.slip

theorem Gang.pushDq_of_hasRoom {x : Gang} (h : x.hasRoom) (r : DRec) : x.pushDq r = { x with dq := x.dq ++ [r] } := by
  simp [Gang.pushDq, h.1, h.2]

theorem Gang.pushDq_dq_of_hasRoom {x : Gang} (h : x.hasRoom) (r : DRec) : (x.pushDq r).dq = x.dq ++ [r] := by
  rw [Gang.pushDq_of_hasRoom h]

theorem Gang.pushes_pushDq {x y : Gang} (hq : y.dq = x.dq) (hn : y.dqNext = x.dqNext) (r : DRec) : x.pushes (y.pushDq r) = true := by
  unfold Gang.pushDq; split <;> simp [Gang.pushes, hq, hn]

theorem Gang.hasRoom_of_slipStall {x : Gang} (hn : x.dqNext = []) (h : x.slipStall = none) : x.hasRoom := by
  refine ⟨hn, ?_⟩
  simp only [Gang.slipStall, Gang.room, hn, if_true, ite_eq_right_iff, reduceCtorEq, imp_false, List.length_nil] at h
  omega

/-- An effect that pushes a record is held unless there is room. -/
theorem Gang.hasRoom_of_slipFor {x y : Gang} (hn : x.dqNext = []) (hp : x.pushes y = true) (h : x.slipFor y = none) : x.hasRoom :=
  Gang.hasRoom_of_slipStall hn (by simpa [Gang.slipFor, hp] using h)

/-! ## Listed keys of a table -/

section
variable {K V : Type} [DecidableEq K]

theorem tfind_tset_same (k : K) (v : V) (t : Table K V) : tfind k (tset k v t) = some v := by
  induction t with
  | nil => simp [tset, tfind]
  | cons p t ih => by_cases h : p.1 = k <;> simp [tset, tfind, h, ih]

theorem tfind_tset_other {k j : K} (v : V) (t : Table K V) (h : j ≠ k) : tfind j (tset k v t) = tfind j t := by
  induction t with
  | nil => simp [tset, tfind, Ne.symm h]
  | cons p t ih =>
    by_cases hp : p.1 = k
    · simp [tset, tfind, hp, Ne.symm h]
    · simp only [tset, if_neg hp, tfind, ih]

theorem tfind_tdel_same (k : K) (t : Table K V) : tfind k (tdel k t) = none := by
  induction t with
  | nil => rfl
  | cons p t ih => by_cases hp : p.1 = k <;> simp_all [tdel, tfind]

theorem tfind_tdel_other {k j : K} (t : Table K V) (h : j ≠ k) : tfind j (tdel k t) = tfind j t := by
  induction t with
  | nil => rfl
  | cons p t ih =>
    by_cases hp : p.1 = k
    · simp_all [tdel, tfind, Ne.symm h]
    · by_cases hj : p.1 = j <;> simp_all [tdel, tfind]

end

/-! ## Entries of the fragment and join tables (R108, R109) -/

@[simp] theorem Gang.frag_setFrag (x : Gang) (e : Nat) (f : Frag) : (x.setFrag e f).frag e = f := tget_tset_same ..
theorem Gang.frag_setFrag_other (x : Gang) {e d : Nat} (f : Frag) (h : d ≠ e) : (x.setFrag e f).frag d = x.frag d :=
  tget_tset_other _ _ _ _ _ h
@[simp] theorem Gang.frag_makeReady (x : Gang) (e : Nat) (f : Frag) :
    (x.makeReady e f).frag e = { f with state := .ready, age := x.ages } := tget_tset_same ..
theorem Gang.frag_makeReady_other (x : Gang) {e d : Nat} (f : Frag) (h : d ≠ e) : (x.makeReady e f).frag d = x.frag d :=
  tget_tset_other _ _ _ _ _ h

section
variable (x : Gang) (e : Nat) (f : Frag)

@[simp] theorem Gang.setFrag_cur  : (x.setFrag e f).cur = x.cur := rfl
@[simp] theorem Gang.setFrag_apc  : (x.setFrag e f).apc = x.apc := rfl
@[simp] theorem Gang.setFrag_exmA  : (x.setFrag e f).exmA = x.exmA := rfl
@[simp] theorem Gang.setFrag_dq  : (x.setFrag e f).dq = x.dq := rfl
@[simp] theorem Gang.setFrag_dqNext  : (x.setFrag e f).dqNext = x.dqNext := rfl
@[simp] theorem Gang.setFrag_slip  : (x.setFrag e f).slip = x.slip := rfl
@[simp] theorem Gang.setFrag_live  : (x.setFrag e f).live = x.live := rfl
@[simp] theorem Gang.setFrag_joins  : (x.setFrag e f).joins = x.joins := rfl
@[simp] theorem Gang.setFrag_orphans  : (x.setFrag e f).orphans = x.orphans := rfl
@[simp] theorem Gang.setFrag_mode  : (x.setFrag e f).mode = x.mode := rfl
@[simp] theorem Gang.setFrag_join (j : Nat) : (x.setFrag e f).join j = x.join j := rfl
@[simp] theorem Gang.makeReady_cur  : (x.makeReady e f).cur = x.cur := rfl
@[simp] theorem Gang.makeReady_apc  : (x.makeReady e f).apc = x.apc := rfl
@[simp] theorem Gang.makeReady_exmA  : (x.makeReady e f).exmA = x.exmA := rfl
@[simp] theorem Gang.makeReady_dq  : (x.makeReady e f).dq = x.dq := rfl
@[simp] theorem Gang.makeReady_dqNext  : (x.makeReady e f).dqNext = x.dqNext := rfl
@[simp] theorem Gang.makeReady_slip  : (x.makeReady e f).slip = x.slip := rfl
@[simp] theorem Gang.makeReady_live  : (x.makeReady e f).live = x.live := rfl
@[simp] theorem Gang.makeReady_joins  : (x.makeReady e f).joins = x.joins := rfl
@[simp] theorem Gang.makeReady_orphans  : (x.makeReady e f).orphans = x.orphans := rfl
@[simp] theorem Gang.makeReady_mode  : (x.makeReady e f).mode = x.mode := rfl
@[simp] theorem Gang.makeReady_join (j : Nat) : (x.makeReady e f).join j = x.join j := rfl

end

/-! ## A record pushed leaves all but `dq` -/

theorem Gang.pushDq_eq (x : Gang) (r : DRec) : x.pushDq r = { x with dq := (x.pushDq r).dq, dqNext := (x.pushDq r).dqNext } := by
  unfold Gang.pushDq; split <;> rfl
@[simp] theorem Gang.pushDq_frag (x : Gang) (r : DRec) (e : Nat) : (x.pushDq r).frag e = x.frag e := by rw [Gang.pushDq_eq]; rfl
@[simp] theorem Gang.pushDq_join (x : Gang) (r : DRec) (j : Nat) : (x.pushDq r).join j = x.join j := by rw [Gang.pushDq_eq]; rfl
@[simp] theorem Gang.pushDq_cur (x : Gang) (r : DRec) : (x.pushDq r).cur = x.cur := by rw [Gang.pushDq_eq]
@[simp] theorem Gang.pushDq_apc (x : Gang) (r : DRec) : (x.pushDq r).apc = x.apc := by rw [Gang.pushDq_eq]
@[simp] theorem Gang.pushDq_exmA (x : Gang) (r : DRec) : (x.pushDq r).exmA = x.exmA := by rw [Gang.pushDq_eq]
@[simp] theorem Gang.pushDq_live (x : Gang) (r : DRec) : (x.pushDq r).live = x.live := by rw [Gang.pushDq_eq]
@[simp] theorem Gang.pushDq_monitors (x : Gang) (r : DRec) : (x.pushDq r).monitors = x.monitors := by rw [Gang.pushDq_eq]

/-! ## The gang as its a-slice counts an issue -/

section
variable (s : State) (g : GangId)

theorem State.gang_countIssue_a : (s.countIssue (.a g)).gang g = { s.gang g with
    ran := if (s.gang g).mode = .user then (s.gang g).ran + 1 else (s.gang g).ran
    lossSeen := (s.gang g).lossSeen && (s.gang g).mode != .user
    since := if (s.gang g).trapC.isSome then (s.gang g).since + 1 else (s.gang g).since } :=
  State.gang_modGang ..

@[simp] theorem State.countIssue_a_cur : ((s.countIssue (.a g)).gang g).cur = (s.gang g).cur := by
  rw [State.gang_countIssue_a]
@[simp] theorem State.countIssue_a_apc : ((s.countIssue (.a g)).gang g).apc = (s.gang g).apc := by
  rw [State.gang_countIssue_a]
@[simp] theorem State.countIssue_a_exmA : ((s.countIssue (.a g)).gang g).exmA = (s.gang g).exmA := by
  rw [State.gang_countIssue_a]
@[simp] theorem State.countIssue_a_dq : ((s.countIssue (.a g)).gang g).dq = (s.gang g).dq := by
  rw [State.gang_countIssue_a]
@[simp] theorem State.countIssue_a_live : ((s.countIssue (.a g)).gang g).live = (s.gang g).live := by
  rw [State.gang_countIssue_a]
@[simp] theorem State.countIssue_a_monitors : ((s.countIssue (.a g)).gang g).monitors = (s.gang g).monitors := by
  rw [State.gang_countIssue_a]
@[simp] theorem State.countIssue_a_fragMask : ((s.countIssue (.a g)).gang g).fragMask = (s.gang g).fragMask := by
  rw [State.gang_countIssue_a]; rfl
@[simp] theorem State.countIssue_a_freeJoin : ((s.countIssue (.a g)).gang g).freeJoin = (s.gang g).freeJoin := by
  rw [State.gang_countIssue_a]; rfl
@[simp] theorem State.countIssue_a_freeFrag : ((s.countIssue (.a g)).gang g).freeFrag = (s.gang g).freeFrag := by
  rw [State.gang_countIssue_a]; rfl
@[simp] theorem State.countIssue_a_hasRoom : ((s.countIssue (.a g)).gang g).hasRoom ↔ (s.gang g).hasRoom := by
  rw [State.gang_countIssue_a]; rfl
@[simp] theorem State.countIssue_a_frag (e : Nat) : ((s.countIssue (.a g)).gang g).frag e = (s.gang g).frag e := by
  rw [State.gang_countIssue_a]; rfl
@[simp] theorem State.countIssue_a_join (j : Nat) : ((s.countIssue (.a g)).gang g).join j = (s.gang g).join j := by
  rw [State.gang_countIssue_a]; rfl
@[simp] theorem State.countIssue_a_waitingAt (j : Nat) : ((s.countIssue (.a g)).gang g).waitingAt j = (s.gang g).waitingAt j := by
  rw [State.gang_countIssue_a]; rfl
@[simp] theorem State.countIssue_a_woke (e : Nat) : ((s.countIssue (.a g)).gang g).woke e = (s.gang g).woke e := by
  rw [State.gang_countIssue_a]; rfl
@[simp] theorem State.countIssue_a_readKa (k : Nat) : ((s.countIssue (.a g)).gang g).readKa k = (s.gang g).readKa k := by
  rw [State.gang_countIssue_a]; rfl
@[simp] theorem State.countIssue_a_exmOf (es : List Nat) : ((s.countIssue (.a g)).gang g).exmOf es = (s.gang g).exmOf es := by
  rw [State.gang_countIssue_a]; rfl
@[simp] theorem State.countIssue_a_readMask (k : Nat) : (s.countIssue (.a g)).readMask (.a g) k = s.readMask (.a g) k := by
  simp [State.readMask]
@[simp] theorem State.countIssue_a_pc : (s.countIssue (.a g)).pc (.a g) = (s.gang g).apc := by simp [State.pc]

end

/-- The a-slice moved past an instruction. -/
theorem State.advance_a {s : State} {g : GangId} (hc : s.cur = .a g) (i : Instr) :
    s.advance i = s.modGang g fun x => { x with apc := x.apc + BitVec.ofNat 57 i.size } := by
  rw [State.advance, hc]; rfl

/-! ## Lanes -/

theorem lowestLane_eq_some_iff {m : Word} {l : Nat} :
    lowestLane m = some l ↔ m.getLsbD l = true ∧ l < 32 ∧ ∀ n, n < l → m.getLsbD n = false := by
  simp [lowestLane, laneIdx, List.find?_range_eq_some]

theorem lowestLane_eq_none_iff {m : Word} : lowestLane m = none ↔ m = 0 := by
  simp only [lowestLane, laneIdx, List.find?_eq_none, List.mem_range]
  constructor
  · intro h
    exact BitVec.eq_of_getLsbD_eq fun i hi => by simpa using h i hi
  · rintro rfl; simp

end Sys2Proof.Machine
end

section
/-! PROOF. `brv` in the a-slice (R110, R111, R166). -/

namespace Sys2Proof.Machine

/-- A `brv` that issues in the a-slice has room for its record. -/
theorem hasRoom_of_issues_brv {s : State} {g : GangId} {o : BitVec 18} {k : BitVec 3} (hc : s.cur = .a g)
    (h : issues (.brv o k) s = true) : (s.gang g).hasRoom := by
  have hm := mode_of_issues hc h fun m => by cases m <;> rfl
  have hst : (s.gang g).slipStall = none := by
    have := stallOther_of_issues h (by rw [hc]; rfl)
    rw [hc] at this
    exact this
  exact Gang.hasRoom_of_slipStall (Gang.dqNext_of_runnable (hc ▸ runnable_of_issues h) hm) hst

/-- A `brv` that issues leaves its gang as `Gang.brv` has it, or overflows. -/
theorem exec_brv_of_issues {s : State} {g : GangId} {o : BitVec 18} {k : BitVec 3} (hc : s.cur = .a g)
    (h : issues (.brv o k) s = true) :
    let r := s.countIssue (.a g)
    let act := s.active (.a g)
    let km := s.readMask (.a g) k.toNat
    let b := (r.gang g).brv (act &&& km) (act &&& ~~~km) ((s.gang g).apc + (o.signExtend 57 <<< 1)) ((s.gang g).apc + 4)
    (∀ x, b = some x → exec (.brv o k) s = .next (r.setGang g x))
      ∧ (b = none → exec (.brv o k) s = .next (r.raise (.a g) ⟨13, 0, 0, act, false, 4⟩)) := by
  have hex : exec (.brv o k) s = execBrv o k s := rfl
  rw [hex, execBrv, issue_of_issues _ h]
  simp only [State.countIssue_cur, hc, State.countIssue_a_readMask, State.countIssue_active, State.countIssue_a_pc, branchTarget,
    State.raiseAt, causeOverflow]
  exact ⟨fun x hx => by rw [hx], fun hx => by rw [hx]⟩

/-- Which side goes on at a split (R110): the one with more lanes, and on a tie that of the lowest lane. -/
theorem continuesTaken_iff (t n : Word) (ht : t ≠ 0) : continuesTaken t n = true ↔ laneCount n < laneCount t
    ∨ laneCount n = laneCount t ∧ ∃ l, l < 32 ∧ t.getLsbD l = true ∧ ∀ m, m < l → n.getLsbD m = false := by
  unfold continuesTaken
  by_cases hl : laneCount t = laneCount n
  · simp only [hl, if_true, lt_irrefl, true_and, false_or]
    cases hlow : lowestLane (t ||| n) with
    | none => exact absurd (BitVec.or_eq_zero_iff.mp (lowestLane_eq_none_iff.mp hlow)).1 ht
    | some l =>
      obtain ⟨hbit, hl32, hbelow⟩ := lowestLane_eq_some_iff.mp hlow
      simp only [BitVec.getLsbD_or, Bool.or_eq_false_iff] at hbelow
      constructor
      · exact fun h => ⟨l, hl32, h, fun m hm => (hbelow m hm).2⟩
      · rintro ⟨l', -, ht', hn'⟩
        rcases lt_trichotomy l l' with hlt | rfl | hgt
        · simpa [hn' l hlt] using hbit
        · exact ht'
        · simp [(hbelow l' hgt).1] at ht'
  · have hl' : ¬ laneCount n = laneCount t := fun h => hl h.symm
    simp [if_neg hl, hl']

/-! ### The cases of `Gang.brv` -/

section
variable {x : Gang} {t n : Word} {target next : VAddr} (hr : x.hasRoom)
include hr

theorem Gang.brv_uniform (hu : t = 0 ∨ n = 0) :
    x.brv t n target next = some { x with
      apc := if t = 0 then next else target, dq := x.dq ++ [⟨0, if t = 0 then 0 else 1⟩] } := by
  rw [Gang.brv, if_pos (by simpa using hu), Gang.pushDq_of_hasRoom hr]
  by_cases ht : t = 0 <;> simp only [decisionRec, ht, bne_self_eq_false, Bool.false_eq_true, if_false, if_true, bne_iff_ne, ne_eq,
    not_false_eq_true]

omit hr in
theorem Gang.brv_overflow (ht : t ≠ 0) (hn : n ≠ 0) (hj : x.freeJoin = none) : x.brv t n target next = none := by
  rw [Gang.brv, if_neg (by simp only [ht, hn, decide_false, Bool.or_self, Bool.false_eq_true, not_false_eq_true]), hj]
  cases x.cur <;> rfl

variable {e j : Nat} (ht : t ≠ 0) (hn : n ≠ 0) (he : x.cur = some e) (hj : x.freeJoin = some j)
include ht hn he hj

theorem Gang.brv_detach {d : Nat} (hd : x.freeFrag = some d) (hde : d ≠ e) :
    let taken := continuesTaken t n
    let keep := if taken then t else n
    let side := if taken then n else t
    ∃ y, x.brv t n target next = some y
      ∧ y.cur = some e ∧ y.apc = (if taken then target else next) ∧ y.exmA = x.exmA &&& keep
      ∧ (y.frag e).mask = (x.frag e).mask &&& ~~~side ∧ (y.frag e).join = j
      ∧ (y.frag d).state = .ready ∧ (y.frag d).mask = side ∧ (y.frag d).aexm = side ∧ (y.frag d).join = j
      ∧ (y.frag d).apc = (if taken then next else target)
      ∧ y.join j = { pending := (x.frag e).mask, outer := (x.frag e).join }
      ∧ y.dq = x.dq ++ [⟨1, side.zeroExtend 64 ||| (BitVec.ofNat 64 (d + if taken then 16 else 0) <<< 32)⟩] := by
  intro taken keep side
  refine ⟨_, by simp only [Gang.brv, ht, hn, he, hj, hd, decide_false, Bool.or_self]; rfl, ?_⟩
  rw [Gang.pushDq_dq_of_hasRoom (by exact hr)]
  simp only [Gang.pushDq_cur, Gang.pushDq_apc, Gang.pushDq_exmA, Gang.pushDq_frag, Gang.pushDq_join, Gang.setFrag_cur, Gang.setFrag_apc,
    Gang.setFrag_exmA, Gang.setFrag_join, Gang.setFrag_dq, Gang.makeReady_cur, Gang.makeReady_apc, Gang.makeReady_exmA,
    Gang.makeReady_join, Gang.makeReady_dq, Gang.frag_setFrag, Gang.frag_setFrag_other _ _ hde, Gang.frag_makeReady,
    true_and]
  exact ⟨rfl, rfl, rfl, rfl, rfl, rfl, tget_tset_same .., rfl⟩

theorem Gang.brv_defer (hd : x.freeFrag = none) :
    ∃ y, x.brv t n target next = some y
      ∧ y.cur = some e ∧ y.apc = target ∧ y.exmA = x.exmA &&& t ∧ (y.frag e).mask = (x.frag e).mask &&& ~~~n ∧ (y.frag e).join = j
      ∧ y.join j = { pending := (x.frag e).mask, outer := (x.frag e).join, defer := true, dmask := n, dapc := next }
      ∧ y.dq = x.dq ++ [⟨1, n.zeroExtend 64 ||| (BitVec.ofNat 64 (j + 48) <<< 32)⟩] := by
  refine ⟨_, by simp only [Gang.brv, ht, hn, he, hj, hd, decide_false, Bool.or_self]; rfl, ?_⟩
  rw [Gang.pushDq_dq_of_hasRoom (by exact hr)]
  simp only [Gang.pushDq_cur, Gang.pushDq_apc, Gang.pushDq_exmA, Gang.pushDq_frag, Gang.pushDq_join, Gang.setFrag_cur, Gang.setFrag_apc,
    Gang.setFrag_exmA, Gang.setFrag_join, Gang.setFrag_dq, Gang.frag_setFrag, true_and]
  exact ⟨tget_tset_same .., rfl⟩

end

/-- Settles O36: the four cases of `Gang.brv`, whose records `dq` has room for. -/
theorem divergentBranch : Obligations.DivergentBranch := by
  unfold Obligations.DivergentBranch
  intro s g o k e hc hi he x r tk nt target next
  have hroom := (s.countIssue_a_hasRoom g).mpr (hasRoom_of_issues_brv hc hi)
  obtain ⟨hsome, hnone⟩ := exec_brv_of_issues hc hi
  refine ⟨fun hu => ?_, fun ht hn hj => ?_, fun j d ht hn hj hd hde => ?_, fun j ht hn hj hd => ?_⟩
  · exact hsome _ (Gang.brv_uniform hroom hu)
  · exact hnone (Gang.brv_overflow ht hn (by simpa using hj))
  · obtain ⟨y, hy, hprops⟩ := Gang.brv_detach hroom ht hn (by simpa using he) (by simpa using hj) (by simpa using hd) hde
    refine ⟨_, _, hsome y hy, continuesTaken_iff tk nt ht, rfl, ?_⟩
    simp only [State.countIssue_a_exmA, State.countIssue_a_frag, State.countIssue_a_dq] at hprops
    rw [State.gang_setGang]
    exact hprops
  · obtain ⟨y, hy, hprops⟩ := Gang.brv_defer hroom ht hn (by simpa using he) (by simpa using hj) (by simpa using hd)
    refine ⟨_, hsome y hy, rfl, ?_⟩
    simp only [State.countIssue_a_exmA, State.countIssue_a_frag, State.countIssue_a_dq] at hprops
    rw [State.gang_setGang]
    exact hprops

end Sys2Proof.Machine
end

section
/-! SUPPORT. What the shared steps of the fragment table leave alone: selecting, leaving, freeing entries, and the check for a deadlock
(R112, R113, R116, R478). -/

namespace Sys2Proof.Machine

/-! ## The least of some numbers -/

theorem foldl_least_mem (ws : List Nat) (e : Nat) :
    ws.foldl (fun a b => if b < a then b else a) e = e ∨ ws.foldl (fun a b => if b < a then b else a) e ∈ ws := by
  induction ws generalizing e with
  | nil => exact .inl rfl
  | cons w ws ih =>
    rw [List.foldl_cons]
    rcases ih (if w < e then w else e) with h | h
    · rw [h]; split
      · exact .inr List.mem_cons_self
      · exact .inl rfl
    · exact .inr (List.mem_cons_of_mem _ h)

theorem foldl_least_le (ws : List Nat) (e : Nat) :
    ws.foldl (fun a b => if b < a then b else a) e ≤ e
      ∧ ∀ w ∈ ws, ws.foldl (fun a b => if b < a then b else a) e ≤ w := by
  induction ws generalizing e with
  | nil => simp
  | cons w ws ih =>
    rw [List.foldl_cons]
    obtain ⟨h1, h2⟩ := ih (if w < e then w else e)
    have hle : (if w < e then w else e) ≤ e ∧ (if w < e then w else e) ≤ w := by split <;> omega
    refine ⟨h1.trans hle.1, fun v hv => ?_⟩
    rcases List.mem_cons.mp hv with rfl | hv
    · exact h1.trans hle.2
    · exact h2 v hv

/-! ## Selecting (R113) -/

/-- Only a ready entry is selected. -/
theorem Gang.ready_of_earliest {x : Gang} {e : Nat} (h : x.earliest = some e) : (x.frag e).state = .ready := by
  have hmem : ∀ (l : List Nat) (best : Option Nat), l.foldl (fun best e => match best with
      | none => some e
      | some b => if (x.frag e).age < (x.frag b).age then some e else some b) best = some e → best = some e ∨ e ∈ l := by
    intro l
    induction l with
    | nil => exact fun _ h => .inl h
    | cons a l ih =>
      intro best h
      rcases ih _ h with h' | h'
      · cases best with
        | none => exact .inr (by simp_all)
        | some b =>
          simp only at h'
          split at h'
          · exact .inr (by simp_all)
          · exact .inl h'
      · exact .inr (List.mem_cons_of_mem _ h')
  rcases hmem _ none h with h' | h'
  · cases h'
  · simpa using (List.mem_filter.mp h').2

/-- A record pushed changes `dq` alone. -/
theorem Gang.pushDq_frame (x : Gang) (r : DRec) : ∃ q n, x.pushDq r = { x with dq := q, dqNext := n } := ⟨_, _, x.pushDq_eq r⟩

/-- What selecting changes: an entry that was ready runs, with its own address and `%exm`, and records are pushed. -/
theorem Gang.select_frame (x : Gang) : ∃ fs c m p n q w,
    x.select = { x with frags := fs, cur := c, exmA := m, apc := p, ran := n, dq := q, dqNext := w }
      ∧ ∀ d, (x.frag d).state ≠ .ready → tget d {} fs = x.frag d := by
  unfold Gang.select
  split
  · exact ⟨_, _, _, _, _, _, _, rfl, fun _ _ => rfl⟩
  · split
    · exact ⟨_, _, _, _, _, _, _, rfl, fun _ _ => rfl⟩
    · rename_i e he
      have hready : (x.frag e).state = .ready := by
        split at he
        · exact Gang.ready_of_earliest he
        · cases he
      have hfrags (f : Frag) (d : Nat) (h : (x.frag d).state ≠ .ready) : tget d {} (tset e f x.frags) = x.frag d :=
        tget_tset_other _ _ _ _ _ fun hde => h (hde ▸ hready)
      dsimp only
      split
      · obtain ⟨q, w, h⟩ := Gang.pushDq_frame _ (switchRec e false 0 none)
        exact ⟨_, _, _, _, _, q, w, h, hfrags _⟩
      · rename_i j _
        obtain ⟨q, w, h⟩ := Gang.pushDq_frame _ (switchRec e false j (if (x.frag e).fresh then some (x.frag e).mask else none))
        rw [h]
        obtain ⟨q', w', h'⟩ := Gang.pushDq_frame _ (releaseRec (x.frag e).mask j)
        exact ⟨_, _, _, _, _, q', w', h', hfrags _⟩

theorem Gang.select_frag {x : Gang} {d : Nat} (h : (x.frag d).state ≠ .ready) : x.select.frag d = x.frag d := by
  obtain ⟨_, _, _, _, _, _, _, hs, hf⟩ := x.select_frame
  rw [hs]; exact hf d h
@[simp] theorem Gang.select_join (x : Gang) (j : Nat) : x.select.join j = x.join j := by
  obtain ⟨_, _, _, _, _, _, _, hs, -⟩ := x.select_frame
  rw [hs]; rfl
@[simp] theorem Gang.select_live (x : Gang) : x.select.live = x.live := by
  obtain ⟨_, _, _, _, _, _, _, hs, -⟩ := x.select_frame
  rw [hs]
@[simp] theorem Gang.select_monitors (x : Gang) : x.select.monitors = x.monitors := by
  obtain ⟨_, _, _, _, _, _, _, hs, -⟩ := x.select_frame
  rw [hs]

/-! ## Leaving (R98, R113) -/

/-- A fragment that stops, but not as ready, keeps its lanes, its address and its `%exm` in its entry, and no other takes its place. -/
theorem Gang.leave_select_frag {x : Gang} {e : Nat} (he : x.cur = some e) {st : FragState} (hst : st ≠ .ready) (pc : VAddr) :
    ((x.leave st pc).select).frag e = { x.frag e with aexm := x.exmA, apc := pc, state := st } := by
  have h : (x.leave st pc).frag e = { x.frag e with aexm := x.exmA, apc := pc, state := st } := by
    simp only [Gang.leave, he, if_neg hst]
    exact Gang.frag_setFrag ..
  rw [Gang.select_frag (by rw [h]; exact hst), h]

theorem Gang.leave_join (x : Gang) (st : FragState) (pc : VAddr) (j : Nat) : (x.leave st pc).join j = x.join j := by
  unfold Gang.leave; split
  · rfl
  · dsimp only; split <;> rfl

theorem Gang.leave_monitors (x : Gang) (st : FragState) (pc : VAddr) : (x.leave st pc).monitors = x.monitors := by
  unfold Gang.leave; split
  · rfl
  · dsimp only; split <;> rfl

/-! ## Steps of the fragment and join tables alone (R112, R115, R478) -/

/-- Two gangs that differ in their fragments, joins, merged fragments that wait and monitors alone. -/
def Gang.sameButTables (x y : Gang) : Prop := ∃ fs ag js os ms, y = { x with frags := fs, ages := ag, joins := js, orphans := os, monitors := ms }

namespace Gang.sameButTables
variable {x y z : Gang}

theorem refl (x : Gang) : x.sameButTables x := ⟨_, _, _, _, _, rfl⟩
theorem trans (h : x.sameButTables y) (h' : y.sameButTables z) : x.sameButTables z := by
  obtain ⟨_, _, _, _, _, rfl⟩ := h
  obtain ⟨_, _, _, _, _, rfl⟩ := h'
  exact ⟨_, _, _, _, _, rfl⟩

variable (h : x.sameButTables y)
include h
theorem cur : y.cur = x.cur := by obtain ⟨_, _, _, _, _, rfl⟩ := h; rfl
theorem apc : y.apc = x.apc := by obtain ⟨_, _, _, _, _, rfl⟩ := h; rfl
theorem exmA : y.exmA = x.exmA := by obtain ⟨_, _, _, _, _, rfl⟩ := h; rfl
theorem live : y.live = x.live := by obtain ⟨_, _, _, _, _, rfl⟩ := h; rfl
theorem dq : y.dq = x.dq := by obtain ⟨_, _, _, _, _, rfl⟩ := h; rfl
theorem dqNext : y.dqNext = x.dqNext := by obtain ⟨_, _, _, _, _, rfl⟩ := h; rfl
theorem hasRoom (hr : x.hasRoom) : y.hasRoom := by obtain ⟨_, _, _, _, _, rfl⟩ := h; exact hr
/-- Changing the tables of one of two such gangs leaves them such. -/
theorem update (fs : Table Nat Frag) (ag : Nat) (js : Table Nat Join) (os : List Nat) (ms : Table Nat Monitor) :
    x.sameButTables { y with frags := fs, ages := ag, joins := js, orphans := os, monitors := ms } :=
  h.trans ⟨_, _, _, _, _, rfl⟩

end Gang.sameButTables

theorem Gang.setFrag_sameButTables (x : Gang) (e : Nat) (f : Frag) : x.sameButTables (x.setFrag e f) := ⟨_, _, _, _, _, rfl⟩
theorem Gang.makeReady_sameButTables (x : Gang) (e : Nat) (f : Frag) : x.sameButTables (x.makeReady e f) := ⟨_, _, _, _, _, rfl⟩
theorem Gang.merged_sameButTables (x : Gang) (e j : Nat) (m : Word) (b : Bool) : x.sameButTables (x.merged e j m b) :=
  (x.makeReady_sameButTables e _).update ..

/-- A gang whose entry is free, its monitor with it (R268). -/
def Gang.cleared (x : Gang) (e : Nat) : Gang := { x.setFrag e {} with monitors := tdel e x.monitors }

theorem Gang.cleared_sameButTables (x : Gang) (e : Nat) : x.sameButTables (x.cleared e) := (x.setFrag_sameButTables e {}).update ..

/-- Freeing an entry leaves it free, or gives it to a merged fragment that waits. -/
theorem Gang.freeEntry_cases (x : Gang) (e : Nat) : x.freeEntry e = x.cleared e
    ∨ ∃ j os m, x.freeEntry e = { (x.cleared e).merged e j m true with
        orphans := os, joins := tdel j ((x.cleared e).merged e j m true).joins } := by
  have h : x.freeEntry e = match (x.cleared e).orphans with
      | [] => x.cleared e
      | j :: os => let z := (x.cleared e).merged e j ((x.cleared e).join j).aArr true
        { z with orphans := os, joins := tdel j z.joins } := rfl
  rw [h]
  split
  · exact .inl rfl
  · exact .inr ⟨_, _, _, rfl⟩

theorem Gang.freeEntry_sameButTables (x : Gang) (e : Nat) : x.sameButTables (x.freeEntry e) := by
  rcases x.freeEntry_cases e with h | ⟨j, os, m, h⟩ <;> rw [h]
  · exact x.cleared_sameButTables e
  · exact ((x.cleared_sameButTables e).trans (Gang.merged_sameButTables ..)).update ..

theorem Gang.freeEntry_frag_other (x : Gang) {e d : Nat} (h : d ≠ e) : (x.freeEntry e).frag d = x.frag d := by
  have hc : (x.cleared e).frag d = x.frag d := x.frag_setFrag_other {} h
  rcases x.freeEntry_cases e with h' | ⟨j, os, m, h'⟩ <;> rw [h']
  · exact hc
  · exact ((x.cleared e).frag_makeReady_other _ h).trans hc

theorem freeEntries_sameButTables : ∀ (es : List Nat) (x : Gang), x.sameButTables (freeEntries x es)
  | [], x => .refl x
  | e :: es, x => (x.freeEntry_sameButTables e).trans (freeEntries_sameButTables es _)

theorem freeEntries_frag_other {d : Nat} : ∀ (es : List Nat) (x : Gang), d ∉ es → (freeEntries x es).frag d = x.frag d
  | [], _, _ => rfl
  | e :: es, x, h => by
    rw [List.mem_cons, not_or] at h
    exact (freeEntries_frag_other es _ h.2).trans (x.freeEntry_frag_other h.1)

/-! ## The check for a deadlock (R116) -/

/-- What the check for a deadlock can change of a gang: a trap of the a-slice. -/
theorem State.checkDeadlock_frame (s : State) (g : GangId) : (s.checkDeadlock g).mem = s.mem
    ∧ ∃ t st n, (s.checkDeadlock g).gang g = { s.gang g with trapA := t, stopA := st, since := n } := by
  unfold State.checkDeadlock
  split
  · exact ⟨rfl, _, _, _, State.gang_modGang ..⟩
  · exact ⟨rfl, _, _, _, rfl⟩

@[simp] theorem State.checkDeadlock_mem (s : State) (g : GangId) : (s.checkDeadlock g).mem = s.mem := (s.checkDeadlock_frame g).1
section
variable (s : State) (g : GangId)
@[simp] theorem State.checkDeadlock_cur : ((s.checkDeadlock g).gang g).cur = (s.gang g).cur := by
  obtain ⟨-, _, _, _, h⟩ := s.checkDeadlock_frame g
  rw [h]
@[simp] theorem State.checkDeadlock_apc : ((s.checkDeadlock g).gang g).apc = (s.gang g).apc := by
  obtain ⟨-, _, _, _, h⟩ := s.checkDeadlock_frame g
  rw [h]
@[simp] theorem State.checkDeadlock_exmA : ((s.checkDeadlock g).gang g).exmA = (s.gang g).exmA := by
  obtain ⟨-, _, _, _, h⟩ := s.checkDeadlock_frame g
  rw [h]
@[simp] theorem State.checkDeadlock_live : ((s.checkDeadlock g).gang g).live = (s.gang g).live := by
  obtain ⟨-, _, _, _, h⟩ := s.checkDeadlock_frame g
  rw [h]
@[simp] theorem State.checkDeadlock_dq : ((s.checkDeadlock g).gang g).dq = (s.gang g).dq := by
  obtain ⟨-, _, _, _, h⟩ := s.checkDeadlock_frame g
  rw [h]
@[simp] theorem State.checkDeadlock_aEnd : ((s.checkDeadlock g).gang g).aEnd = (s.gang g).aEnd := by
  obtain ⟨-, _, _, _, h⟩ := s.checkDeadlock_frame g
  rw [h]
@[simp] theorem State.checkDeadlock_frag (e : Nat) : ((s.checkDeadlock g).gang g).frag e = (s.gang g).frag e := by
  obtain ⟨-, _, _, _, h⟩ := s.checkDeadlock_frame g
  rw [h]; rfl
@[simp] theorem State.checkDeadlock_join (j : Nat) : ((s.checkDeadlock g).gang g).join j = (s.gang g).join j := by
  obtain ⟨-, _, _, _, h⟩ := s.checkDeadlock_frame g
  rw [h]; rfl

end

/-- A gang in which a fragment runs is not deadlocked. -/
theorem State.checkDeadlock_of_cur {s : State} {g : GangId} {e : Nat} (h : (s.gang g).cur = some e) : s.checkDeadlock g = s := by
  simp [State.checkDeadlock, Gang.deadlocked, h]

end Sys2Proof.Machine
end

section
/-! PROOF. `rejoin` in the a-slice (R112). -/

namespace Sys2Proof.Machine

/-- Step 3 of R112: the least of the arriving and the waiting entries runs on with every lane that has arrived. -/
theorem Gang.mergeRunning_spec (x : Gang) (e j : Nat) (r : Join) (next : VAddr) :
    let m := (x.waitingAt j).foldl (fun a b => if b < a then b else a) e
    let exm := x.exmOf (x.waitingAt j) ||| x.exmA ||| r.aArr
    let y := x.mergeRunning e j r next
    y.cur = some m ∧ y.apc = next ∧ y.exmA = exm
      ∧ y.frag m = { state := .running, mask := r.arrived, aexm := exm, apc := next, join := r.outer } := by
  intro m exm y
  let z : Gang := { x.setFrag m { state := .running, mask := r.arrived, aexm := exm, apc := next, join := r.outer } with
    cur := some m, exmA := exm, apc := next, joins := tdel j x.joins, monitors := tdel m x.monitors }
  let others := (e :: x.waitingAt j).filter (fun n => n != m)
  have hy : y = (freeEntries z others).pushDq (releaseRec r.arrived j) := rfl
  have hz := freeEntries_sameButTables others z
  have hm : m ∉ others := by simp [others]
  rw [hy, Gang.pushDq_cur, Gang.pushDq_apc, Gang.pushDq_exmA, Gang.pushDq_frag, hz.cur, hz.apc, hz.exmA, freeEntries_frag_other _ _ hm]
  exact ⟨rfl, rfl, rfl, Gang.frag_setFrag ..⟩

/-- Step 4 of R112: the fragment becomes the deferred path of its join. -/
theorem Gang.takeDeferred_spec {x : Gang} {e : Nat} (he : x.cur = some e) (j : Nat) (r : Join) :
    let y := x.takeDeferred e j r
    y.cur = some e ∧ y.apc = r.dapc ∧ y.exmA = r.dmask ∧ (y.frag e).mask = r.dmask
      ∧ y.join j = { r with aArr := r.aArr ||| x.exmA, defer := false, dmask := 0 } := by
  intro y
  let z : Gang := { x with
    joins := tset j { r with aArr := r.aArr ||| x.exmA, defer := false, dmask := 0 } x.joins
    exmA := r.dmask, apc := r.dapc }
  have hy : y = (z.setFrag e { x.frag e with mask := r.dmask }).pushDq (switchRec e true j none) := rfl
  rw [hy, Gang.pushDq_cur, Gang.pushDq_apc, Gang.pushDq_exmA, Gang.pushDq_frag, Gang.pushDq_join, Gang.frag_setFrag]
  exact ⟨he, rfl, rfl, rfl, tget_tset_same ..⟩

/-! ### The cases of `Gang.rejoin` -/

/-- A join record with the lanes of an arriving fragment. -/
def Join.arrive (r : Join) (f : Frag) (next : VAddr) : Join := { r with arrived := r.arrived ||| f.mask, rpc := next }

/-- The gang with the arrival of a fragment at its join. -/
def Gang.arrive (x : Gang) (f : Frag) (next : VAddr) : Gang := { x with joins := tset f.join ((x.join f.join).arrive f next) x.joins }

theorem Gang.arrive_join (x : Gang) (f : Frag) (next : VAddr) : (x.arrive f next).join f.join = (x.join f.join).arrive f next :=
  tget_tset_same ..

section
variable {x : Gang} {e : Nat} {next : VAddr} (he : x.cur = some e)
include he

theorem Gang.rejoin_outermost (hj : (x.frag e).join = 15) :
    x.rejoin next = { (x.pushDq (releaseRec (x.frag e).mask 15)) with apc := next } := by
  simp only [Gang.rejoin, he, hj, beq_self_eq_true, if_true]

variable (hj : (x.frag e).join ≠ 15) (hm : (x.frag e).mask ≠ 0)
include hj hm

/-- Inside a join a fragment with lanes arrives, and then merges, takes up the deferred path, or waits. -/
theorem Gang.rejoin_inside :
    let f := x.frag e
    let r := (x.join f.join).arrive f next
    let y := x.arrive f next
    x.rejoin next = if r.arrived = r.pending then y.mergeRunning e f.join r next
      else if r.defer then y.takeDeferred e f.join r
      else (y.leave .waiting next).select := by
  intro f r y
  have h : x.rejoin next = match x.cur with
      | none => x
      | some e =>
        let f := x.frag e
        let r := (x.join f.join).arrive f next
        let y := x.arrive f next
        if f.join == 15 then { (x.pushDq (releaseRec f.mask 15)) with apc := next }
        else if r.pending = 0 && f.mask = 0 then x.endFragment
        else if r.arrived = r.pending then y.mergeRunning e f.join r next
        else if r.defer then y.takeDeferred e f.join r
        else if f.mask = 0 then x.endFragment
        else (y.leave .waiting next).select := rfl
  rw [h, he]
  simp only [beq_iff_eq, hj, hm, if_false, decide_false, Bool.and_false, Bool.false_eq_true, f, r, y]

/-- Every awaited lane has arrived: the least entry of those that meet runs on under the outer join. -/
theorem Gang.rejoin_merge (hall : (x.join (x.frag e).join).arrived ||| (x.frag e).mask = (x.join (x.frag e).join).pending) :
    let j := x.join (x.frag e).join
    let ws := x.waitingAt (x.frag e).join
    let m := ws.foldl (fun a b => if b < a then b else a) e
    let y := x.rejoin next
    y.cur = some m ∧ y.apc = next ∧ (y.frag m).state = .running ∧ (y.frag m).mask = j.pending ∧ (y.frag m).join = j.outer
      ∧ y.exmA = x.exmOf ws ||| x.exmA ||| j.aArr := by
  intro j ws m y
  obtain ⟨hcur, hapc, hexm, hfrag⟩ := Gang.mergeRunning_spec (x.arrive (x.frag e) next) e (x.frag e).join (j.arrive (x.frag e) next) next
  have hy : y = _ := (Gang.rejoin_inside he hj hm).trans (if_pos hall)
  rw [hy]
  exact ⟨hcur, hapc, congrArg Frag.state hfrag, (congrArg Frag.mask hfrag).trans hall, congrArg Frag.join hfrag, hexm⟩

variable (hall : (x.join (x.frag e).join).arrived ||| (x.frag e).mask ≠ (x.join (x.frag e).join).pending)
include hall

/-- A path is deferred at the join: the fragment becomes it. -/
theorem Gang.rejoin_defer (hd : (x.join (x.frag e).join).defer = true) :
    let j := x.join (x.frag e).join
    let y := x.rejoin next
    y.cur = some e ∧ y.apc = j.dapc ∧ y.exmA = j.dmask ∧ (y.frag e).mask = j.dmask
      ∧ y.join (x.frag e).join = { j.arrive (x.frag e) next with aArr := j.aArr ||| x.exmA, defer := false, dmask := 0 } := by
  intro j y
  have hy : y = _ := (Gang.rejoin_inside he hj hm).trans ((if_neg hall).trans (if_pos hd))
  rw [hy]
  exact Gang.takeDeferred_spec (x := x.arrive (x.frag e) next) he _ _

/-- Otherwise the fragment waits with the address after the `rejoin`. -/
theorem Gang.rejoin_wait (hd : (x.join (x.frag e).join).defer = false) :
    let y := x.rejoin next
    y.frag e = { x.frag e with aexm := x.exmA, apc := next, state := .waiting }
      ∧ y.join (x.frag e).join = (x.join (x.frag e).join).arrive (x.frag e) next := by
  intro y
  have hy : y = _ := (Gang.rejoin_inside he hj hm).trans ((if_neg hall).trans (if_neg (hd.symm ▸ Bool.false_ne_true)))
  rw [hy]
  refine ⟨Gang.leave_select_frag (x := x.arrive (x.frag e) next) he (by decide) next, ?_⟩
  rw [Gang.select_join, Gang.leave_join, Gang.arrive_join]

end

/-! ### The instruction -/

/-- A `rejoin` that issues in the a-slice changes its gang as `Gang.rejoin` has it. -/
theorem exec_rejoin_of_issues {s : State} {g : GangId} (hc : s.cur = .a g) (h : issues .rejoin s = true) :
    exec .rejoin s = .next (((s.countIssue (.a g)).modGang g fun x => x.rejoin ((s.gang g).apc + 4)).checkDeadlock g) := by
  have hex : exec .rejoin s = execRejoin s := rfl
  rw [hex, execRejoin, issue_of_issues _ h]
  simp only [State.countIssue_cur, hc, State.countIssue_a_pc]

/-- A `rejoin` outside any join that issues has room for its record. -/
theorem hasRoom_of_issues_rejoin {s : State} {g : GangId} {e : Nat} (hc : s.cur = .a g) (h : issues .rejoin s = true)
    (he : (s.gang g).cur = some e) (hj : ((s.gang g).frag e).join = 15) : (s.gang g).hasRoom := by
  have hm := mode_of_issues hc h fun m => by cases m <;> rfl
  have hst : (s.gang g).slipFor ((s.gang g).rejoin 0) = none := by
    have := stallOther_of_issues h (by rw [hc]; rfl)
    rw [hc] at this
    exact this
  refine Gang.hasRoom_of_slipFor (Gang.dqNext_of_runnable (hc ▸ runnable_of_issues h) hm) ?_ hst
  rw [Gang.rejoin_outermost he hj]
  exact Gang.pushes_pushDq rfl rfl _

/-- Settles O37: the steps of R112 in their order. -/
theorem rejoinMerges : Obligations.RejoinMerges := by
  unfold Obligations.RejoinMerges
  intro s g e hc hi he x f j all hm
  let c := (s.countIssue (.a g)).gang g
  have hcc : c.cur = some e := (s.countIssue_a_cur g).trans he
  have hf : c.frag e = f := s.countIssue_a_frag g e
  have hj : c.join (c.frag e).join = j := by rw [hf]; exact s.countIssue_a_join g _
  have hw : c.waitingAt (c.frag e).join = x.waitingAt f.join := by rw [hf]; exact s.countIssue_a_waitingAt g _
  have hm' : (c.frag e).mask ≠ 0 := hf ▸ hm
  let t := ((s.countIssue (.a g)).modGang g fun x => x.rejoin ((s.gang g).apc + 4)).checkDeadlock g
  have hex : exec .rejoin s = .next t := exec_rejoin_of_issues hc hi
  have hmem : t.mem = s.mem := by simp [t]
  have hexm : ∀ ws, c.exmOf ws = x.exmOf ws := s.countIssue_a_exmOf g
  have hexmA : c.exmA = x.exmA := s.countIssue_a_exmA g
  have hall' (h : all ≠ j.pending) : (c.join (c.frag e).join).arrived ||| (c.frag e).mask ≠ (c.join (c.frag e).join).pending := by
    rw [hj, hf]; exact h
  refine ⟨fun ho => ?_, fun ho hall => ?_, fun ho hall hd => ?_, fun ho hall hd => ?_⟩
  · have hroom := hasRoom_of_issues_rejoin hc hi he ho
    have hg : c.rejoin (x.apc + 4) = { c with apc := c.apc + 4, dq := c.dq ++ [⟨5, f.mask.zeroExtend 64 ||| (15 <<< 32)⟩] } := by
      rw [Gang.rejoin_outermost hcc (hf ▸ ho), Gang.pushDq_of_hasRoom ((s.countIssue_a_hasRoom g).mpr hroom), hf,
        show c.apc = x.apc from s.countIssue_a_apc g]
      rfl
    have ht : t = (s.countIssue (.a g)).setGang g (c.rejoin (x.apc + 4)) := by
      refine State.checkDeadlock_of_cur (e := e) ?_
      rw [State.gang_modGang]
      exact (congrArg Gang.cur hg).trans hcc
    rw [hex, ht, hg]
    rfl
  · obtain ⟨h1, h2, h3, h4, h5, h6⟩ := Gang.rejoin_merge (next := x.apc + 4) hcc (hf ▸ ho) hm' (by rw [hj, hf]; exact hall)
    rw [hw] at h1 h3 h4 h5 h6
    rw [hj] at h4 h5 h6
    rw [hexm, hexmA] at h6
    refine ⟨t, _, hex, hmem, foldl_least_mem .., (foldl_least_le ..).1, (foldl_least_le ..).2, ?_⟩
    simp only [t, State.checkDeadlock_cur, State.checkDeadlock_apc, State.checkDeadlock_frag, State.checkDeadlock_exmA, State.gang_modGang]
    exact ⟨h1, h2, h3, h4, h5, h6⟩
  · obtain ⟨h1, h2, h3, h4, h5⟩ := Gang.rejoin_defer (next := x.apc + 4) hcc (hf ▸ ho) hm' (hall' hall) (hj ▸ hd)
    rw [hj] at h2 h3 h4 h5
    rw [hf, hexmA] at h5
    refine ⟨t, hex, hmem, ?_⟩
    simp only [t, State.checkDeadlock_cur, State.checkDeadlock_apc, State.checkDeadlock_frag, State.checkDeadlock_exmA,
      State.checkDeadlock_join, State.gang_modGang]
    exact ⟨h1, h2, h3, h4, congrArg Join.arrived h5, congrArg Join.defer h5, congrArg Join.aArr h5⟩
  · obtain ⟨h1, h2⟩ := Gang.rejoin_wait (next := x.apc + 4) hcc (hf ▸ ho) hm' (hall' hall) (hj ▸ hd)
    rw [hj, hf] at h2
    rw [hf] at h1
    refine ⟨t, hex, hmem, ?_⟩
    simp only [t, State.checkDeadlock_frag, State.checkDeadlock_join, State.gang_modGang]
    exact ⟨congrArg Frag.state h1, congrArg Frag.apc h1, (congrArg Frag.mask h1).trans rfl, h2⟩

end Sys2Proof.Machine
end

section
/-! PROOF. `exit` in the a-slice and the controller, and `mwait` (R115, R118, R173, R269). -/

namespace Sys2Proof.Machine

/-! ## Lanes that end (R115) -/

/-- The running fragment's join forgotten where it is the one that completes. -/
def Gang.unjoined (x : Gang) (j : Nat) : Gang :=
  match x.cur with
  | some e => if (x.frag e).join = j then x.setFrag e { x.frag e with join := 15 } else x
  | none => x

theorem Gang.unjoined_sameButTables (x : Gang) (j : Nat) : x.sameButTables (x.unjoined j) := by
  unfold Gang.unjoined
  split
  · split
    · exact Gang.setFrag_sameButTables ..
    · exact .refl x
  · exact .refl x

theorem Gang.complete_sameButTables (x : Gang) (j : Nat) : x.sameButTables (x.complete j) := by
  have h : x.complete j = match x.waitingAt j with
      | e :: others =>
        let y := (x.unjoined j).merged e j (x.exmOf (x.waitingAt j) ||| (x.join j).aArr) false
        freeEntries { y with joins := tdel j y.joins } others
      | [] =>
        match (x.unjoined j).freeFrag with
        | some e =>
          let y := (x.unjoined j).merged e j (x.exmOf (x.waitingAt j) ||| (x.join j).aArr) true
          { y with joins := tdel j y.joins }
        | none => { x.unjoined j with
            joins := tset j { (x.unjoined j).join j with pending := 0, aArr := x.exmOf (x.waitingAt j) ||| (x.join j).aArr } (x.unjoined j).joins
            orphans := (x.unjoined j).orphans ++ [j] } := rfl
  have hu := x.unjoined_sameButTables j
  rw [h]
  split
  · exact ((hu.trans (Gang.merged_sameButTables ..)).update ..).trans (freeEntries_sameButTables ..)
  · split
    · exact (hu.trans (Gang.merged_sameButTables ..)).update ..
    · exact hu.update ..

theorem settleJoins_sameButTables : ∀ (js : List Nat) (x : Gang), x.sameButTables (settleJoins x js)
  | [], x => .refl x
  | j :: js, x => by
    unfold settleJoins
    dsimp only
    split
    · exact settleJoins_sameButTables js x
    · split
      · exact (x.complete_sameButTables j).trans (settleJoins_sameButTables js _)
      · exact settleJoins_sameButTables js x

/-- Lanes that end are live no more; beside that, the tables alone change. -/
theorem Gang.endLanes_sameButTables (x : Gang) (m : Word) : ({ x with live := x.live &&& ~~~m } : Gang).sameButTables (x.endLanes m) :=
  ((Gang.sameButTables.refl _).update ..).trans (settleJoins_sameButTables ..)

/-- The end of the running fragment: its lanes are live no more, and with none left the end record is pushed and the slice has ended. -/
theorem Gang.endFragment_spec {x : Gang} {e : Nat} (he : x.cur = some e) :
    x.endFragment.live = x.live &&& ~~~(x.frag e).mask
      ∧ (x.endFragment.live = 0 → x.endFragment.aEnd = true ∧ x.pushes x.endFragment = true
        ∧ (x.hasRoom → x.endFragment.dq = x.dq ++ [⟨6, 0⟩])) := by
  let z : Gang := { x.endLanes (x.frag e).mask with cur := none, region := none }
  let y := z.freeEntry e
  have h : x.endFragment = if y.live = 0 then { (y.pushDq ⟨6, 0⟩) with aEnd := true } else y.select := by
    have h : x.endFragment = match x.cur with
        | none => x
        | some e =>
          let z : Gang := { x.endLanes (x.frag e).mask with cur := none, region := none }
          let y := z.freeEntry e
          if y.live = 0 then { (y.pushDq ⟨6, 0⟩) with aEnd := true } else y.select := rfl
    rw [h, he]
  have hends := x.endLanes_sameButTables (x.frag e).mask
  have hfree : z.sameButTables y := z.freeEntry_sameButTables e
  have hlive : y.live = x.live &&& ~~~(x.frag e).mask := hfree.live.trans hends.live
  have hdq : y.dq = x.dq := hfree.dq.trans hends.dq
  have hnext : y.dqNext = x.dqNext := hfree.dqNext.trans hends.dqNext
  rw [h]
  split
  · refine ⟨(y.pushDq_live _).trans hlive, fun _ => ⟨rfl, Gang.pushes_pushDq hdq hnext _, fun hr => ?_⟩⟩
    exact (Gang.pushDq_dq_of_hasRoom (hfree.hasRoom (hends.hasRoom hr)) _).trans (by rw [hdq])
  · rename_i hne
    refine ⟨y.select_live.trans hlive, fun h0 => absurd (y.select_live.symm.trans h0) hne⟩

/-! ## `exit` in the a-slice -/

/-- An `exit` that issues in the a-slice changes its gang as `Gang.endFragment` has it. -/
theorem exec_exit_of_issues {s : State} {g : GangId} (hc : s.cur = .a g) (h : issues .exit s = true) :
    exec .exit s = .next (((s.countIssue (.a g)).modGang g fun x => x.endFragment).checkDeadlock g) := by
  have hex : exec .exit s = execExit s := rfl
  rw [hex, execExit, issue_of_issues _ h]
  simp only [State.countIssue_cur, hc]

/-- An `exit` that ends the last lanes and issues has room for the end record. -/
theorem hasRoom_of_issues_exit {s : State} {g : GangId} {e : Nat} (hc : s.cur = .a g) (h : issues .exit s = true)
    (he : (s.gang g).cur = some e) (h0 : (s.gang g).endFragment.live = 0) : (s.gang g).hasRoom := by
  have hm := mode_of_issues hc h fun m => by cases m <;> rfl
  have hst : (s.gang g).slipFor (s.gang g).endFragment = none := by
    have := stallOther_of_issues h (by rw [hc]; rfl)
    rw [hc] at this
    exact this
  exact Gang.hasRoom_of_slipFor (Gang.dqNext_of_runnable (hc ▸ runnable_of_issues h) hm) ((Gang.endFragment_spec he).2 h0).2.1 hst

theorem exec_exit_a {s : State} {g : GangId} {e : Nat} (hc : s.cur = .a g) (hi : issues .exit s = true) (he : (s.gang g).cur = some e) :
    ∃ t, exec .exit s = .next t ∧ t.mem = s.mem
      ∧ (t.gang g).live = (s.gang g).live &&& ~~~((s.gang g).frag e).mask
      ∧ ((t.gang g).live = 0 → (t.gang g).aEnd = true ∧ (t.gang g).dq = (s.gang g).dq ++ [⟨6, 0⟩]) := by
  have hcc := (s.countIssue_a_cur g).trans he
  obtain ⟨hlive, hend⟩ := Gang.endFragment_spec hcc
  rw [s.countIssue_a_live, s.countIssue_a_frag] at hlive
  refine ⟨_, exec_exit_of_issues hc hi, by simp, ?_⟩
  simp only [State.checkDeadlock_live, State.checkDeadlock_aEnd, State.checkDeadlock_dq, State.gang_modGang]
  refine ⟨hlive, fun h0 => ?_⟩
  obtain ⟨haEnd, -, hdq⟩ := hend h0
  have h0' : (s.gang g).endFragment.live = 0 := (Gang.endFragment_spec he).1.trans (hlive.symm.trans h0)
  exact ⟨haEnd, (hdq ((s.countIssue_a_hasRoom g).mpr (hasRoom_of_issues_exit hc hi he h0'))).trans (by rw [s.countIssue_a_dq])⟩

/-! ## The end of a controller's stream (R173, R296) -/

/-- What a step of phasers or of die tables leaves alone: memory and the clusters. -/
def State.sameClus (s t : State) : Prop := t.mem = s.mem ∧ t.clus = s.clus

theorem State.addSignaller_sameClus (n : Nat) (root : WeirId) (now join : Bool) : ∀ (fuel : Nat) (w : WeirId) (s : State),
    s.sameClus (s.addSignaller n root now join w fuel)
  | 0, _, _ => ⟨rfl, rfl⟩
  | fuel + 1, w, s => by
    have key (stop : Bool) (t : State) (ht : s.sameClus t) : s.sameClus (if stop then t
        else match parentWeir w with
          | some p => t.addSignaller n root now join p fuel
          | none => t) := by
      split
      · exact ht
      · split
        · rename_i p _
          have h := State.addSignaller_sameClus n root now join fuel p t
          exact ⟨h.1.trans ht.1, h.2.trans ht.2⟩
        · exact ht
    exact key _ _ ⟨rfl, rfl⟩

theorem State.uncount_sameClus (s : State) (u : UnitId) (r : PhReg) : s.sameClus (s.uncount u r) := by
  have h := State.addSignaller_sameClus r.phaser (s.phaser (agentDie u).pkg r.phaser).root false false 5 (.die (agentDie u)) s
  unfold State.uncount
  dsimp only
  split
  · exact ⟨rfl, rfl⟩
  · split <;> exact h

/-- The registrations of a controller that leave change nothing of its cluster but them. -/
theorem State.leaveAll_ctl (c : CluId) : ∀ (rs : List PhReg) (s : State), (s.leaveAll (.m c) rs).mem = s.mem
    ∧ ∃ k, (s.leaveAll (.m c) rs).clu c = { s.clu c with ctl := { (s.clu c).ctl with regs := k } }
  | [], _ => ⟨rfl, _, rfl⟩
  | r :: rs, s => by
    have hu := State.uncount_sameClus (s.setRegs (.m c) ((s.regsOf (.m c)).erase r)) (.m c) r
    obtain ⟨hm, k, hk⟩ := State.leaveAll_ctl c rs (s.leaveOne (.m c) r)
    have hclu : (s.leaveOne (.m c) r).clu c = { s.clu c with ctl := { (s.clu c).ctl with regs := (s.regsOf (.m c)).erase r } } := by
      rw [State.leaveOne, State.clu, hu.2]
      exact State.clu_modClu ..
    exact ⟨hm.trans hu.1, k, by rw [State.leaveAll, hk, hclu]⟩

theorem State.passNumber_sameClus (s : State) (d : DieId) (p : Nat) : s.sameClus (s.passNumber d p) := by
  unfold State.passNumber
  dsimp only
  repeat' split
  all_goals exact ⟨rfl, rfl⟩

theorem State.passNumbers_sameClus (d : DieId) : ∀ (ps : List Nat) (s : State), s.sameClus (s.passNumbers d ps)
  | [], _ => ⟨rfl, rfl⟩
  | p :: ps, s => by
    have h := s.passNumber_sameClus d p
    have h' := State.passNumbers_sameClus d ps (s.passNumber d p)
    exact ⟨h'.1.trans h.1, h'.2.trans h.2⟩

theorem State.passAll_sameClus (s : State) (p : Nat) : s.sameClus (s.passAll p) := by
  have h : ∀ (ds : List (DieId × Die)) (t : State),
      t.sameClus (ds.foldl (fun s d => if d.1.pkg = p then s.passNumbers d.1 d.2.retiring else s) t) := by
    intro ds
    induction ds with
    | nil => exact fun t => ⟨rfl, rfl⟩
    | cons d ds ih =>
      intro t
      rw [List.foldl_cons]
      split
      · have h' := State.passNumbers_sameClus d.1 d.2.retiring t
        have h'' := ih (t.passNumbers d.1 d.2.retiring)
        exact ⟨h''.1.trans h'.1, h''.2.trans h'.2⟩
      · exact ih t
  exact h s.dies s

/-- A table changed throughout holds under each key what the change makes of its value. -/
theorem tget_map_rel {K V : Type} [DecidableEq K] (P : V → V → Prop) (f : K × V → V) (k : K) (d : V) (t : Table K V)
    (hf : ∀ j v, P v (f (j, v))) (hd : P d d) : P (tget k d t) (tget k d (t.map fun e => (e.1, f e))) := by
  induction t with
  | nil => exact hd
  | cons e t ih =>
    by_cases hk : e.1 = k
    · simp only [List.map_cons, tget, if_pos hk]; exact hf e.1 e.2
    · simp only [List.map_cons, tget, if_neg hk]; exact ih

/-- What the end of a group sets off frees allocations of a cluster and changes nothing else of it. -/
theorem State.settleGroups_clu (s : State) (p l : Nat) (c : CluId) : (s.settleGroups p l).mem = s.mem
    ∧ ∃ a, (s.settleGroups p l).clu c = { s.clu c with allocs := a } := by
  obtain ⟨hm, hc⟩ := (s.freeGroups p l).passAll_sameClus p
  rw [State.settleGroups, hm, State.clu, hc]
  unfold State.freeGroups
  split
  · exact ⟨rfl, _, rfl⟩
  · refine ⟨rfl, tget_map_rel (fun x y => ∃ a, y = { x with allocs := a }) _ c {} s.clus (fun k x => ?_) ⟨_, rfl⟩⟩
    split <;> exact ⟨_, rfl⟩

theorem State.dropWaiters_clu (s : State) (gone : Requester → Bool) (c : CluId) : (s.dropWaiters gone).clu c = s.clu c := rfl

/-- A controller's stream that ends leaves its cluster without pins and frees its controller, whose registers stay. -/
theorem State.endController_clu (s : State) (c : CluId) : (s.endController c).mem = s.mem
    ∧ ((s.endController c).clu c).ctl.inUse = false ∧ ((s.endController c).clu c).pins = []
    ∧ ((s.endController c).clu c).ctl.tpins = [] ∧ ((s.endController c).clu c).ctl.m = (s.clu c).ctl.m := by
  have hhalt : ((s.haltController c).clu c).pins = [] ∧ ((s.haltController c).clu c).ctl.tpins = []
      ∧ ((s.haltController c).clu c).ctl.m = (s.clu c).ctl.m := by
    rw [State.haltController, State.dropWaiters_clu, State.clu_modClu]
    exact ⟨rfl, rfl, rfl⟩
  let t : State := { s.haltController c with msgs := (s.haltController c).msgs.filter fun m => match m.2 with
    | .change k => k.agent != .m c
    | _ => true }
  obtain ⟨hm, k, hk⟩ := State.leaveAll_ctl c (t.regsOf (.m c)) t
  let u := (t.leaveAll (.m c) (t.regsOf (.m c))).modCtl c fun x => { x with inUse := false, ended := false }
  obtain ⟨hm', a, ha⟩ := u.settleGroups_clu c.pkg ((s.haltController c).clu c).ctl.launch c
  have hend : s.endController c = u.settleGroups c.pkg ((s.haltController c).clu c).ctl.launch := rfl
  have hu : u.clu c = { (t.leaveAll (.m c) (t.regsOf (.m c))).clu c with
    ctl := { ((t.leaveAll (.m c) (t.regsOf (.m c))).clu c).ctl with inUse := false, ended := false } } := State.clu_modClu ..
  have ht : t.clu c = (s.haltController c).clu c := rfl
  rw [hend, hm', ha, hu, hk, ht]
  exact ⟨hm, rfl, hhalt⟩

theorem exec_exit_m {s : State} {c : CluId} (hc : s.cur = .m c) (hi : issues .exit s = true) :
    exec .exit s = .next (if (s.clu c).ctl.queue.isEmpty && !s.leaveWaits (.m c) then s.endController c else s) := by
  have hex : exec .exit s = execExit s := rfl
  rw [hex, execExit, issue_of_issues _ hi, hc, apply_ite Host.Outcome.next]
  simp only [State.countIssue, hc]
  rfl

/-! ## `mwait` (R118, R269) -/

/-- An `mwait` that issues in a fragment with lanes passes, its monitor disarmed, or parks. -/
theorem exec_mwait_of_issues {s : State} {g : GangId} {e : Nat} (hc : s.cur = .a g) (h : issues .mwait s = true)
    (he : (s.gang g).cur = some e) (hm : ((s.gang g).frag e).mask ≠ 0) :
    let t := (s.countIssue (.a g)).modGang g fun x => x.mwait
    ((s.gang g).woke e = true → exec .mwait s = .next ((t.disarm g e).advance .mwait))
      ∧ ((s.gang g).woke e = false → exec .mwait s = .next t) := by
  have hf : (s.gang g).fragMask ≠ 0 := by
    have hmask : (s.gang g).fragMask = ((s.gang g).frag e).mask := by simp only [Gang.fragMask, he]; rfl
    rwa [hmask]
  have hex : exec .mwait s = execMwait s := rfl
  rw [hex, execMwait, issue_of_issues _ h]
  simp only [State.countIssue_cur, hc, State.countIssue_a_cur, he, State.countIssue_a_woke, State.countIssue_a_fragMask, if_neg hf]
  exact ⟨fun hw => if_pos hw, fun hw => if_neg (by simp [hw])⟩

theorem Gang.woke_iff (x : Gang) (e : Nat) : x.woke e = true ↔
    (x.frag e).woken = true ∨ tfind e x.monitors = none ∨ ∃ m, tfind e x.monitors = some m ∧ m.hit = true := by
  unfold Gang.woke
  cases tfind e x.monitors <;> simp

section
variable {x : Gang} {e : Nat} (he : x.cur = some e)
include he

theorem Gang.mwait_of_woke (hw : x.woke e = true) : x.mwait = (x.setFrag e { x.frag e with woken := false }).pushDq ⟨0, 0⟩ := by
  have h : x.mwait = match x.cur with
      | none => x
      | some e =>
        if x.woke e then (x.setFrag e { x.frag e with woken := false }).pushDq (decisionRec false)
        else if x.fragMask = 0 then x.endFragment
        else (x.leave .parked x.apc).select := rfl
  rw [h, he]
  exact if_pos hw

theorem Gang.mwait_of_not_woke (hw : x.woke e = false) (hm : (x.frag e).mask ≠ 0) : x.mwait = (x.leave .parked x.apc).select := by
  have hf : x.fragMask ≠ 0 := by
    have hmask : x.fragMask = (x.frag e).mask := by simp only [Gang.fragMask, he]; rfl
    rwa [hmask]
  simp only [Gang.mwait, he, hw, if_neg hf, Bool.false_eq_true, if_false]

end

/-- An `mwait` that passes and issues has room for its decision record. -/
theorem hasRoom_of_issues_mwait {s : State} {g : GangId} {e : Nat} (hc : s.cur = .a g) (h : issues .mwait s = true)
    (he : (s.gang g).cur = some e) (hw : (s.gang g).woke e = true) : (s.gang g).hasRoom := by
  have hm := mode_of_issues hc h fun m => by cases m <;> rfl
  have hst : (s.gang g).slipFor (s.gang g).mwait = none := by
    have := stallOther_of_issues h (by rw [hc]; rfl)
    rw [hc] at this
    exact this
  refine Gang.hasRoom_of_slipFor (Gang.dqNext_of_runnable (hc ▸ runnable_of_issues h) hm) ?_ hst
  rw [Gang.mwait_of_woke he hw]
  exact Gang.pushes_pushDq (Gang.setFrag_dq ..) (Gang.setFrag_dqNext ..) _

/-- A monitor that is disarmed is gone; beside monitors, its gang is as before. -/
theorem State.disarm_gang (s : State) (g : GangId) (e : Nat) : (s.disarm g e).mem = s.mem ∧ (s.disarm g e).cur = s.cur
    ∧ ∃ ms, (s.disarm g e).gang g = { s.gang g with monitors := ms } ∧ tfind e ms = none := by
  unfold State.disarm
  split
  · rename_i h
    exact ⟨rfl, rfl, _, rfl, h⟩
  · exact ⟨rfl, rfl, _, State.gang_modGang .., tfind_tdel_same ..⟩

/-- Settles O38: `Gang.endFragment`, the end of a controller's stream, and `Gang.mwait`. -/
theorem fragmentEnds : Obligations.FragmentEnds := by
  unfold Obligations.FragmentEnds
  intro s
  refine ⟨fun g e hc hi he => exec_exit_a hc hi he, fun c hc hi hw => ?_, fun c hc hi hq hw => ?_, fun g e hc hi he hm => ?_⟩
  · rw [exec_exit_m hc hi, if_neg]
    rcases hw with hw | hw <;> simp [hw]
  · have hend : ((s.clu c).ctl.queue.isEmpty && !s.leaveWaits (.m c)) = true := by simp [hq, hw]
    exact ⟨_, by rw [exec_exit_m hc hi, if_pos hend], s.endController_clu c⟩
  · intro met
    obtain ⟨hpass, hpark⟩ := exec_mwait_of_issues hc hi he hm
    have hcc := (s.countIssue_a_cur g).trans he
    have hwoke := s.countIssue_a_woke g e
    refine ⟨fun hmet => ?_, fun hmet => ?_⟩
    · have hw : (s.gang g).woke e = true := ((s.gang g).woke_iff e).mpr hmet
      have hroom := (s.countIssue_a_hasRoom g).mpr (hasRoom_of_issues_mwait hc hi he hw)
      have hgang := Gang.mwait_of_woke hcc (hwoke.trans hw)
      obtain ⟨hdm, hdc, ms, hdg, hms⟩ := ((s.countIssue (.a g)).modGang g fun x => x.mwait).disarm_gang g e
      refine ⟨_, hpass hw, by rw [State.advance_mem, hdm]; simp, ?_⟩
      rw [State.advance_a (hdc.trans hc), State.gang_modGang, hdg, State.gang_modGang, hgang]
      simp only [Gang.pushDq_apc, Gang.pushDq_cur, Gang.pushDq_dq_of_hasRoom (x := Gang.setFrag _ e _) hroom, Gang.setFrag_apc,
        Gang.setFrag_cur, Gang.setFrag_dq, State.countIssue_a_apc, State.countIssue_a_cur, State.countIssue_a_dq]
      exact ⟨rfl, he, trivial, hms⟩
    · have hw : (s.gang g).woke e = false := by simpa using mt ((s.gang g).woke_iff e).mp hmet
      have hgang := Gang.mwait_of_not_woke hcc (hwoke.trans hw) (by rw [s.countIssue_a_frag]; exact hm)
      have hfrag := Gang.leave_select_frag hcc (st := .parked) (by decide) ((s.countIssue (.a g)).gang g).apc
      refine ⟨_, hpark hw, by simp, ?_⟩
      rw [State.gang_modGang, hgang, hfrag, Gang.select_monitors, Gang.leave_monitors, s.countIssue_a_monitors, s.countIssue_a_apc,
        s.countIssue_a_exmA]
      exact ⟨rfl, rfl, rfl, rfl⟩

end Sys2Proof.Machine
end

section
/-! PROOF. The instructions of the c-slice that pop a record (R103, R104, R167, R171 to R173, R182). -/

namespace Sys2Proof.Machine

/-! ## The gang as its c-slice counts an issue -/

/-- The records that are left when waiting ones are pushed depend on those before them and the slip limit alone. -/
theorem flushDq_dq_congr : ∀ (rs : List DRec) {x y : Gang}, x.dq = y.dq → x.slip = y.slip → (flushDq x rs).dq = (flushDq y rs).dq
  | [], _, _, hq, _ => hq
  | r :: rs, x, y, hq, hs => by
    have hroom : x.dq.length < x.slip ↔ y.dq.length < y.slip := by rw [hq, hs]
    unfold flushDq
    by_cases h : y.dq.length < y.slip
    · rw [if_pos (hroom.mpr h), if_pos h]
      exact flushDq_dq_congr rs (congrArg (· ++ [r]) hq) hs
    · rw [if_neg (mt hroom.mp h), if_neg h]
      exact hq

section
variable (s : State) (g : GangId)

theorem State.gang_countIssue_c : (s.countIssue (.c g)).gang g =
    { s.gang g with since := if (s.gang g).trapA.isSome then (s.gang g).since + 1 else (s.gang g).since } :=
  State.gang_modGang ..

@[simp] theorem State.countIssue_c_dq : ((s.countIssue (.c g)).gang g).dq = (s.gang g).dq := by rw [State.gang_countIssue_c]
@[simp] theorem State.countIssue_c_popDq_dq : ((s.countIssue (.c g)).gang g).popDq.dq = (s.gang g).popDq.dq := by
  rw [State.gang_countIssue_c]
  exact flushDq_dq_congr _ rfl rfl
@[simp] theorem State.countIssue_c_cpc : ((s.countIssue (.c g)).gang g).cpc = (s.gang g).cpc := by rw [State.gang_countIssue_c]
@[simp] theorem State.countIssue_c_apc : ((s.countIssue (.c g)).gang g).apc = (s.gang g).apc := by rw [State.gang_countIssue_c]
@[simp] theorem State.countIssue_c_exmC : ((s.countIssue (.c g)).gang g).exmC = (s.gang g).exmC := by rw [State.gang_countIssue_c]
@[simp] theorem State.countIssue_c_ccur : ((s.countIssue (.c g)).gang g).ccur = (s.gang g).ccur := by rw [State.gang_countIssue_c]
@[simp] theorem State.countIssue_c_cfrags : ((s.countIssue (.c g)).gang g).cfrags = (s.gang g).cfrags := by rw [State.gang_countIssue_c]
@[simp] theorem State.countIssue_c_cjoins : ((s.countIssue (.c g)).gang g).cjoins = (s.gang g).cjoins := by rw [State.gang_countIssue_c]
@[simp] theorem State.countIssue_c_dead : ((s.countIssue (.c g)).gang g).dead = (s.gang g).dead := by rw [State.gang_countIssue_c]
@[simp] theorem State.countIssue_c_pc : (s.countIssue (.c g)).pc (.c g) = (s.gang g).cpc := by simp [State.pc]

end

/-! ## Popping a record -/

theorem flushDq_frame : ∀ (rs : List DRec) (x : Gang), ∃ q n, flushDq x rs = { x with dq := q, dqNext := n }
  | [], _ => ⟨_, _, rfl⟩
  | r :: rs, x => by
    unfold flushDq
    split
    · obtain ⟨q, n, h⟩ := flushDq_frame rs { x with dq := x.dq ++ [r] }
      exact ⟨q, n, h⟩
    · exact ⟨_, _, rfl⟩

/-- A record popped changes `dq` alone. -/
theorem Gang.popDq_frame (x : Gang) : ∃ q n, x.popDq = { x with dq := q, dqNext := n } := by
  obtain ⟨q, n, h⟩ := flushDq_frame x.dqNext { x with dq := x.dq.drop 1 }
  exact ⟨q, n, h⟩

section
variable (x : Gang)
@[simp] theorem Gang.popDq_cpc : x.popDq.cpc = x.cpc := by obtain ⟨q, n, h⟩ := x.popDq_frame; rw [h]
@[simp] theorem Gang.popDq_apc : x.popDq.apc = x.apc := by obtain ⟨q, n, h⟩ := x.popDq_frame; rw [h]
@[simp] theorem Gang.popDq_exmC : x.popDq.exmC = x.exmC := by obtain ⟨q, n, h⟩ := x.popDq_frame; rw [h]
@[simp] theorem Gang.popDq_ccur : x.popDq.ccur = x.ccur := by obtain ⟨q, n, h⟩ := x.popDq_frame; rw [h]
@[simp] theorem Gang.popDq_cfrags : x.popDq.cfrags = x.cfrags := by obtain ⟨q, n, h⟩ := x.popDq_frame; rw [h]
@[simp] theorem Gang.popDq_cjoins : x.popDq.cjoins = x.cjoins := by obtain ⟨q, n, h⟩ := x.popDq_frame; rw [h]
@[simp] theorem Gang.popDq_dead : x.popDq.dead = x.dead := by obtain ⟨q, n, h⟩ := x.popDq_frame; rw [h]

end

/-! ## The head record decides (R104) -/

section
variable {s : State} {g : GangId} {r : DRec} {rs : List DRec} (hd : (s.gang g).dq = r :: rs)
include hd

variable {i : Instr} {ks : List Nat} (ha : acceptedKinds i = ks) (k : DRec → State → State)
include ha

theorem popRecord_refused (h : r.kind ∉ ks) : popRecord i s g k = .next (s.raiseAt (.c g) causeQueue r.kind 4) := by
  simp [popRecord, hd, ha, h]

theorem popRecord_switch (h : r.kind = 4) (h4 : 4 ∈ ks) : popRecord i s g k = .next (s.modGang g fun x => x.cSwitch r) := by
  simp [popRecord, hd, ha, h, h4]

theorem popRecord_taken {n : Nat} (h : r.kind = n) (hn : n ≠ 4) (hk : n ∈ ks) : popRecord i s g k = .next (k r s) := by
  simp [popRecord, hd, ha, h, hn, hk]

end

/-! ## The five instructions -/

section
variable {s : State} {g : GangId} (hc : s.cur = .c g)
include hc

theorem exec_brd_of_issues {o : BitVec 18} (h : issues (.brd o) s = true) :
    exec (.brd o) s = popRecord (.brd o) (s.countIssue (.c g)) g fun r s' =>
      let target := branchTarget (s.gang g).cpc o
      let next := (s.gang g).cpc + 4
      if r.kind == 0 then s'.modGang g fun x => { x.popDq with cpc := if r.payload.getLsbD 0 then target else next }
      else s'.modGang g fun x => x.cDiverge r target next := by
  have hex : exec (.brd o) s = execBrd o s := rfl
  rw [hex, execBrd, issue_of_issues _ h]
  simp only [State.countIssue_cur, hc, State.countIssue_c_pc]

theorem exec_jmpi_c_of_issues {b a : BitVec 6} {p : BitVec 1} (h : issues (.jmpi b a p) s = true) :
    exec (.jmpi b a p) s = popRecord (.jmpi b a p) (s.countIssue (.c g)) g fun r s' =>
      s'.modGang g fun x => { x.popDq with cpc := r.payload.truncate 57 } := by
  have hex : exec (.jmpi b a p) s = execJmpi b a p s := rfl
  rw [hex, execJmpi, issue_of_issues _ h]
  simp only [State.countIssue_cur, hc]

theorem exec_rejoin_c_of_issues (h : issues .rejoin s = true) :
    exec .rejoin s = popRecord .rejoin (s.countIssue (.c g)) g fun r s' => s'.modGang g fun x => x.cRelease r ((s.gang g).cpc + 4) := by
  have hex : exec .rejoin s = execRejoin s := rfl
  rw [hex, execRejoin, issue_of_issues _ h]
  simp only [State.countIssue_cur, hc, State.countIssue_c_pc]

theorem exec_exit_c_of_issues (h : issues .exit s = true) :
    exec .exit s = popRecord .exit (s.countIssue (.c g)) g fun _ s' => s'.modGang g fun x => { x.popDq with cEnd := true } := by
  have hex : exec .exit s = execExit s := rfl
  rw [hex, execExit, issue_of_issues _ h]
  simp only [State.countIssue_cur, hc]

theorem exec_region_c_of_issues (h : issues .region s = true) :
    exec .region s = popRecord .region (s.countIssue (.c g)) g fun _ s' => s'.popRegion g := by
  have hex : exec .region s = execRegion s := rfl
  rw [hex, execRegion, issue_of_issues _ h]
  simp only [State.countIssue_cur, hc]

/-- Each of the five is `popRecord` with an effect of its own. -/
theorem exec_eq_popRecord {i : Instr} (hi : (∃ o, i = .brd o) ∨ (∃ b a p, i = .jmpi b a p) ∨ i = .rejoin ∨ i = .exit ∨ i = .region)
    (h : issues i s = true) : ∃ k, exec i s = popRecord i (s.countIssue (.c g)) g k := by
  rcases hi with ⟨o, rfl⟩ | ⟨b, a, p, rfl⟩ | rfl | rfl | rfl
  · exact ⟨_, exec_brd_of_issues hc h⟩
  · exact ⟨_, exec_jmpi_c_of_issues hc h⟩
  · exact ⟨_, exec_rejoin_c_of_issues hc h⟩
  · exact ⟨_, exec_exit_c_of_issues hc h⟩
  · exact ⟨_, exec_region_c_of_issues hc h⟩

end

/-! ## Payloads (R103) -/

theorem DRec.lanes_eq (r : DRec) : r.lanes = r.payload.extractLsb' 0 32 := BitVec.setWidth_eq_extractLsb' (by decide)

theorem DRec.field_one (r : DRec) (n : Nat) : r.field n 1 = 1 ↔ r.payload.getLsbD n = true := by
  rw [DRec.field, BitVec.extractLsb'_toNat, BitVec.getLsbD, Nat.testBit, Nat.one_and_eq_mod_two, Nat.pow_one]
  simp

/-- A bit of a union of words. -/
theorem getLsbD_foldl_or (f : Nat → Word) (l : Nat) (es : List Nat) (m : Word) :
    (es.foldl (fun w e => w ||| f e) m).getLsbD l = true ↔ m.getLsbD l = true ∨ ∃ e ∈ es, (f e).getLsbD l = true := by
  induction es generalizing m with
  | nil => simp
  | cons e es ih => rw [List.foldl_cons, ih]; simp [or_assoc]

/-! ## A divergent record (R167) -/

section
variable (x : Gang) (r : DRec) (target next : VAddr)

theorem Gang.cDiverge_spec :
    let y := x.cDiverge r target next
    let taken := r.payload.getLsbD 36
    let idx := (r.payload.extractLsb' 32 4).toNat
    let lanes := r.payload.extractLsb' 0 32
    let other := if taken then next else target
    y.dq = x.popDq.dq ∧ y.cpc = (if taken then target else next) ∧ y.exmC = x.exmC &&& ~~~lanes
      ∧ (r.payload.getLsbD 37 = true → y.cjoins = ⟨idx, (tget x.ccur {} x.cfrags).mask ||| lanes, lanes, other, 0, 0⟩ :: x.cjoins)
      ∧ (r.payload.getLsbD 37 = false → tget idx {} y.cfrags = { live := true, mask := lanes, cexm := lanes, cpc := other }) := by
  intro y taken idx lanes other
  let cur : CFrag := tget x.ccur {} x.cfrags
  let z : Gang := { x.popDq with
    cpc := if r.field 36 1 == 1 then target else next
    exmC := x.exmC &&& ~~~r.lanes
    cfrags := tset x.ccur { cur with mask := cur.mask &&& ~~~r.lanes } x.cfrags }
  have hy : y = if r.field 37 1 = 1 then
      { z with cjoins := { num := r.field 32 4, lanes := cur.mask ||| r.lanes, dmask := r.lanes, dcpc := if r.field 36 1 == 1 then next else target } :: z.cjoins }
    else { z with cfrags := tset (r.field 32 4) { live := true, mask := r.lanes, cexm := r.lanes, cpc := if r.field 36 1 == 1 then next else target } z.cfrags } := rfl
  have htaken : (r.field 36 1 == 1) = taken := by rw [Bool.eq_iff_iff, beq_iff_eq]; exact r.field_one 36
  have hlanes : r.lanes = lanes := r.lanes_eq
  have hcpc : z.cpc = if taken then target else next := by rw [← htaken]
  have hexm : z.exmC = x.exmC &&& ~~~lanes := by rw [← hlanes]
  have hother : (if r.field 36 1 == 1 then next else target) = other := by rw [htaken]
  rw [hy, hother, hlanes]
  by_cases hdef : r.payload.getLsbD 37 = true
  · rw [if_pos ((r.field_one 37).mpr hdef)]
    exact ⟨rfl, hcpc, hexm, fun _ => congrArg (_ :: ·) x.popDq_cjoins, fun h => absurd hdef (by rw [h]; decide)⟩
  · rw [if_neg (mt (r.field_one 37).mp hdef)]
    exact ⟨rfl, hcpc, hexm, fun h => absurd h hdef, fun _ => tget_tset_same ..⟩

end

/-! ## A release record (R172) -/

section
variable (x : Gang) (r : DRec) (next : VAddr)

theorem Gang.cRelease_spec :
    let y := x.cRelease r next
    let j := (r.payload.extractLsb' 32 4).toNat
    let m := r.payload.extractLsb' 0 32
    y.cpc = next ∧ y.dq = x.popDq.dq ∧ (j = 15 → y.exmC = x.exmC ∧ y.cfrags = x.cfrags)
      ∧ (j ≠ 15 → y.cfragMask = m &&& ~~~x.dead
        ∧ ∀ l, l < 32 → (y.exmC.getLsbD l = true ↔ r.payload.getLsbD l = true ∧ (x.exmC.getLsbD l = true
          ∨ (∃ e, e < 8 ∧ e ≠ x.ccur ∧ (tget e {} x.cfrags).live = true ∧ (tget e {} x.cfrags).mask &&& m ≠ 0
            ∧ (tget e {} x.cfrags).cexm.getLsbD l = true)
          ∨ ∃ c, x.cjoins.find? (fun c => c.num == j && c.lanes &&& m != 0) = some c ∧ c.cArr.getLsbD l = true))) := by
  intro y j m
  let es := fragIdx.filter fun e => e ≠ x.popDq.ccur && (tget e {} x.popDq.cfrags).live && (tget e {} x.popDq.cfrags).mask &&& r.lanes != 0
  let saved := es.foldl (fun w e => w ||| (tget e {} x.popDq.cfrags).cexm) 0
  let n := es.foldl (fun a b => if b < a then b else a) x.popDq.ccur
  have hy : y = if r.field 32 4 = 15 then { x.popDq with cpc := next }
      else { x.popDq with
        cpc := next
        exmC := (x.popDq.exmC ||| saved ||| ((x.popDq.cjoins.find? fun c => c.meets j r.lanes).getD {}).cArr) &&& r.lanes
        cfrags := tset n { live := true, mask := r.lanes } (x.popDq.cfrags.filter fun p => !(es.contains p.1) && p.1 ≠ x.popDq.ccur)
        cjoins := x.popDq.cjoins.filter fun c => !c.meets j r.lanes
        ccur := n } := rfl
  have hlanes : r.lanes = m := r.lanes_eq
  have hsaved (l : Nat) : saved.getLsbD l = true ↔ ∃ e, e < 8 ∧ e ≠ x.ccur ∧ (tget e {} x.cfrags).live = true
      ∧ (tget e {} x.cfrags).mask &&& m ≠ 0 ∧ (tget e {} x.cfrags).cexm.getLsbD l = true := by
    have h0 : (0 : Word).getLsbD l = false := BitVec.getLsbD_zero
    rw [getLsbD_foldl_or, h0]
    simp only [es, fragIdx, List.mem_filter, List.mem_range, Gang.popDq_ccur, Gang.popDq_cfrags, hlanes, ne_eq, Bool.and_eq_true,
      decide_eq_true_eq, bne_iff_ne, Bool.false_eq_true, false_or, and_assoc]
  rw [hy]
  by_cases hj : j = 15
  · rw [if_pos (c := r.field 32 4 = 15) hj]
    exact ⟨rfl, rfl, fun _ => ⟨x.popDq_exmC, x.popDq_cfrags⟩, fun h => absurd hj h⟩
  · rw [if_neg (c := r.field 32 4 = 15) hj]
    refine ⟨rfl, rfl, fun h => absurd h hj, fun _ => ⟨?_, fun l hl => ?_⟩⟩
    · change (tget n {} (tset n ({ live := true, mask := r.lanes } : CFrag) _)).mask &&& ~~~x.popDq.dead = _
      rw [tget_tset_same, Gang.popDq_dead, hlanes]
    · have hm : m.getLsbD l = r.payload.getLsbD l := by simp [m, hl]
      have hmeets : (fun c : CJoin => c.meets j m) = fun c => c.num == j && c.lanes &&& m != 0 := rfl
      change ((x.popDq.exmC ||| saved ||| ((x.popDq.cjoins.find? fun c => c.meets j r.lanes).getD {}).cArr) &&& r.lanes).getLsbD l = true ↔ _
      rw [hlanes, Gang.popDq_exmC, Gang.popDq_cjoins, BitVec.getLsbD_and, BitVec.getLsbD_or, BitVec.getLsbD_or, hm, Bool.and_eq_true,
        Bool.or_eq_true, Bool.or_eq_true, hsaved l, and_comm, or_assoc, hmeets]
      refine and_congr_right fun _ => or_congr_right (or_congr_right ?_)
      cases x.cjoins.find? fun c => c.num == j && c.lanes &&& m != 0 <;> simp

end

/-! ## The record of a region (R129) -/

/-- The state in which the region record has been popped. -/
def State.regionPopped (s : State) (g : GangId) : State := s.modGang g fun x => { x.popDq with cpc := x.cpc + 4, regionWait := false }

theorem State.popRegion_eq (s : State) (g : GangId) : s.popRegion g = match ((s.regionPopped g).gang g).regionBlock with
    | some n => (s.regionPopped g).raiseAt (.a g) causeRegion 0 (BitVec.ofNat 64 n)
    | none => (s.regionPopped g).modGang g fun x => x.openRegion := rfl

theorem State.popRegion_blocked {s : State} {g : GangId} {n : Nat} (h : ((s.regionPopped g).gang g).regionBlock = some n) :
    s.popRegion g = (s.regionPopped g).raiseAt (.a g) causeRegion 0 (BitVec.ofNat 64 n) := by
  rw [State.popRegion_eq, h]

theorem State.popRegion_opens {s : State} {g : GangId} (h : ((s.regionPopped g).gang g).regionBlock = none) :
    let x := s.gang g
    let y := (s.popRegion g).gang g
    (s.popRegion g).mem = s.mem ∧ y.cpc = x.cpc + 4 ∧ y.apc = x.apc + 4 ∧ y.regionWait = false ∧ y.region.isSome = true := by
  intro x y
  have hp : s.popRegion g = (s.regionPopped g).modGang g fun x => x.openRegion := by rw [State.popRegion_eq, h]
  have hy : y = Gang.openRegion { x.popDq with cpc := x.cpc + 4, regionWait := false } := by
    simp only [y, hp, State.gang_modGang, State.regionPopped, x]
  rw [hp, hy]
  exact ⟨rfl, rfl, congrArg (· + 4) x.popDq_apc, rfl, rfl⟩

/-- Settles O39: the record at the head of `dq` decides (`popRecord`), and each instruction has its effect of the record it takes. -/
theorem cSliceRecords : Obligations.CSliceRecords := by
  unfold Obligations.CSliceRecords
  intro s g r rs hc hd q
  have hq : ((s.countIssue (.c g)).gang g).dq = r :: rs := (s.countIssue_c_dq g).trans hd
  have hact : q.active (.c g) = s.active (.c g) := s.countIssue_active (.c g)
  refine ⟨fun i accepts hi h => ?_, fun o h => ?_, fun b a p h hk => ?_, fun h hk => ?_, fun h hk => ?_, fun h hk => ?_⟩
  · have hacc : acceptedKinds i = accepts := by
      rcases hi with ⟨o, rfl, rfl⟩ | ⟨b, a, p, rfl, rfl⟩ | ⟨rfl, rfl⟩ | ⟨rfl, rfl⟩ | ⟨rfl, rfl⟩ <;> rfl
    have h4 : 4 ∈ accepts := by
      rcases hi with ⟨o, -, rfl⟩ | ⟨b, a, p, -, rfl⟩ | ⟨-, rfl⟩ | ⟨-, rfl⟩ | ⟨-, rfl⟩ <;> decide
    have hform : (∃ o, i = .brd o) ∨ (∃ b a p, i = .jmpi b a p) ∨ i = .rejoin ∨ i = .exit ∨ i = .region := by
      rcases hi with ⟨o, rfl, -⟩ | ⟨b, a, p, rfl, -⟩ | ⟨rfl, -⟩ | ⟨rfl, -⟩ | ⟨rfl, -⟩ <;> simp
    obtain ⟨k, hk⟩ := exec_eq_popRecord hc hform h
    rw [hk]
    refine ⟨fun hn => ?_, fun hk4 => popRecord_switch hq hacc k hk4 h4⟩
    rw [popRecord_refused hq hacc k hn, State.raiseAt, hact]
    rfl
  · intro target next
    refine ⟨fun hk => ?_, fun hk => ?_⟩
    · rw [exec_brd_of_issues hc h, popRecord_taken hq (ks := [0, 1, 4]) rfl _ hk (by decide) (by decide)]
      simp only [hk, beq_self_eq_true, if_true]
      rfl
    · rw [exec_brd_of_issues hc h, popRecord_taken hq (ks := [0, 1, 4]) rfl _ hk (by decide) (by decide)]
      refine ⟨_, rfl, by simp [hk], ?_⟩
      have hspec := ((s.countIssue (.c g)).gang g).cDiverge_spec r target next
      simp only [State.countIssue_c_popDq_dq, State.countIssue_c_exmC, State.countIssue_c_ccur, State.countIssue_c_cfrags,
        State.countIssue_c_cjoins] at hspec
      simp only [hk, Nat.reduceBEq, Bool.false_eq_true, if_false, State.gang_modGang]
      exact hspec
  · rw [exec_jmpi_c_of_issues hc h, popRecord_taken hq (ks := [2, 4]) rfl _ hk (by decide) (by decide), ← BitVec.setWidth_eq_extractLsb' (by decide)]
  · rw [exec_rejoin_c_of_issues hc h, popRecord_taken hq rfl _ hk (by decide) (by decide)]
    refine ⟨_, rfl, by simp, ?_⟩
    have hspec := ((s.countIssue (.c g)).gang g).cRelease_spec r ((s.gang g).cpc + 4)
    simp only [State.countIssue_c_popDq_dq, State.countIssue_c_exmC, State.countIssue_c_ccur, State.countIssue_c_cfrags,
      State.countIssue_c_cjoins, State.countIssue_c_dead] at hspec
    rw [State.gang_modGang]
    exact hspec
  · rw [exec_exit_c_of_issues hc h, popRecord_taken hq rfl _ hk (by decide) (by decide)]
  · intro p
    rw [exec_region_c_of_issues hc h, popRecord_taken hq rfl _ hk (by decide) (by decide)]
    refine ⟨fun n hn => ?_, fun hn => ?_⟩
    · exact congrArg Host.Outcome.next (State.popRegion_blocked hn)
    · obtain ⟨hmem, hcpc, hapc, hrest⟩ := State.popRegion_opens hn
      rw [State.countIssue_c_cpc] at hcpc
      rw [State.countIssue_c_apc] at hapc
      exact ⟨_, rfl, hmem.trans (State.countIssue_mem ..), hcpc, hapc, hrest⟩

end Sys2Proof.Machine
end


section
/-! PROOF. `TranslationEvents` (R349, R351): the trap of a buffered entry names the lowest lane that has no translation, not the
lowest one whose place is still unknown. -/

namespace Sys2Proof.Machine

/-- The gang of the counterexample. -/
def missGang : GangId := ⟨0, 0, 0, 0, 0⟩

/-- A load of two lanes that are both still without a place: lane 0 in a page that the tables map, lane 1 in page 0. -/
def missHeld : Held :=
  let lanes : List LaneAccess := [⟨0, 2 ^ 29, none, 0, 0⟩, ⟨1, 0, none, 0, 0⟩]
  { access := { id := 0, gang := missGang, ctx := 1, sup := false, kind := .load, space := .g, size := 8, op := 5, ty := .b64,
                dest := .reg 8, active := 3, lanes := lanes, got := [], waitsOn := none, era := 0 }
    pc := 0, len := 4, redo := false }

/-- The buffered merge entry of page 0. -/
def missMerge : Merge := { ctx := 1, page := 0, lg := 13, va := 0, acc := 0, state := .buffered, waiters := [] }

/-- The tables of context 1 map the 512 MiB page at `2 ^ 29` and nothing else; the load waits in its replay buffer, and entry 0
of the fault-merge table covers its lane 1. -/
def missState : State :=
  let s := (State.reset.modGang missGang fun x => { x with replay := some missHeld }).modPkg 0
    fun x => { x with contexts := [(1, ⟨0x20000, true⟩)] }
  let t := s.modDie missGang.dieId fun x => { x with merge := [(0, missMerge)] }
  { t with mem := memPuts (hbmKey 0 0x20000) (bytesOfNum 0x40001 8) (memPuts (hbmKey 0 0x40008) (bytesOfNum (leafOf 3 0 7) 8) []) }

theorem missState_held : (missState.gang missGang).held false = some missHeld := by decide +kernel

/-- The miss is at the lowest missing address, which is lane 1's. -/
theorem missState_missOf : missState.missOf (.gang missGang) = some ⟨1, 0, 0, 0, 0⟩ := by decide +kernel

theorem missState_mergeTags :
    (missState.die missGang.dieId).mergeTags (fun e => e.covers 1 0) = [0] := by decide +kernel

theorem missState_merge : tfind 0 (missState.die missGang.dieId).merge = some missMerge := by decide +kernel

/-- Nothing keeps the gang from joining the entry: it waits on none, no pre-emption stops it, and the die TLB is empty. -/
theorem missState_joins : (missState.die missGang.dieId).waits (.gang missGang) = false
    ∧ missState.requesterStopped (.gang missGang) = false
    ∧ (missState.die missGang.dieId).tlb.any (fun e => e.covers 1 0) = false := by decide +kernel

/-- The trap that joining the entry raises has lane 1's address as its info. -/
theorem missState_takeMiss_info :
    ((missState.takeMiss (.gang missGang)).gang missGang).trapA.map (·.info) = some 0 := by decide +kernel

/-- Refutes O55: the lowest missing lane of a gang that joins a buffered entry may be in a page that a walk finds, so that it
only awaits its translation (R250); the trap's info is then the address of the lowest lane without one. In `missState` lane 0
misses at `2 ^ 29`, which is mapped, and lane 1 at 0, which the entry covers: info is 0, where the statement has `2 ^ 29`. -/
theorem not_translationEvents : ¬ Obligations.TranslationEvents := by
  unfold Obligations.TranslationEvents
  rintro ⟨h, -⟩
  obtain ⟨hwaits, hstopped, htlb⟩ := missState_joins
  obtain ⟨-, -, hmiss⟩ := h missState (.gang missGang) (.dieTlbMiss (.gang missGang)) (Or.inl rfl)
  obtain ⟨-, hentry⟩ := hmiss _ missState_missOf hwaits hstopped
  obtain ⟨-, hfault, -⟩ := hentry htlb
  obtain ⟨v, hv, -, -, htrap⟩ := hfault 0 [] missMerge missState_mergeTags missState_merge (Or.inl rfl)
  obtain ⟨q, hq, -, -, -, hinfo, -⟩ := htrap missGang missHeld ⟨0, 2 ^ 29, none, 0, 0⟩ _ rfl missState_held rfl
  have hout : missState.takeMiss (.gang missGang) = v := Host.Outcome.next.inj hv
  have hzero := missState_takeMiss_info
  rw [hout, hq, Option.map_some, hinfo] at hzero
  exact absurd hzero (by decide)

end Sys2Proof.Machine
end


section
/-! SUPPORT. Accesses performed (R217, R252, R253, R259): what a load, a store or an atomic of one lane does, and what the delivery of a
value leaves as it is. -/

namespace Sys2Proof.Machine

/-! ## The events by the access that they name -/

theorem Access.placeless_iff {a : Access} : a.placeless = true ↔ ∃ l ∈ a.lanes, l.pa = none := by
  simp [Access.placeless]

theorem Access.placed_iff {a : Access} : a.placeless = false ↔ ∀ l ∈ a.lanes, l.pa ≠ none := by
  simp [Access.placeless, ← Option.isSome_iff_ne_none]

theorem id_of_find {n : Nat} {a : Access} {as : List Access} (h : as.find? (fun x => x.id == n) = some a) : a.id = n := by
  simpa using List.find?_some h

section Found

variable {s : State} {n : Nat} {a : Access} (hf : s.flight.find? (fun x => x.id == n) = some a)
include hf

theorem exec_loadDataReturn_found : exec (.loadDataReturn n) s = .next (if a.placeless then s.setFlight (s.retarget a.gang a)
    else if a.kind = .load then s.performLoad a else s) := by
  show execLoadDataReturn n s = _
  rw [execLoadDataReturn, hf]
  dsimp only
  split_ifs <;> rfl

theorem exec_storeAck_found : exec (.storeAck n) s = .next (if a.placeless then s.setFlight (s.retarget a.gang a)
    else if a.kind = .store ∨ a.kind = .storeFe ∨ a.kind = .atomic then s.performWrite a else s) := by
  show execStoreAck n s = _
  rw [execStoreAck, hf]
  dsimp only
  simp only [Bool.or_eq_true, decide_eq_true_eq, or_assoc]
  split_ifs <;> rfl

theorem exec_fullEmptyServe_found : exec (.fullEmptyServe n) s = .next (if a.feLoad then s.serveFe a else s) := by
  show execFullEmptyServe n s = _
  rw [execFullEmptyServe, hf]
  dsimp only
  split_ifs <;> rfl

end Found

/-! ## What a load reads, and what reading changes -/

/-- A load changes no more than its core's L1 (R252). -/
theorem State.l1Load_frame (s : State) (c : CoreId) (ctx ea k n : Nat) : ∃ cs, (s.l1Load c ctx ea k n).1 = { s with cores := cs } := by
  have hfill : ∃ cs, (if ((s.core c).l1d.find? fun y => y.ctx == ctx && y.vsec == ea / 16).isSome then s else s.fillLine c ctx ea k)
      = { s with cores := cs } := by
    split_ifs
    · exact ⟨_, rfl⟩
    · exact ⟨_, rfl⟩
  obtain ⟨cs, h⟩ := hfill
  refine ⟨cs, ?_⟩
  rw [State.l1Load, ← h]
  dsimp only
  split <;> rfl

theorem State.loadLane_frame (s : State) (a : Access) (l : LaneAccess) : ∃ cs, (s.loadLane a l).1 = { s with cores := cs } := by
  rw [State.loadLane]
  split
  · exact ⟨_, rfl⟩
  · split_ifs
    · exact s.l1Load_frame ..
    · exact ⟨_, rfl⟩

theorem State.loadLane_lane (s : State) (a : Access) (l : LaneAccess) : (s.loadLane a l).2.lane = l.lane := by
  rw [State.loadLane]
  split
  · rfl
  · split_ifs <;> rfl

/-- Outside `.g` in HBM a lane reads what its place holds. -/
theorem State.loadLane_of_not_hbm (s : State) {a : Access} {l : LaneAccess} (hp : l.pa ≠ none) (h : a.space ≠ .g ∨ isHbm l.key = false) :
    (s.loadLane a l).2 = ⟨l.lane, (s.readAt l.key a.size).1, (s.readAt l.key a.size).2⟩ := by
  obtain ⟨k, hk⟩ := Option.ne_none_iff_exists'.mp hp
  have hkey : l.key = k := by rw [LaneAccess.key, hk, Option.getD_some]
  have hcond : ¬ ((a.space = .g && isHbm k) = true) := by rw [hkey] at h; simpa [imp_iff_not_or] using h
  simp only [State.loadLane, hk, hkey, if_neg hcond]

theorem State.loadLanes_frame (ls : List LaneAccess) (s : State) (a : Access) : ∃ cs, (s.loadLanes a ls).1 = { s with cores := cs } := by
  induction ls generalizing s a with
  | nil => exact ⟨_, rfl⟩
  | cons l ls ih =>
    rw [State.loadLanes]
    cases a.known l with
    | some v => exact ih ..
    | none =>
      obtain ⟨cs, h⟩ := s.loadLane_frame a l
      obtain ⟨cs', h'⟩ := ih (s.loadLane a l).1 { a with got := (s.loadLane a l).2 :: a.got }
      exact ⟨cs', by dsimp only; rw [h', h]⟩

/-- The only lane of a load reads for itself. -/
theorem State.loadLanes_single (s : State) {a : Access} {l : LaneAccess} (h : a.lanes = [l]) :
    s.loadLanes a [l] = ((s.loadLane a l).1, [(s.loadLane a l).2]) := by
  have hknown : a.known l = none := by simp [Access.known, h]
  simp only [State.loadLanes, hknown]

/-! ## Delivery -/

theorem Gang.writeA_mode (x : Gang) (code : Nat) (m : Word) (f : Nat → Val) : (x.writeA code m f).mode = x.mode := by
  unfold Gang.writeA
  split
  · split
    · rfl
    · split <;> rfl
  · split <;> rfl

/-- A register reads the same in two modes that name one bank (R202). -/
theorem Gang.readA_withMode (x : Gang) {m : Mode} (code n : Nat) (h : (m != .user) = (x.mode != .user)) :
    Gang.readA { x with mode := m } code n = x.readA code n := by
  have hb : Gang.banked { x with mode := m } code = x.banked code := by simp only [Gang.banked, h]
  simp only [Gang.readA, hb]

theorem laneMask_single : ∀ l, l < 32 → (laneMask [l]).getLsbD l = true ∧ lowestLane (laneMask [l]) = some l := by decide

/-- A value delivered to one lane reads back there in the bank that it was issued in (R55, R56, R202). -/
theorem State.readA_writeBank_single (s : State) (g : GangId) {sup : Bool} (d : Nat) {l : Nat} (f : Nat → Val) (hl : l < 32)
    (hsup : sup = ((s.gang g).mode != .user)) : ((s.writeBank g sup d (laneMask [l]) f).gang g).readA d l = f l := by
  have hbank : ((s.gang g).mode != .user) = ((if sup then Mode.supervisor else .user) != .user) := by
    rw [← hsup]; cases sup <;> rfl
  obtain ⟨hbit, hlow⟩ := laneMask_single l hl
  rw [State.writeBank, State.gang_modGang, Gang.readA_withMode _ _ _ (by rw [Gang.writeA_mode, hbank])]
  by_cases hd : 48 ≤ d
  · rw [Gang.readA_writeA_uniform _ _ _ hd hlow]
  · rw [Gang.readA_writeA _ _ _ (by omega) hl, if_pos hbit]

theorem State.writeBank_frame (s : State) (g : GangId) (sup : Bool) (d : Nat) (m : Word) (f : Nat → Val) :
    ∃ gs, s.writeBank g sup d m f = { s with gangs := gs } := ⟨_, rfl⟩

/-- A load delivered to a register leaves flight, and changes its gang alone beside. -/
theorem State.deliverLoad_reg_frame (s : State) {a : Access} {d : Nat} (h : a.dest = .reg d) :
    ∃ gs, s.deliverLoad a = { s with flight := s.flight.filter (fun f => f.id != a.id), gangs := gs } := by
  rw [State.deliverLoad, h]
  dsimp only
  split_ifs <;> exact ⟨_, rfl⟩

/-- The value that a load of one lane delivers to a register of up to 64 bits. -/
theorem State.deliverLoad_readA (s : State) {a : Access} {d : Nat} {v : LaneVal} (hdest : a.dest = .reg d) (hsize : a.size ≠ 16)
    (hgot : a.got = [v]) (hl : v.lane < 32) (hsup : a.sup = ((s.gang a.gang).mode != .user)) :
    ((s.deliverLoad a).gang a.gang).readA d v.lane = ⟨extLoad a.op v.val, v.poison⟩ := by
  have hat : a.gotAt v.lane = v := by simp [Access.gotAt, hgot]
  rw [State.deliverLoad, hdest]
  dsimp only
  rw [if_neg hsize, hgot, List.map_singleton, State.readA_writeBank_single (s.dropFlight a) _ _ _ hl hsup, hat]

/-- The old value that an atomic of one lane delivers to a register. -/
theorem State.deliverOld_readA (s : State) {a : Access} {d : Nat} {v : LaneVal} (hdest : a.dest = .reg d)
    (hgot : a.got = [v]) (hl : v.lane < 32) (hsup : a.sup = ((s.gang a.gang).mode != .user)) :
    ((s.deliverOld a).gang a.gang).readA d v.lane = ⟨extendResult .A a.ty (BitVec.ofNat 64 v.val), v.poison⟩ := by
  have hat : a.gotAt v.lane = v := by simp [Access.gotAt, hgot]
  rw [State.deliverOld, hdest]
  dsimp only
  rw [hgot, List.map_singleton, State.readA_writeBank_single (s.dropFlight a) _ _ _ hl hsup, hat]

theorem State.deliverOld_frame (s : State) (a : Access) :
    ∃ gs, s.deliverOld a = { s with flight := s.flight.filter (fun f => f.id != a.id), gangs := gs } := by
  rw [State.deliverOld]
  split <;> exact ⟨_, rfl⟩

/-! ## One lane performed -/

/-- Whatever the implementation chooses, the only lane of an access is performed. -/
theorem State.together_single (s : State) {a : Access} {l : LaneAccess} (h : a.lanes = [l]) : s.together a = [l] := by
  rw [State.together, h]
  split
  · rfl
  · next m hm =>
    obtain rfl : l = m := by
      obtain ⟨hi, hget⟩ := List.getElem?_eq_some_iff.mp hm
      simpa using hget
    split_ifs <;> simp

theorem Access.done_single {a : Access} {l : LaneAccess} (h : a.lanes = [l]) (vs : List LaneVal) :
    a.done [l] vs = { a with lanes := [], got := a.got ++ vs } := by
  simp [Access.done, h]

section Single

variable {s : State} {a : Access} {l : LaneAccess} (hlanes : a.lanes = [l]) (hfree : s.freeToGo a = true)
  (hplace : s.placeWaits l.key a.size = false)
include hlanes hfree hplace

theorem State.performs_single : ¬ ((!s.freeToGo a || s.lanesWait a (s.together a)) = true) := by
  simp [hfree, s.together_single hlanes, State.lanesWait, hplace]

theorem State.performLoad_single (hgot : a.got = []) : s.performLoad a =
    let r : State := { s with clock := s.clock + 1 }
    (r.loadLane a l).1.deliverLoad { a with lanes := [], got := [(r.loadLane a l).2] } := by
  have hne : ¬ (a.lanes.isEmpty = true) := by simp [hlanes]
  rw [State.performLoad, if_neg hne]
  dsimp only
  rw [if_neg (State.performs_single hlanes hfree hplace), s.together_single hlanes, State.loadLanes_single _ hlanes]
  dsimp only
  rw [Access.done_single hlanes, hgot]
  rfl

end Single

theorem State.performLoad_of_held {s : State} {a : Access} (hne : a.lanes ≠ []) (h : s.freeToGo a = false) : s.performLoad a = s := by
  have hempty : ¬ (a.lanes.isEmpty = true) := by simpa using hne
  rw [State.performLoad, if_neg hempty]
  exact if_pos (by simp [h])

theorem State.performWrite_of_held {s : State} {a : Access} (h : s.freeToGo a = false) : s.performWrite a = s :=
  if_pos (by simp [h])

end Sys2Proof.Machine
end


section
/-! SUPPORT. What a write at its home leaves as it is (R217), and stores and atomics of one lane performed. -/

namespace Sys2Proof.Machine

/-! ## A part of an entry, of a table changed throughout -/

/-- A part of every entry that a change of the whole table maps by one function, which keeps the default's part. -/
theorem tget_map_part {K V P : Type} [DecidableEq K] (π : V → P) (f : V → V) (φ : P → P) (hf : ∀ v, π (f v) = φ (π v)) (k : K) (d : V)
    (hd : φ (π d) = π d) (t : Table K V) : π (tget k d (t.map fun e => (e.1, f e.2))) = φ (π (tget k d t)) := by
  induction t with
  | nil => exact hd.symm
  | cons e t ih =>
    by_cases hk : e.1 = k
    · simp [tget, hk, hf]
    · simpa [tget, hk] using ih

/-! ## What a write sets off -/

theorem Gang.select_mode (x : Gang) : x.select.mode = x.mode := by
  obtain ⟨_, _, _, _, _, _, _, hs, -⟩ := x.select_frame
  rw [hs]

theorem Gang.hitMonitor_mode (x : Gang) (e : Nat) (m : Monitor) : (x.hitMonitor e m).mode = x.mode := by
  rw [Gang.hitMonitor]
  split_ifs
  · rw [Gang.select_mode]; rfl
  · rfl

theorem Gang.triggerMonitor_mode (lo hi : Nat) (ms : List (Nat × Monitor)) (x : Gang) : (x.triggerMonitor lo hi ms).mode = x.mode := by
  induction ms generalizing x with
  | nil => rfl
  | cons p ms ih =>
    rw [Gang.triggerMonitor, ih]
    split_ifs
    · exact x.hitMonitor_mode ..
    · rfl

theorem State.fireArmed_frame (k n : Nat) (d : DieId) (os : List CopyOp) (s : State) : ∃ ds, s.fireArmed k n d os = { s with dies := ds } := by
  induction os generalizing s with
  | nil => exact ⟨_, rfl⟩
  | cons o os ih =>
    rw [State.fireArmed]
    split_ifs
    · split
      · obtain ⟨ds, h⟩ := ih (s.modDie d _)
        exact ⟨ds, h⟩
      · exact ih s
    · exact ih s

theorem State.fireTriggers_frame (k n : Nat) (xs : List (DieId × Die)) (s : State) : ∃ ds, s.fireTriggers k n xs = { s with dies := ds } := by
  induction xs generalizing s with
  | nil => exact ⟨_, rfl⟩
  | cons p xs ih =>
    rw [State.fireTriggers]
    split_ifs
    · exact ih s
    · obtain ⟨ds, h⟩ := State.fireArmed_frame k n p.1 p.2.armed s
      obtain ⟨ds', h'⟩ := ih (s.fireArmed k n p.1 p.2.armed)
      exact ⟨ds', by rw [h', h]⟩

/-- No access in flight, no full bit and no mode of a gang has changed. -/
def State.KeepsFlight (s t : State) : Prop := t.flight = s.flight ∧ t.full = s.full ∧ ∀ g, (t.gang g).mode = (s.gang g).mode

theorem State.KeepsFlight.trans {s t u : State} (h : s.KeepsFlight t) (h' : t.KeepsFlight u) : s.KeepsFlight u := by
  obtain ⟨hflight, hfull, hmode⟩ := h
  obtain ⟨hflight', hfull', hmode'⟩ := h'
  exact ⟨hflight'.trans hflight, hfull'.trans hfull, fun g => (hmode' g).trans (hmode g)⟩

theorem State.keepsFlight_triggerMonitors (s : State) (k n : Nat) : s.KeepsFlight (s.triggerMonitors k n) :=
  ⟨rfl, rfl, fun g => tget_map_part Gang.mode (fun x => if x.monitors.isEmpty then x else x.triggerMonitor (k / 64) ((k + n - 1) / 64) x.monitors) id
    (fun x => by split_ifs; exacts [rfl, x.triggerMonitor_mode ..]) g {} rfl s.gangs⟩

theorem State.keepsFlight_fireTriggers (s : State) (k n : Nat) (xs : List (DieId × Die)) : s.KeepsFlight (s.fireTriggers k n xs) := by
  obtain ⟨ds, h⟩ := State.fireTriggers_frame k n xs s
  rw [h]; exact ⟨rfl, rfl, fun _ => rfl⟩

theorem State.keepsFlight_meetCwaits (s : State) (k n : Nat) : s.KeepsFlight (s.meetCwaits k n) :=
  ⟨rfl, rfl, fun g => tget_map_part Gang.mode (fun x => { x with wait := s.metWait k n x.wait }) id (fun _ => rfl) g {} rfl s.gangs⟩

/-- What a write at its home sets off reaches neither flight nor the full bits nor a gang's mode. -/
theorem State.keepsFlight_writeHome (s : State) (k : Nat) (bs : List Byte) (p : Bool) : s.KeepsFlight (s.writeHome k bs p) := by
  have hraw : s.KeepsFlight (s.rawWrite k bs p) := ⟨rfl, rfl, fun _ => rfl⟩
  have hset := ((hraw.trans (State.keepsFlight_triggerMonitors _ k bs.length)).trans (State.keepsFlight_fireTriggers _ k bs.length
    ((s.rawWrite k bs p).triggerMonitors k bs.length).dies)).trans (State.keepsFlight_meetCwaits _ k bs.length)
  simp only [State.writeHome]
  split
  · exact hraw
  · split
    · exact hset.trans ⟨rfl, rfl, fun _ => rfl⟩
    · exact hset

/-- What a gang waits for after a write, by what it waited for. -/
theorem State.meetCwaits_wait (s : State) (k n : Nat) (g : GangId) : ((s.meetCwaits k n).gang g).wait = s.metWait k n (s.gang g).wait :=
  tget_map_part Gang.wait (fun x => { x with wait := s.metWait k n x.wait }) (s.metWait k n) (fun _ => rfl) g {} rfl s.gangs

/-! ## HBM -/

theorem isHbm_iff {k : Nat} : isHbm k = true ↔ keyRegion k = 0 ∧ keyPa k < hbmSize := by simp [isHbm]

theorem paKind_of_isHbm {k : Nat} (h : isHbm k = true) : paKind (keyPa k) = .hbm := if_pos (isHbm_iff.mp h).2

theorem State.readAt_hbm (s : State) {k : Nat} (n : Nat) (h : isHbm k = true) : s.readAt k n = (s.readNum k n, s.markedAt k n) := by
  have hregion := (isHbm_iff.mp h).1
  rw [State.readAt, if_neg (by omega), if_pos hregion, paKind_of_isHbm h]

theorem State.storeBy_hbm (s : State) (sup : Bool) {k : Nat} (bs : List Byte) (p : Bool) (h : isHbm k = true) :
    s.storeBy sup k bs p = s.writeHome k bs p := by
  have huser : noUserPage k = false := by simp [noUserPage, paKind_of_isHbm h]
  rw [State.storeBy, huser, Bool.and_false, if_neg Bool.false_ne_true, State.storeAt_eq_writeHome _ _ _ _ (.inl h)]

/-- A number is read from memory alone. -/
theorem State.readNum_of_mem {s t : State} (h : t.mem = s.mem) (k n : Nat) : t.readNum k n = s.readNum k n := by
  have hbytes : ∀ n k, t.readBytes k n = s.readBytes k n := by
    intro n
    induction n with
    | zero => exact fun _ => rfl
    | succ n ih => exact fun k => by simp only [State.readBytes, State.readByte, h, ih]
  rw [State.readNum, hbytes, State.readNum]

theorem State.readAt_clock (s : State) (c k n : Nat) : State.readAt { s with clock := c } k n = s.readAt k n := by
  rw [State.readAt, State.readNum_of_mem (s := s) (t := { s with clock := c }) rfl]
  rfl

theorem State.readNum_lt (s : State) (k n : Nat) : s.readNum k n < 2 ^ (8 * n) := by
  induction n generalizing k with
  | zero => exact Nat.one_pos
  | succ n ih =>
    have hb : (s.readByte k).toNat < 256 := (s.readByte k).isLt
    have hrest := ih (k + 1)
    simp only [State.readNum, State.readBytes, numOf] at hrest ⊢
    rw [Nat.mul_succ, Nat.pow_add]
    omega

/-! ## A store of one lane -/

/-- A lane of a store to HBM is a write at its home; that of `st.fe` sets its granule full beside. -/
theorem State.performStore_hbm (s : State) (a : Access) {l : LaneAccess} (h : isHbm l.key = true) :
    ∃ fs, s.performStore a l = { s.writeHome l.key (bytesOfNum l.data a.size) false with full := fs }
      ∧ (a.kind = .storeFe → l.key / 16 ∈ fs) := by
  rw [State.performStore, State.storeBy_hbm _ _ _ _ h]
  generalize s.writeHome l.key (bytesOfNum l.data a.size) false = t
  dsimp only
  split_ifs with hfe
  · exact ⟨_, rfl, fun _ => List.mem_cons_self⟩
  · exact ⟨_, rfl, fun hk => by simpa [hk] using hfe⟩

theorem State.performWrite_store_single {s : State} {a : Access} {l : LaneAccess} (hlanes : a.lanes = [l]) (hfree : s.freeToGo a = true)
    (hplace : s.placeWaits l.key a.size = false) (hkind : a.kind = .store ∨ a.kind = .storeFe) :
    s.performWrite a = (({ s with clock := s.clock + 1 } : State).performStore a l).dropFlight a := by
  have hatomic : a.kind ≠ .atomic := by rcases hkind with h | h <;> simp [h]
  rw [State.performWrite]
  dsimp only
  rw [if_neg (State.performs_single hlanes hfree hplace), if_neg hatomic, s.together_single hlanes, Access.done_single hlanes]
  rfl

/-! ## An atomic of one lane -/

theorem State.atomicAt_hbm (s : State) {k : Nat} (n : Nat) (t : Ty) (op data cmp : Nat) (p : Bool) (h : isHbm k = true) :
    (s.atomicAt k n t op data cmp p).2 = (s.readNum k n, s.markedAt k n) ∧ s.KeepsFlight (s.atomicAt k n t op data cmp p).1
      ∧ (s.Inv → (s.atomicAt k n t op data cmp p).1.readNum k n
        = (atomicNew t op (s.readNum k n) data cmp).getD (s.readNum k n) % 2 ^ (8 * n)) := by
  have hhome : ¬ ((keyRegion k = 4 || (keyRegion k = 0 && !isHbm k)) = true) := by simp [h, (isHbm_iff.mp h).1]
  rw [State.atomicAt, State.readAt_hbm s n h]
  dsimp only
  rw [if_neg hhome]
  cases hnew : atomicNew t op (s.readNum k n) data cmp with
  | none => exact ⟨rfl, ⟨rfl, rfl, fun _ => rfl⟩, fun _ => (Nat.mod_eq_of_lt (s.readNum_lt k n)).symm⟩
  | some v => exact ⟨rfl, s.keepsFlight_writeHome .., fun hs => s.writeHome_readNum k v n _ hs⟩

/-- A lane of an atomic in HBM returns what its place held, with its mark, and leaves the new value there. -/
theorem State.performAtomics_hbm (s : State) (a : Access) {l : LaneAccess} (h : isHbm l.key = true) :
    (s.performAtomics a [l]).2 = [⟨l.lane, s.readNum l.key a.size, s.markedAt l.key a.size⟩] ∧ s.KeepsFlight (s.performAtomics a [l]).1
      ∧ (s.Inv → (s.performAtomics a [l]).1.readNum l.key a.size
        = (atomicNew a.ty a.op (s.readNum l.key a.size) l.data l.cmp).getD (s.readNum l.key a.size) % 2 ^ (8 * a.size)) := by
  obtain ⟨c, hc, hmem, hmarked, hkeeps⟩ : ∃ c : State, (if a.space = .g then
      s.modCore a.gang.coreId fun x => { x with l1d := x.l1d.filter fun y => y.psec / 4 != l.key / 64 } else s) = c
      ∧ c.mem = s.mem ∧ c.markedAt l.key a.size = s.markedAt l.key a.size ∧ s.KeepsFlight c := by
    split_ifs <;> exact ⟨_, rfl, rfl, rfl, rfl, rfl, fun _ => rfl⟩
  obtain ⟨hold, hkept, hnew⟩ := c.atomicAt_hbm a.size a.ty a.op l.data l.cmp false h
  rw [State.readNum_of_mem hmem, hmarked] at hold
  rw [State.readNum_of_mem hmem] at hnew
  have hval : s.performAtomics a [l] = ((c.atomicAt l.key a.size a.ty a.op l.data l.cmp false).1,
      [⟨l.lane, s.readNum l.key a.size, s.markedAt l.key a.size⟩]) := by
    rw [State.performAtomics, hc]
    dsimp only [State.performAtomics]
    rw [congrArg Prod.fst hold, congrArg Prod.snd hold]
  rw [hval]
  exact ⟨rfl, hkeeps.trans hkept, fun hs => hnew (by rwa [State.Inv, hmem])⟩

theorem State.performWrite_atomic_single {s : State} {a : Access} {l : LaneAccess} (hlanes : a.lanes = [l]) (hfree : s.freeToGo a = true)
    (hplace : s.placeWaits l.key a.size = false) (hkind : a.kind = .atomic) (hgot : a.got = []) :
    s.performWrite a =
      let r : State := { s with clock := s.clock + 1 }
      (r.performAtomics a [l]).1.deliverOld { a with lanes := [], got := (r.performAtomics a [l]).2 } := by
  rw [State.performWrite]
  dsimp only
  rw [if_neg (State.performs_single hlanes hfree hplace), if_pos hkind, s.together_single hlanes, Access.done_single hlanes, hgot]
  rfl

end Sys2Proof.Machine
end


section
/-! SUPPORT. The other events of memory: full-empty loads served (R196), held stores sent (R106), a monitor dropped (R269), and the waits
of `acq` and `cwait` looked at again (R265, R364). -/

namespace Sys2Proof.Machine

/-! ## Full-empty loads (R195, R196) -/

theorem State.feReady_of_empty {s : State} {a : Access} (h : ∃ l ∈ a.lanes, l.key / 16 ∉ s.full) : s.feReady a = false := by
  obtain ⟨l, hl, hfull⟩ := h
  rw [State.feReady, List.all_eq_false]
  exact ⟨l, hl, by simp [hfull]⟩

theorem State.serveFe_of_waits {s : State} {a : Access} (hne : a.lanes ≠ [])
    (h : s.feReady a = false ∨ (s.gang a.gang).preempted = true) : s.serveFe a = s := by
  have hempty : ¬ (a.lanes.isEmpty = true) := by simpa using hne
  rw [State.serveFe, if_neg hempty, if_pos]
  rcases h with h | h <;> simp [h]

/-- A full-empty load that is served leaves flight; the clearing one empties its granules (R195). -/
theorem State.serveFe_reg {s : State} {a : Access} {d : Nat} (hne : a.lanes ≠ []) (hdest : a.dest = .reg d) (hfree : s.freeToGo a = true)
    (hready : s.feReady a = true) (hrun : (s.gang a.gang).preempted = false) :
    (s.serveFe a).mem = s.mem ∧ (s.serveFe a).flight = s.flight.filter (fun f => f.id != a.id)
      ∧ ∀ k, k ∈ (s.serveFe a).full ↔ k ∈ s.full ∧ (a.kind = .loadFec → ∀ l ∈ a.lanes, l.key / 16 ≠ k) := by
  have hempty : ¬ (a.lanes.isEmpty = true) := by simpa using hne
  have hgo : ¬ ((!s.freeToGo a || !s.feReady a || (s.gang a.gang).preempted) = true) := by simp [hfree, hready, hrun]
  obtain ⟨cs, hread⟩ := State.loadLanes_frame a.lanes s a
  rw [State.serveFe, if_neg hempty, if_neg hgo]
  dsimp only
  rw [hread]
  have hdeliver (t : State) := t.deliverLoad_reg_frame (a := a.done a.lanes (s.loadLanes a a.lanes).2) hdest
  split_ifs with hclear
  · obtain ⟨gs, h⟩ := hdeliver { s with
      cores := cs, full := s.full.filter fun g => !a.lanes.any fun l => l.key / 16 == g }
    rw [h]
    exact ⟨rfl, rfl, fun k => by simp [hclear, List.mem_filter]⟩
  · obtain ⟨gs, h⟩ := hdeliver { s with cores := cs }
    rw [h]
    exact ⟨rfl, rfl, fun k => by simp [hclear]⟩

/-! ## The store hold (R106, R253) -/

theorem heldReady_head {x : Gang} {a : Access} {q : Nat} (rest : List Access) (hq : a.waitsOn = some q)
    (hes : ((tget q [] x.sq).take (heldEntries a)).length = heldEntries a) : heldReady x [] (a :: rest) = some (a, q) := by
  have hle : heldEntries a ≤ (tget q [] x.sq).length := by
    rw [List.length_take] at hes; omega
  simp [heldReady, hq, hle]

theorem exec_storeHoldDataArrival_head {s : State} {g : GangId} {a : Access} {q : Nat} {rest : List Access}
    (hrun : (s.gang g).preempted = false) (hhold : (s.gang g).hold = a :: rest) (hq : a.waitsOn = some q)
    (hes : ((tget q [] (s.gang g).sq).take (heldEntries a)).length = heldEntries a) :
    exec (.storeHoldDataArrival g) s = .next (s.sendHeld g a q) := by
  show execStoreHoldDataArrival g s = _
  rw [execStoreHoldDataArrival, if_neg (by simp [hrun]), hhold, heldReady_head rest hq hes]

/-- Steps that change the cores alone change the cores alone one after another. -/
theorem State.foldl_cores {α : Type} (f : State → α → State) (hf : ∀ s x, ∃ cs, f s x = { s with cores := cs }) (xs : List α) (s : State) :
    ∃ cs, xs.foldl f s = { s with cores := cs } := by
  induction xs generalizing s with
  | nil => exact ⟨_, rfl⟩
  | cons x xs ih =>
    obtain ⟨cs, h⟩ := hf s x
    obtain ⟨cs', h'⟩ := ih (f s x)
    exact ⟨cs', by rw [List.foldl_cons, h', h]⟩

/-- An access that is sent is the last in flight; its core's L1 alone may change beside. -/
theorem State.sendAccess_frame (s : State) (a : Access) : ∃ cs, s.sendAccess a = { s with cores := cs, flight := s.flight ++ [a] } := by
  rw [State.sendAccess]
  split_ifs
  · generalize ht : List.foldl _ s a.lanes = t
    obtain ⟨cs, rfl⟩ : ∃ cs, t = { s with cores := cs } := by
      rw [← ht]
      exact State.foldl_cores _ (fun _ _ => by split <;> exact ⟨_, rfl⟩) _ _
    exact ⟨cs, rfl⟩
  · exact ⟨_, rfl⟩

/-- A marked word is consumed as store data: outside a region that is a trap of cause 10 (R130, R255). -/
theorem State.sendHeld_marked {s : State} {g : GangId} {a : Access} {q : Nat}
    (hmark : ∃ e ∈ (tget q [] (s.gang g).sq).take (heldEntries a), ∃ l ∈ a.lanes, (e.word l.lane).poison = true)
    (htrap : (s.gang g).trapA = none) (hregion : (s.gang g).region = none) :
    s.sendHeld g a q = s.raiseAt (.a g) causePoison 0 0 := by
  have hany : (((tget q [] (s.gang g).sq).take (heldEntries a)).any fun e => a.lanes.any fun l => (e.word l.lane).poison) = true := by
    simpa using hmark
  rw [State.sendHeld]
  dsimp only
  rw [if_pos hany, htrap, if_neg (by simp), State.consumePoison]
  dsimp only
  rw [hregion]

/-- A gang whose store has left the hold with its entries. -/
def Gang.dropHeld (x : Gang) (a : Access) (q : Nat) : Gang :=
  { x with sq := tset q ((tget q [] x.sq).drop (heldEntries a)) x.sq, hold := x.hold.filter fun h => h.id != a.id }

/-- A held store with its data. -/
def Access.filled (a : Access) (es : List QEntry) : Access :=
  { a with waitsOn := none, lanes := a.lanes.map fun l => { l with data := entryData es l.lane a.size } }

/-- A held store that its data has reached, with every place known and no fabric access in its way, is sent. -/
theorem State.sendHeld_sent {s : State} {g : GangId} {a : Access} {q : Nat}
    (hclean : ∀ e ∈ (tget q [] (s.gang g).sq).take (heldEntries a), ∀ l ∈ a.lanes, (e.word l.lane).poison = false)
    (hglitch : s.glitch = 0) (hplaced : a.placeless = false) (hown : s.meetsOwn a = false) (hne : a.lanes ≠ []) :
    s.sendHeld g a q = (s.setGang g ((s.gang g).dropHeld a q)).sendAccess (a.filled ((tget q [] (s.gang g).sq).take (heldEntries a))) := by
  have hmarked : ¬ ((((tget q [] (s.gang g).sq).take (heldEntries a)).any fun e => a.lanes.any fun l => (e.word l.lane).poison) = true) := by
    simpa using hclean
  have hempty : ¬ (a.lanes.isEmpty = true) := by simpa using hne
  have hmany : ¬ s.glitch ≥ 2 := by omega
  have hone : ¬ s.glitch = 1 := by omega
  rw [State.sendHeld]
  dsimp only
  rw [if_neg hmarked, if_neg hmany, hplaced, if_neg Bool.false_ne_true, if_neg (by simp [hplaced, hown]), if_neg hempty, if_neg hone]
  rfl

/-! ## Monitors (R118, R269) -/

/-- An entry that is ready stays ready or begins to run, and what has woken it stays (R113, R118). -/
theorem Gang.select_frag_of_ready {x : Gang} {e : Nat} (h : (x.frag e).state = .ready) :
    (x.select.frag e).woken = (x.frag e).woken ∧ (x.select.frag e).state ≠ .parked := by
  have hkept : (x.frag e).state ≠ .parked := by simp [h]
  unfold Gang.select
  split
  · exact ⟨rfl, hkept⟩
  · split
    · exact ⟨rfl, hkept⟩
    · rename_i d _
      have hfrag (f : Frag) (hw : f.woken = (x.frag d).woken) (hs : f.state ≠ .parked) :
          ((x.setFrag d f).frag e).woken = (x.frag e).woken ∧ ((x.setFrag d f).frag e).state ≠ .parked := by
        by_cases hde : e = d
        · rw [hde, Gang.frag_setFrag]; exact ⟨hw, hs⟩
        · rw [Gang.frag_setFrag_other _ _ hde]; exact ⟨rfl, hkept⟩
      dsimp only
      split
      · rw [Gang.pushDq_frag]; exact hfrag _ rfl (by simp)
      · rw [Gang.pushDq_frag, Gang.pushDq_frag]; exact hfrag _ rfl (by simp)

theorem Gang.hitMonitor_monitor (x : Gang) (e : Nat) (m : Monitor) :
    tfind e (x.hitMonitor e m).monitors = some { m with hit := true } := by
  rw [Gang.hitMonitor]
  split_ifs
  · rw [Gang.select_monitors]; exact tfind_tset_same ..
  · exact tfind_tset_same ..

/-- A parked fragment whose monitor is triggered wakes. -/
theorem Gang.hitMonitor_wakes (x : Gang) {e : Nat} (m : Monitor) (h : (x.frag e).state = .parked) :
    ((x.hitMonitor e m).frag e).woken = true ∧ ((x.hitMonitor e m).frag e).state ≠ .parked := by
  have hval : x.hitMonitor e m = (Gang.makeReady { x with monitors := tset e { m with hit := true } x.monitors } e
      { x.frag e with woken := true }).select := if_pos h
  rw [hval]
  obtain ⟨hwoken, hstate⟩ := Gang.select_frag_of_ready (x := Gang.makeReady { x with monitors := tset e { m with hit := true } x.monitors } e
    { x.frag e with woken := true }) (e := e) (by rw [Gang.frag_makeReady])
  exact ⟨hwoken.trans (by rw [Gang.frag_makeReady]), hstate⟩

/-! ## Waits (R265, R364) -/

theorem State.waitOf_setWait (s : State) {u : UnitId} (w : Option Wait) (h : ∀ g, u ≠ .c g) : (s.setWait u w).waitOf u = w := by
  cases u with
  | a g => simp [State.setWait, State.waitOf]
  | c g => exact absurd rfl (h g)
  | m c => simp [State.setWait, State.waitOf]

theorem State.setWait_mem (s : State) (u : UnitId) (w : Option Wait) : (s.setWait u w).mem = s.mem := by cases u <;> rfl

theorem State.setWait_pc (s : State) (u : UnitId) (w : Option Wait) : (s.setWait u w).pc u = s.pc u := by
  cases u <;> simp [State.setWait, State.pc]

theorem State.not_c_of_waitOf {s : State} {u : UnitId} {w : Wait} (h : s.waitOf u = some w) : ∀ g, u ≠ .c g := by
  rintro g rfl
  cases h

/-- An instruction that retires waits for nothing any more, and the program counter moves past it. -/
theorem State.retire_ends (s : State) (u : UnitId) : (s.retire u).waitOf u = none ∧ (s.retire u).pc u = s.pc u + 4
    ∧ (s.retire u).mem = s.mem := by
  cases u with
  | a g => simp [State.retire, State.setWait, State.setPc, State.waitOf, State.pc]
  | c g => simp [State.retire, State.setWait, State.setPc, State.waitOf, State.pc]
  | m c => simp [State.retire, State.setWait, State.setPc, State.waitOf, State.pc]

theorem State.acquire_mem (s : State) (u : UnitId) (h : DWord) : (s.acquire u h).mem = s.mem := by cases u <;> rfl
theorem State.dropWord_mem (s : State) (u : UnitId) (k : Nat) : (s.dropWord u k).mem = s.mem := by cases u <;> rfl

/-- A free lock in HBM is taken. -/
theorem State.tryAcquire_free {s : State} {u : UnitId} {k va : Nat} {h : DWord} (hs : s.Inv) (hk : isHbm k = true)
    (hmark : s.markedAt k 8 = false) (hfree : s.readNum k 8 = 0) :
    (s.tryAcquire u k va h).readNum k 8 = 1 ∧ (s.tryAcquire u k va h).waitOf u = none := by
  have hval : s.tryAcquire u k va h = (((s.writeHome k (bytesOfNum 1 8) false).dropWord u k).acquire u h).retire u := by
    rw [State.tryAcquire, s.readAt_hbm 8 hk]
    simp only [hmark, hfree, hk, if_true, if_false, Bool.false_eq_true]
  obtain ⟨hwait, -, hmem⟩ := State.retire_ends (((s.writeHome k (bytesOfNum 1 8) false).dropWord u k).acquire u h) u
  rw [hval]
  refine ⟨?_, hwait⟩
  rw [State.readNum_of_mem (hmem.trans ((State.acquire_mem ..).trans (State.dropWord_mem ..))), State.writeHome_readNum _ _ _ _ _ hs]
  rfl

/-- A lock that is held goes on being waited for. -/
theorem State.tryAcquire_held {s : State} {u : UnitId} {k va : Nat} {h : DWord} (hk : isHbm k = true)
    (hmark : s.markedAt k 8 = false) (hheld : s.readNum k 8 ≠ 0) : s.tryAcquire u k va h = s.setWait u (some (.acq k va h)) := by
  rw [State.tryAcquire, s.readAt_hbm 8 hk]
  simp only [hmark, hheld, if_false, Bool.false_eq_true]

theorem State.endCwait_ends (s : State) (u : UnitId) : (s.endCwait u).waitOf u = none ∧ (s.endCwait u).pc u = s.pc u + 4
    ∧ (s.endCwait u).mem = s.mem := by
  cases u with
  | a g => exact (s.ambientAcquire g).retire_ends _
  | c g => exact s.retire_ends _
  | m c => exact s.retire_ends _

/-- A `cwait` on an unmarked word in HBM returns where its count is met or its object has failed, and waits on otherwise. -/
theorem State.tryCwait_hbm {s : State} {u : UnitId} {k target : Nat} {h : DWord} (hk : isHbm k = true) (hplace : s.placeWaits k 8 = false)
    (hmark : s.markedAt k 8 = false) : s.tryCwait u k h target =
      if s.readNum k 8 / 2 ^ 63 % 2 = 1 ∨ countMet (s.readNum k 8) target = true then s.endCwait u
      else s.setWait u (some (.cwait k h target)) := by
  have heval : s.evalObject k = (s, s.readNum k 8) := by simp [State.evalObject, hk, hmark]
  rw [State.tryCwait, if_neg (by simp [hplace]), heval]
  simp only [Bool.or_eq_true, decide_eq_true_eq]

end Sys2Proof.Machine
end


section
/-! PROOF. `MemoryEvents` (R106, R177, R196, R217, R252, R253, R260, R265, R269, R364): one lemma for each event, and the statement
about them. -/

namespace Sys2Proof.Machine

section Found

variable {s : State} {n : Nat} {a : Access} (hf : s.flight.find? (fun x => x.id == n) = some a)
include hf

/-- An access of a restored gang looks for its places again. -/
theorem exec_placeless (hp : ∃ l ∈ a.lanes, l.pa = none) {i : Instr} (hi : i = .loadDataReturn n ∨ i = .storeAck n) :
    ∃ t, exec i s = .next t ∧ t.mem = s.mem ∧ t.gangs = s.gangs := by
  have hp := Access.placeless_iff.mpr hp
  rcases hi with rfl | rfl
  · rw [exec_loadDataReturn_found hf, if_pos hp]; exact ⟨_, rfl, rfl, rfl⟩
  · rw [exec_storeAck_found hf, if_pos hp]; exact ⟨_, rfl, rfl, rfl⟩

theorem exec_loadDataReturn_placed (hp : ∀ l ∈ a.lanes, l.pa ≠ none) (hk : a.kind = .load) :
    exec (.loadDataReturn n) s = .next (s.performLoad a) := by
  rw [exec_loadDataReturn_found hf, if_neg (by simp [Access.placed_iff.mpr hp]), if_pos hk]

theorem exec_storeAck_placed (hp : ∀ l ∈ a.lanes, l.pa ≠ none) (hk : a.kind = .store ∨ a.kind = .storeFe ∨ a.kind = .atomic) :
    exec (.storeAck n) s = .next (s.performWrite a) := by
  rw [exec_storeAck_found hf, if_neg (by simp [Access.placed_iff.mpr hp]), if_pos hk]

/-- A load of one lane delivers what the lane reads (R252). -/
theorem exec_loadDataReturn_single {l : LaneAccess} {d : Nat} (hp : ∀ l ∈ a.lanes, l.pa ≠ none) (hk : a.kind = .load) (hlanes : a.lanes = [l])
    (hgot : a.got = []) (hl : l.lane < 32) (hdest : a.dest = .reg d) (hsize : a.size ≠ 16) (hfree : s.freeToGo a = true)
    (hplace : s.placeWaits l.key a.size = false) (hsup : a.sup = ((s.gang a.gang).mode != .user)) :
    let r : State := { s with clock := s.clock + 1 }
    ∃ t, exec (.loadDataReturn n) s = .next t ∧ t.mem = s.mem ∧ t.flight = s.flight.filter (fun x => x.id != n)
      ∧ (t.gang a.gang).readA d l.lane = ⟨extLoad a.op (r.loadLane a l).2.val, (r.loadLane a l).2.poison⟩
      ∧ (a.space ≠ .g ∨ isHbm l.key = false → (r.loadLane a l).2 = ⟨l.lane, (s.readAt l.key a.size).1, (s.readAt l.key a.size).2⟩) := by
  intro r
  obtain rfl := id_of_find hf
  obtain ⟨cs, hread⟩ := r.loadLane_frame a l
  have hlane := r.loadLane_lane a l
  obtain ⟨gs, hdeliver⟩ := State.deliverLoad_reg_frame (r.loadLane a l).1 (a := { a with lanes := [], got := [(r.loadLane a l).2] }) hdest
  refine ⟨_, by rw [exec_loadDataReturn_placed hf hp hk, State.performLoad_single hlanes hfree hplace hgot], ?_, ?_, ?_, ?_⟩
  · rw [hdeliver, hread]
  · rw [hdeliver, hread]
  · have hval := State.deliverLoad_readA (r.loadLane a l).1 (a := { a with lanes := [], got := [(r.loadLane a l).2] }) hdest hsize rfl
      (by rw [hlane]; exact hl) (by rw [hread]; exact hsup)
    rwa [hlane] at hval
  · intro hplain
    rw [r.loadLane_of_not_hbm (hp l (by simp [hlanes])) hplain, State.readAt_clock]

/-- A store of one lane leaves its bytes at its place and every other byte as it was (R217, R253). -/
theorem exec_storeAck_store {l : LaneAccess} (hp : ∀ l ∈ a.lanes, l.pa ≠ none) (hk : a.kind = .store ∨ a.kind = .storeFe) (hs : s.Inv)
    (hlanes : a.lanes = [l]) (hfree : s.freeToGo a = true) (hplace : s.placeWaits l.key a.size = false) (hhbm : isHbm l.key = true) :
    ∃ t, exec (.storeAck n) s = .next t ∧ t.flight = s.flight.filter (fun x => x.id != n) ∧ t.readNum l.key a.size = l.data % 2 ^ (8 * a.size)
      ∧ (a.kind = .storeFe → l.key / 16 ∈ t.full) ∧ ∀ j, (j < l.key ∨ l.key + a.size ≤ j) → t.readByte j = s.readByte j := by
  obtain rfl := id_of_find hf
  let r : State := { s with clock := s.clock + 1 }
  obtain ⟨fs, hstore, hfull⟩ := r.performStore_hbm a hhbm
  obtain ⟨hflight, -, -⟩ := r.keepsFlight_writeHome l.key (bytesOfNum l.data a.size) false
  have hexec : exec (.storeAck a.id) s = .next ((r.performStore a l).dropFlight a) := by
    rw [exec_storeAck_placed hf hp (by tauto), State.performWrite_store_single hlanes hfree hplace hk]
  have hmem : ((r.performStore a l).dropFlight a).mem = (r.writeHome l.key (bytesOfNum l.data a.size) false).mem := by rw [hstore]; rfl
  refine ⟨_, hexec, ?_, ?_, fun hfe => ?_, fun j hj => ?_⟩
  · simp only [State.dropFlight, hstore, hflight, r]
  · rw [State.readNum_of_mem hmem, r.writeHome_readNum _ _ _ _ hs]
  · simpa only [State.dropFlight, hstore] using hfull hfe
  · rw [State.readByte, hmem]
    exact r.writeHome_readByte_outside _ _ _ _ hs (by rwa [bytesOfNum_length])

/-- An atomic of one lane leaves its new value at its place and delivers the old one (R259, R260). -/
theorem exec_storeAck_atomic {l : LaneAccess} (hp : ∀ l ∈ a.lanes, l.pa ≠ none) (hk : a.kind = .atomic) (hs : s.Inv) (hlanes : a.lanes = [l])
    (hgot : a.got = []) (hl : l.lane < 32) (hfree : s.freeToGo a = true) (hplace : s.placeWaits l.key a.size = false)
    (hhbm : isHbm l.key = true) (hsup : a.sup = ((s.gang a.gang).mode != .user)) :
    let old := s.readNum l.key a.size
    ∃ t, exec (.storeAck n) s = .next t ∧ t.flight = s.flight.filter (fun x => x.id != n)
      ∧ t.readNum l.key a.size = (atomicNew a.ty a.op old l.data l.cmp).getD old % 2 ^ (8 * a.size)
      ∧ ∀ d, a.dest = .reg d → (t.gang a.gang).readA d l.lane = ⟨extendResult .A a.ty (BitVec.ofNat 64 old), s.markedAt l.key a.size⟩ := by
  intro old
  obtain rfl := id_of_find hf
  let r : State := { s with clock := s.clock + 1 }
  have hnum : r.readNum l.key a.size = s.readNum l.key a.size := State.readNum_of_mem (s := s) (t := r) rfl _ _
  obtain ⟨hold, ⟨hflight, -, hmode⟩, hnew⟩ := r.performAtomics_hbm a hhbm
  rw [hnum] at hold hnew
  let b : Access := { a with lanes := [], got := [⟨l.lane, s.readNum l.key a.size, s.markedAt l.key a.size⟩] }
  have hexec : exec (.storeAck a.id) s = .next ((r.performAtomics a [l]).1.deliverOld b) := by
    rw [exec_storeAck_placed hf hp (by tauto), State.performWrite_atomic_single hlanes hfree hplace hk hgot]
    dsimp only
    rw [hold]
    rfl
  obtain ⟨gs, hdeliver⟩ := (r.performAtomics a [l]).1.deliverOld_frame b
  refine ⟨_, hexec, ?_, ?_, fun d hdest => ?_⟩
  · rw [hdeliver]
    exact congrArg (List.filter fun f => f.id != a.id) hflight
  · rw [State.readNum_of_mem (s := (r.performAtomics a [l]).1) (by rw [hdeliver]), hnew hs]
  · exact State.deliverOld_readA _ (a := b) hdest rfl hl (by rw [hmode]; exact hsup)

/-- A full-empty load waits for its granules and for a pre-empted gang's restore, and is else served (R195, R196, R212). -/
theorem exec_fullEmptyServe_cases {d : Nat} (hfe : a.feLoad = true) (hne : a.lanes ≠ []) (hdest : a.dest = .reg d) (hfree : s.freeToGo a = true) :
    ((∃ l ∈ a.lanes, l.key / 16 ∉ s.full) → exec (.fullEmptyServe n) s = .next s)
    ∧ ((s.gang a.gang).preempted = true → exec (.fullEmptyServe n) s = .next s)
    ∧ (s.feReady a = true → (s.gang a.gang).preempted = false → ∃ t, exec (.fullEmptyServe n) s = .next t ∧ t.mem = s.mem
      ∧ t.flight = s.flight.filter (fun x => x.id != n)
      ∧ ∀ k, k ∈ t.full ↔ k ∈ s.full ∧ (a.kind = .loadFec → ∀ l ∈ a.lanes, l.key / 16 ≠ k)) := by
  obtain rfl := id_of_find hf
  rw [exec_fullEmptyServe_found hf, if_pos hfe]
  refine ⟨fun h => ?_, fun h => ?_, fun hready hrun => ?_⟩
  · rw [State.serveFe_of_waits hne (.inl (State.feReady_of_empty h))]
  · rw [State.serveFe_of_waits hne (.inr h)]
  · exact ⟨_, rfl, State.serveFe_reg hne hdest hfree hready hrun⟩

end Found

/-! ## The store hold -/

section Hold

variable {s : State} {g : GangId} {a : Access} {q : Nat} {rest : List Access} (hrun : (s.gang g).preempted = false)
  (hhold : (s.gang g).hold = a :: rest) (hq : a.waitsOn = some q)
  (hes : ((tget q [] (s.gang g).sq).take (heldEntries a)).length = heldEntries a)
include hrun hhold hq hes

/-- A marked entry is consumed, and the store and its entries stay (R255). -/
theorem exec_storeHoldDataArrival_marked
    (hmark : ∃ e ∈ (tget q [] (s.gang g).sq).take (heldEntries a), ∃ l ∈ a.lanes, (e.word l.lane).poison = true)
    (htrap : (s.gang g).trapA = none) (hregion : (s.gang g).region = none) :
    ∃ t r, exec (.storeHoldDataArrival g) s = .next t ∧ t.mem = s.mem ∧ t.flight = s.flight ∧ (t.gang g).hold = (s.gang g).hold
      ∧ (t.gang g).sq = (s.gang g).sq ∧ (t.gang g).trapA = some r ∧ r.cause = 10 := by
  rw [exec_storeHoldDataArrival_head hrun hhold hq hes, State.sendHeld_marked hmark htrap hregion]
  refine ⟨_, ⟨causePoison, 0, 0, s.active (.a g), false, 4⟩, rfl, rfl, rfl, ?_, ?_, ?_, rfl⟩ <;> rw [State.raiseAt, State.raise, State.gang_modGang]

/-- A held store takes its entries, leaves the hold and is sent (R106). -/
theorem exec_storeHoldDataArrival_sent (hglitch : s.glitch = 0) (hne : a.lanes ≠ []) (hp : ∀ l ∈ a.lanes, l.pa ≠ none)
    (hown : s.meetsOwn a = false)
    (hclean : ∀ e ∈ (tget q [] (s.gang g).sq).take (heldEntries a), ∀ l ∈ a.lanes, (e.word l.lane).poison = false) :
    ∃ t b, exec (.storeHoldDataArrival g) s = .next t ∧ t.mem = s.mem ∧ t.flight = s.flight ++ [b] ∧ b.id = a.id ∧ b.waitsOn = none
      ∧ b.lanes = a.lanes.map (fun l => { l with data := entryData ((tget q [] (s.gang g).sq).take (heldEntries a)) l.lane a.size })
      ∧ tget q [] (t.gang g).sq = (tget q [] (s.gang g).sq).drop (heldEntries a) ∧ ∀ h ∈ (t.gang g).hold, h.id ≠ a.id := by
  rw [exec_storeHoldDataArrival_head hrun hhold hq hes, State.sendHeld_sent hclean hglitch (Access.placed_iff.mpr hp) hown hne]
  obtain ⟨cs, hsent⟩ := (s.setGang g ((s.gang g).dropHeld a q)).sendAccess_frame (a.filled ((tget q [] (s.gang g).sq).take (heldEntries a)))
  rw [hsent]
  have hgang := s.gang_setGang g ((s.gang g).dropHeld a q)
  refine ⟨_, a.filled ((tget q [] (s.gang g).sq).take (heldEntries a)), rfl, rfl, rfl, rfl, rfl, rfl, ?_, fun h hh => ?_⟩
  · exact (congrArg (fun x : Gang => tget q [] x.sq) hgang).trans (tget_tset_same ..)
  · have hkept : h ∈ ((s.gang g).dropHeld a q).hold := hgang ▸ hh
    simpa using (List.mem_filter.mp hkept).2

end Hold

/-! ## The rendezvous, and monitors -/

theorem exec_gsyncRendezvous_waits (s : State) (g : GangId) (h : (s.gang g).gsA = none ∨ (s.gang g).gsC = none) :
    exec (.gsyncRendezvous g) s = .next s :=
  if_pos (by rcases h with h | h <;> simp [h])

/-- Both slices retire their `gsync` together, whatever the gang has outstanding (R177). -/
theorem exec_gsyncRendezvous_both (s : State) (g : GangId) (ha : (s.gang g).gsA.isSome) (hc : (s.gang g).gsC.isSome)
    (hrun : (s.gang g).preempted = false) (hta : (s.gang g).trapA = none) (htc : (s.gang g).trapC = none) :
    exec (.gsyncRendezvous g) s = .next (s.setGang g (s.gang g).rendezvous) := by
  obtain ⟨x, hx⟩ := Option.isSome_iff_exists.mp ha
  obtain ⟨y, hy⟩ := Option.isSome_iff_exists.mp hc
  exact if_neg (by simp [hx, hy, hrun, hta, htc])

/-- A dropped monitor is triggered, which wakes a parked fragment (R118, R269). -/
theorem exec_monitorDrop_found {s : State} {g : GangId} {e : Nat} {m : Monitor} (h : tfind e (s.gang g).monitors = some m) :
    ∃ t, exec (.monitorDrop g e) s = .next t ∧ t.mem = s.mem ∧ tfind e (t.gang g).monitors = some { m with hit := true }
      ∧ (((s.gang g).frag e).state = .parked → ((t.gang g).frag e).woken = true ∧ ((t.gang g).frag e).state ≠ .parked) := by
  have hexec : exec (.monitorDrop g e) s = .next (s.modGang g fun x => x.hitMonitor e m) := by
    show execMonitorDrop g e s = _
    rw [execMonitorDrop, h]
  refine ⟨_, hexec, rfl, ?_, fun hparked => ?_⟩
  · rw [State.gang_modGang, Gang.hitMonitor_monitor]
  · rw [State.gang_modGang]; exact Gang.hitMonitor_wakes _ m hparked

/-! ## The waits of `acq` and `cwait` -/

theorem exec_acqAttempt_waits {s : State} {u : UnitId} {k va : Nat} {h : DWord} (hw : s.waitOf u = some (.acq k va h))
    (hwait : s.placeWaits k 8 = true ∨ s.stopped u = true) : exec (.acqAttempt u) s = .next s := by
  show execAcqAttempt u s = _
  rw [execAcqAttempt, hw]
  exact if_pos (by rcases hwait with h | h <;> simp [h])

/-- A waiting `acq` that nothing keeps makes its attempt (R265). -/
theorem exec_acqAttempt_tries {s : State} {u : UnitId} {k va : Nat} {h : DWord} (hw : s.waitOf u = some (.acq k va h))
    (hrun : s.stopped u = false) (hplace : s.placeWaits k 8 = false)
    (hstores : ∀ g, u = .a g → ∀ f ∈ s.flight, f.storeOf g.coreId = false) : exec (.acqAttempt u) s = .next (s.tryAcquire u k va h) := by
  show execAcqAttempt u s = _
  rw [execAcqAttempt, hw]
  refine if_neg ?_
  cases u with
  | a g =>
    have hnone : (s.flight.any fun f => f.storeOf g.coreId && f.touches k 8) = false :=
      List.any_eq_false.mpr fun f hfl => by simp [hstores g rfl f hfl]
    simp [hrun, hplace, hnone]
  | c g => simp [hrun, hplace]
  | m c => simp [hrun, hplace]

/-- A waiting `acq` takes a free lock and goes on waiting for one that is held. -/
theorem exec_acqAttempt_cases {s : State} {u : UnitId} {k va : Nat} {h : DWord} (hw : s.waitOf u = some (.acq k va h)) (hs : s.Inv)
    (hrun : s.stopped u = false) (hplace : s.placeWaits k 8 = false) (hmark : s.markedAt k 8 = false) (hk : isHbm k = true)
    (hstores : ∀ g, u = .a g → ∀ f ∈ s.flight, f.storeOf g.coreId = false) :
    ∃ t, exec (.acqAttempt u) s = .next t ∧ t.readNum k 8 = (if s.readNum k 8 = 0 then 1 else s.readNum k 8)
      ∧ t.waitOf u = (if s.readNum k 8 = 0 then none else some (.acq k va h)) := by
  refine ⟨_, exec_acqAttempt_tries hw hrun hplace hstores, ?_⟩
  by_cases hfree : s.readNum k 8 = 0
  · rw [if_pos hfree, if_pos hfree]
    exact State.tryAcquire_free hs hk hmark hfree
  · rw [if_neg hfree, if_neg hfree, State.tryAcquire_held hk hmark hfree]
    exact ⟨State.readNum_of_mem (State.setWait_mem ..) _ _, State.waitOf_setWait _ _ (State.not_c_of_waitOf hw)⟩

/-- A waiting `cwait` returns when its word is met or failed, and else goes on waiting (R364). -/
theorem exec_cwaitEvaluate_waiting {s : State} {u : UnitId} {k target : Nat} {h : DWord} (hw : s.waitOf u = some (.cwait k h target))
    (hk : isHbm k = true) (hplace : s.placeWaits k 8 = false) (hmark : s.markedAt k 8 = false) :
    ∃ t, exec (.cwaitEvaluate u) s = .next t ∧ t.mem = s.mem
      ∧ (if s.readNum k 8 / 2 ^ 63 % 2 = 1 ∨ countMet (s.readNum k 8) target = true then t.pc u = s.pc u + 4 ∧ t.waitOf u = none
          else t.pc u = s.pc u ∧ t.waitOf u = some (.cwait k h target)) := by
  have hexec : exec (.cwaitEvaluate u) s = .next (s.tryCwait u k h target) := by
    show execCwaitEvaluate u s = _
    rw [execCwaitEvaluate, hw]
  refine ⟨_, hexec, ?_⟩
  rw [State.tryCwait_hbm hk hplace hmark]
  split_ifs
  · obtain ⟨hwait, hpc, hmem⟩ := s.endCwait_ends u
    exact ⟨hmem, hpc, hwait⟩
  · exact ⟨s.setWait_mem .., s.setWait_pc .., s.waitOf_setWait _ (State.not_c_of_waitOf hw)⟩

theorem exec_cwaitEvaluate_counted {s : State} {u : UnitId} (hw : s.waitOf u = some .counted) :
    ∃ t, exec (.cwaitEvaluate u) s = .next t ∧ t.mem = s.mem ∧ t.pc u = s.pc u + 4 ∧ t.waitOf u = none := by
  have hexec : exec (.cwaitEvaluate u) s = .next (s.endCwait u) := by
    show execCwaitEvaluate u s = _
    rw [execCwaitEvaluate, hw]
  obtain ⟨hwait, hpc, hmem⟩ := s.endCwait_ends u
  exact ⟨_, hexec, hmem, hpc, hwait⟩

/-- A write that reaches the word of a waiting `cwait` ends it where the word is met or failed and reads unmarked (R364). -/
theorem State.metWait_cwait (s : State) {k n a target : Nat} {h : DWord} (hlo : a < k + n) (hhi : k < a + 8) :
    s.metWait k n (some (.cwait a h target)) =
      if s.markedAt a 8 = false ∧ (s.readNum a 8 / 2 ^ 63 % 2 = 1 ∨ countMet (s.readNum a 8) target = true) then some .counted
      else some (.cwait a h target) := by
  simp [State.metWait, hlo, hhi]

/-- Settles O53, one event after another: each is looked up by the access or the wait that it names and then does what the lemma of its
case says. A write's effects reach neither flight nor a gang's mode (`keepsFlight_writeHome`), so that what an access delivers reads back. -/
theorem memoryEvents : Obligations.MemoryEvents := by
  unfold Obligations.MemoryEvents
  refine ⟨fun s n a hf hp i => exec_placeless hf hp, fun s n a hf hp => ⟨fun hk hne hheld => ?_, fun hk hheld => ?_, ?_, ?_, ?_, ?_⟩, ?_, ?_,
    fun s g e m => exec_monitorDrop_found, fun s u k va h hw => ⟨exec_acqAttempt_waits hw, ?_⟩, fun s u k target h => exec_cwaitEvaluate_waiting,
    fun s u => exec_cwaitEvaluate_counted, fun s g k n a target h hw hlo hhi => ?_⟩
  · rw [exec_loadDataReturn_placed hf hp hk, State.performLoad_of_held hne hheld]
  · rw [exec_storeAck_placed hf hp hk, State.performWrite_of_held hheld]
  · intro l d hk hlanes hgot hl hdest hsize hfree hplace hsup
    exact exec_loadDataReturn_single hf hp hk hlanes hgot hl hdest hsize hfree hplace hsup
  · intro l hk hs hlanes hfree hplace hhbm
    exact exec_storeAck_store hf hp hk hs hlanes hfree hplace hhbm
  · intro l hk hs hlanes hgot hl hfree hplace hhbm hsup
    exact exec_storeAck_atomic hf hp hk hs hlanes hgot hl hfree hplace hhbm hsup
  · intro d hfe hne hdest hfree
    exact exec_fullEmptyServe_cases hf hfe hne hdest hfree
  · intro s g a q rest x es hrun hhold hq hes hne
    exact ⟨exec_storeHoldDataArrival_marked hrun hhold hq hes, exec_storeHoldDataArrival_sent hrun hhold hq hes (hne := hne)⟩
  · intro s g x
    exact ⟨exec_gsyncRendezvous_both s g, exec_gsyncRendezvous_waits s g⟩
  · intro hs hrun hplace hmark hk hstores
    exact exec_acqAttempt_cases hw hs hrun hplace hmark hk hstores
  · rw [State.meetCwaits_wait, hw, State.metWait_cwait s hlo hhi]

end Sys2Proof.Machine
end


section
/-! SUPPORT. What an instruction of a unit leaves alone, as a chain of the operations that it is made of (R49, R96, R188), and what is
counted at issue. -/

namespace Sys2Proof.Machine

/-! ## The frame of an instruction, one operation after another -/

theorem State.sameButGang_modGang (s : State) (g : GangId) (f : Gang → Gang) : s.sameButGang (s.modGang g f) g :=
  ⟨rfl, fun _ hne => s.gang_modGang_other _ _ _ hne⟩

theorem State.sameButGang.trans {s t u : State} {g : GangId} (h : s.sameButGang t g) (h' : t.sameButGang u g) : s.sameButGang u g :=
  ⟨by rw [← h'.1, ← h.1], fun k hne => (h'.2 k hne).trans (h.2 k hne)⟩

theorem State.sameButCtl_modCtl (s : State) (c : CluId) (f : Ctl → Ctl) : s.sameButCtl (s.modCtl c f) c :=
  ⟨rfl, fun _ hne => s.clu_modClu_other _ _ _ hne, by rw [State.ctl_modCtl]; exact s.clu_modClu c _⟩

theorem State.sameButCtl.trans {s t u : State} {c : CluId} (h : s.sameButCtl t c) (h' : t.sameButCtl u c) : s.sameButCtl u c :=
  ⟨by rw [← h'.1, ← h.1], fun k hne => (h'.2.1 k hne).trans (h.2.1 k hne), h'.2.2.trans (by rw [h.2.2])⟩

theorem Gang.sameButData.trans {x y z : Gang} {u : UnitKind} (h : x.sameButData y u) (h' : y.sameButData z u) : x.sameButData z u := by
  cases u <;> exact Eq.trans h' (by rw [h])

theorem State.sameButData.trans {s t w : State} {u : UnitId} (h : s.sameButData t u) (h' : t.sameButData w u) : s.sameButData w u := by
  cases u with
  | a g => exact ⟨h.1.trans h'.1, Gang.sameButData.trans h.2 h'.2⟩
  | c g => exact ⟨h.1.trans h'.1, Gang.sameButData.trans h.2 h'.2⟩
  | m c => exact ⟨h.1.trans h'.1, h'.2.trans (by rw [h.2])⟩

section
variable (s : State)

theorem State.sameButData_modGang_a {u : UnitId} {g : GangId} (hu : u = .a g) {f : Gang → Gang}
    (h : (s.gang g).sameButData (f (s.gang g)) .A) : s.sameButData (s.modGang g f) u :=
  hu ▸ ⟨s.sameButGang_modGang g f, (congrArg ((s.gang g).sameButData · .A) (s.gang_modGang g f)).mpr h⟩

theorem State.sameButData_modGang_c {u : UnitId} {g : GangId} (hu : u = .c g) {f : Gang → Gang}
    (h : (s.gang g).sameButData (f (s.gang g)) .C) : s.sameButData (s.modGang g f) u :=
  hu ▸ ⟨s.sameButGang_modGang g f, (congrArg ((s.gang g).sameButData · .C) (s.gang_modGang g f)).mpr h⟩

theorem State.sameButData_modCtl {u : UnitId} {c : CluId} (hu : u = .m c) {f : Ctl → Ctl}
    (h : ∀ x, f x = { x with m := (f x).m, sm := (f x).sm, pc := (f x).pc }) : s.sameButData (s.modCtl c f) u :=
  hu ▸ ⟨s.sameButCtl_modCtl c f, by simp only [State.ctl_modCtl]; exact h _⟩

theorem State.sameButData_countIssue (u : UnitId) : s.sameButData (s.countIssue u) u := by
  cases u with
  | a g => exact s.sameButData_modGang_a rfl rfl
  | c g => exact s.sameButData_modGang_c rfl rfl
  | m c => exact ⟨⟨rfl, fun _ _ => rfl, rfl⟩, rfl⟩

theorem State.sameButData_setPc (u : UnitId) (v : VAddr) : s.sameButData (s.setPc u v) u := by
  cases u with
  | a g => exact s.sameButData_modGang_a rfl rfl
  | c g => exact s.sameButData_modGang_c rfl rfl
  | m c => exact s.sameButData_modCtl rfl fun _ => rfl

end

/-- A register of the controller written changes its registers alone (R293). -/
theorem Ctl.writeM_eq (x : Ctl) (code : Nat) (v : Val) :
    x.writeM code v = { x with m := (x.writeM code v).m, sm := (x.writeM code v).sm } := by
  unfold Ctl.writeM
  split
  · split
    · rfl
    · split <;> rfl
  · rfl

/-- A register of the a-slice written changes its registers alone. -/
theorem Gang.writeA_eq (x : Gang) (code : Nat) (act : Word) (f : Nat → Val) : let y := x.writeA code act f
    y = { x with a := y.a, s := y.s, sa := y.sa, ss := y.ss } := by
  unfold Gang.writeA
  split
  · split
    · rfl
    · split <;> rfl
  · split <;> rfl

theorem State.sameButData_writeReg (s : State) (u : UnitId) (t : Ty) (code : Nat) (act : Word) (f : Nat → DWord) :
    s.sameButData (s.writeReg u t code act f) u := by
  cases u with
  | a g => exact s.sameButData_modGang_a rfl (by rw [Gang.writeA_eq]; rfl)
  | c g => exact s.sameButData_modGang_c rfl (by split <;> rfl)
  | m c =>
    unfold State.writeReg
    dsimp only
    split
    · exact ⟨⟨rfl, fun _ _ => rfl, rfl⟩, rfl⟩
    · exact s.sameButData_modCtl rfl fun x => by rw [Ctl.writeM_eq]

/-! ## What is counted at issue -/

@[simp] theorem State.countIssue_pc (s : State) (u : UnitId) : (s.countIssue u).pc u = s.pc u := by
  cases u with
  | a g => exact s.countIssue_a_pc g
  | c g => exact s.countIssue_c_pc g
  | m c => rfl

@[simp] theorem State.countIssue_fragment (s : State) (u : UnitId) : (s.countIssue u).fragment u = s.fragment u := by
  cases u with
  | a g => exact s.countIssue_a_fragMask g
  | c g => simp only [State.fragment, State.gang_countIssue_c]; rfl
  | m c => rfl

@[simp] theorem State.countIssue_leader (s : State) (u : UnitId) : (s.countIssue u).leader u = s.leader u := by
  simp only [State.leader, State.countIssue_active, State.countIssue_fragment]

/-! ## The program counter -/

@[simp] theorem State.pc_setPc (s : State) (u : UnitId) (v : VAddr) : (s.setPc u v).pc u = v := by
  cases u <;> simp [State.setPc, State.pc]

@[simp] theorem State.cur_setPc (s : State) (u : UnitId) (v : VAddr) : (s.setPc u v).cur = s.cur := by cases u <;> rfl

/-- Moving past an instruction of a unit. -/
theorem State.advance_of_cur {s : State} {u : UnitId} (hc : s.cur = u) (i : Instr) :
    s.advance i = s.setPc u (s.pc u + BitVec.ofNat 57 i.size) := by
  rw [State.advance, hc]

/-- Settles O18: past what is counted at issue, the program counter alone changes. -/
theorem nopAdvances : Obligations.NopAdvances := by
  unfold Obligations.NopAdvances
  intro s hi
  have hex : exec .nop s = .next ((s.countIssue s.cur).setPc s.cur (s.pc s.cur + 4)) := by
    have hexec : exec .nop s = execNop s := rfl
    rw [hexec, execNop, issue_of_issues _ hi, State.advance_of_cur (s.countIssue_cur _), State.countIssue_pc]
    rfl
  refine ⟨_, hex, by simp, (s.sameButData_countIssue _).trans (State.sameButData_setPc _ _ _), ?_⟩
  cases s.cur with
  | a g => simp only [State.setPc, State.gang_modGang, State.gang_countIssue_a, State.pc]
  | c g => simp only [State.setPc, State.gang_modGang, State.gang_countIssue_c, State.pc]
  | m c => exact State.clu_modClu ..

end Sys2Proof.Machine
end

section
/-! SUPPORT. The records of `dq` (R103, R105): room for the record that an instruction always pushes, and what a step of the fragment
table pushes where it is no decision (R113, R115). -/

namespace Sys2Proof.Machine

/-! ## Room for a record that is always pushed -/

/-- An instruction that is illegal outside user mode and waits for room in `dq` has room for one record when it issues. -/
theorem hasRoom_of_issues {i : Instr} {s : State} {g : GangId} (hc : s.cur = .a g) (h : issues i s = true)
    (hmode : ∀ m, supervisorIllegal (.a g) m i = (m != .user)) (hlane : i.laneForm .A = none)
    (hstall : stallOther s (.a g) i = (s.gang g).slipStall) : (s.gang g).hasRoom := by
  have hnext := Gang.dqNext_of_runnable (hc ▸ runnable_of_issues h) (mode_of_issues hc h hmode)
  have hst := stallOther_of_issues h (by rw [hc]; exact hlane)
  rw [hc, hstall] at hst
  exact Gang.hasRoom_of_slipStall hnext hst

/-! ## Records that are no decisions -/

theorem switchRec_kind (e : Nat) (deferred : Bool) (j : Nat) (fresh : Option Word) : (switchRec e deferred j fresh).kind ≠ 0 :=
  Nat.succ_ne_zero 3
theorem releaseRec_kind (m : Word) (j : Nat) : (releaseRec m j).kind ≠ 0 := Nat.succ_ne_zero 4

/-- A gang that has pushed records, of which none is a decision record. -/
def Gang.pushedNoDecision (x y : Gang) : Prop := ∃ rs, y.dq ++ y.dqNext = x.dq ++ x.dqNext ++ rs ∧ ∀ r ∈ rs, r.kind ≠ 0

section
variable {x y z : Gang}

theorem Gang.pushedNoDecision.of_eq (hq : y.dq = x.dq) (hn : y.dqNext = x.dqNext) : x.pushedNoDecision y :=
  ⟨[], by rw [hq, hn, List.append_nil], by simp⟩

theorem Gang.pushedNoDecision.trans (h : x.pushedNoDecision y) (h' : y.pushedNoDecision z) : x.pushedNoDecision z := by
  obtain ⟨rs, hrs, hk⟩ := h
  obtain ⟨rs', hrs', hk'⟩ := h'
  refine ⟨rs ++ rs', by rw [hrs', hrs, List.append_assoc (_ ++ _)], fun r hr => ?_⟩
  exact (List.mem_append.mp hr).elim (hk r) (hk' r)

theorem Gang.pushedNoDecision.pushDq (h : x.pushedNoDecision y) {r : DRec} (hr : r.kind ≠ 0) : x.pushedNoDecision (y.pushDq r) := by
  refine h.trans ⟨[r], ?_, by simpa using hr⟩
  unfold Gang.pushDq
  split
  next hroom =>
    have hnext : y.dqNext = [] := by simp_all
    simp [hnext]
  next => simp

/-- Selecting pushes a switch record, and a release record for a merged fragment (R113). -/
theorem Gang.pushedNoDecision.select (h : x.pushedNoDecision y) : x.pushedNoDecision y.select := by
  unfold Gang.select
  split
  · exact h
  · split
    · exact h
    · dsimp only
      split
      · refine .pushDq ?_ (switchRec_kind _ _ _ _)
        exact h.trans (.of_eq rfl rfl)
      · refine .pushDq (.pushDq ?_ (switchRec_kind _ _ _ _)) (releaseRec_kind _ _)
        exact h.trans (.of_eq rfl rfl)

end

/-- The end of a fragment pushes the end record, or what selecting another pushes (R115). -/
theorem Gang.pushedNoDecision_endFragment (x : Gang) : x.pushedNoDecision x.endFragment := by
  unfold Gang.endFragment
  split
  · exact .of_eq rfl rfl
  next e _ =>
    have hends := x.endLanes_sameButTables (x.frag e).mask
    have hfree := Gang.freeEntry_sameButTables { x.endLanes (x.frag e).mask with cur := none, region := none } e
    have h : x.pushedNoDecision _ := .of_eq (hfree.dq.trans hends.dq) (hfree.dqNext.trans hends.dqNext)
    dsimp only
    split
    · exact h.pushDq (r := ⟨6, 0⟩) (Nat.succ_ne_zero 5)
    · exact h.select

theorem Gang.leave_ready_dq (x : Gang) (pc : VAddr) : (x.leave .ready pc).dq = x.dq ∧ (x.leave .ready pc).dqNext = x.dqNext := by
  unfold Gang.leave
  split <;> exact ⟨rfl, rfl⟩

/-- A quantum yield pushes no decision record (R113, R165). -/
theorem Gang.pushedNoDecision_quantum (x : Gang) : x.pushedNoDecision x.quantum := by
  unfold Gang.quantum
  split
  · exact x.pushedNoDecision_endFragment
  · exact (Gang.pushedNoDecision.of_eq (x.leave_ready_dq x.apc).1 (x.leave_ready_dq x.apc).2).select

theorem State.checkDeadlock_dqNext (s : State) (g : GangId) : ((s.checkDeadlock g).gang g).dqNext = (s.gang g).dqNext := by
  obtain ⟨-, _, _, _, h⟩ := s.checkDeadlock_frame g
  rw [h]

end Sys2Proof.Machine
end

section
/-! PROOF. `bra`, `brc` and `call` in the three units (R70, R163 to R165, R169). -/

namespace Sys2Proof.Machine

/-! ## Conditions (R163) -/

theorem bitVec2_cases (c : BitVec 2) : c = 0 ∨ c = 1 ∨ c = 2 ∨ c = 3 := by revert c; decide

theorem condMask_iff (c : BitVec 2) (k act : Word) : condMask c.toNat k act = true ↔
    (c = 0 ∧ k &&& act ≠ 0) ∨ (c = 1 ∧ k &&& act = act) ∨ (c = 2 ∧ k &&& act = 0) ∨ (c = 3 ∧ k &&& act ≠ act) := by
  rcases bitVec2_cases c with rfl | rfl | rfl | rfl <;> simp [condMask]

theorem condScalar_iff (c : BitVec 2) (m : DWord) : condScalar c.toNat m = true ↔
    (c = 0 ∧ m ≠ 0) ∨ (c = 1 ∧ m = 0) ∨ (c = 2 ∧ m.toInt < 0) ∨ (c = 3 ∧ 0 ≤ m.toInt) := by
  rcases bitVec2_cases c with rfl | rfl | rfl | rfl <;> simp [condScalar, BitVec.msb_eq_toInt]

/-! ## A branch of the a-slice -/

/-- A branch that does not yield goes to its side, and with p = 1 tells it in the record that `dq` has room for. -/
theorem branchA_goes {s : State} {g : GangId} {p : BitVec 1} {mayYield : Bool} (taken : Bool) (target next : VAddr)
    (hy : p = 0 ∨ mayYield = false ∨ (s.gang g).yields = false) (hroom : p = 1 → (s.gang g).hasRoom) :
    branchA s g p mayYield taken target next = s.modGang g fun x => { x with
      apc := if taken then target else next, dq := x.dq ++ if p = 1 then [⟨0, if taken then 1 else 0⟩] else [] } := by
  have hstay : (p == 1 && mayYield && (s.gang g).yields) = false := by
    rcases hy with hy | hy | hy <;> simp [hy]
  simp only [branchA, hstay, Bool.false_eq_true, if_false]
  by_cases hp : p = 1
  · simp only [State.modGang, hp, beq_self_eq_true, if_true, Gang.pushDq_of_hasRoom (hroom hp), decisionRec]
  · simp only [State.modGang, beq_eq_false_iff_ne.mpr hp, hp, Bool.false_eq_true, if_false, List.append_nil]

/-- A branch that yields pushes no decision. -/
theorem branchA_yields {s : State} {g : GangId} (taken : Bool) (target next : VAddr) (hy : (s.gang g).yields = true)
    (hnext : (s.gang g).dqNext = []) : let y := (branchA s g 1 true taken target next).gang g
    ∃ rs, y.dq ++ y.dqNext = (s.gang g).dq ++ rs ∧ ∀ r ∈ rs, r.kind ≠ 0 := by
  have h : branchA s g 1 true taken target next = (s.modGang g fun x => x.quantum).checkDeadlock g := if_pos (by simp [hy])
  obtain ⟨rs, hrs, hkind⟩ := (s.gang g).pushedNoDecision_quantum
  refine ⟨rs, ?_, hkind⟩
  rw [h, State.checkDeadlock_dq, State.checkDeadlock_dqNext, State.gang_modGang, hrs, hnext, List.append_nil]

section
variable {s : State} {g : GangId} (hc : s.cur = .a g) {o : BitVec 18} {p : BitVec 1} {k : BitVec 3} {c : BitVec 2}
include hc

theorem exec_bra_a (h : issues (.bra o p) s = true) : exec (.bra o p) s = .next
    (branchA (s.countIssue s.cur) g p true true (branchTarget (s.pc s.cur) o) (branchTarget (s.pc s.cur) o)) := by
  have hex : exec (.bra o p) s = execBra o p s := rfl
  rw [hex, execBra, issue_of_issues _ h, State.countIssue_cur, State.countIssue_pc, hc]

theorem exec_brc_a (h : issues (.brc o p k c) s = true) : exec (.brc o p k c) s = .next
    (branchA (s.countIssue s.cur) g p true (condMask c.toNat (s.readMask s.cur k.toNat) (s.active s.cur)) (branchTarget (s.pc s.cur) o)
      (s.pc s.cur + 4)) := by
  have hex : exec (.brc o p k c) s = execBrc o p k c s := rfl
  rw [hex, execBrc, issue_of_issues _ h]
  simp only [State.countIssue_cur, hc, State.countIssue_pc, State.countIssue_a_readMask, State.countIssue_active]

theorem exec_call_a (h : issues (.call o p) s = true) : exec (.call o p) s = .next
    (branchA ((s.countIssue s.cur).modGang g fun x => x.writeA 63 (BitVec.allOnes 32) fun _ => ⟨(s.pc s.cur + 4).zeroExtend 64, false⟩)
      g p false true (branchTarget (s.pc s.cur) o) (s.pc s.cur + 4)) := by
  have hex : exec (.call o p) s = execCall o p s := rfl
  rw [hex, execCall, issue_of_issues _ h]
  simp only [State.countIssue_cur, hc, State.countIssue_pc]

/-- The three instructions with p = 1 have room for their record. -/
theorem hasRoom_of_issues_branch (h : issues (.bra o p) s = true ∨ issues (.brc o p k c) s = true ∨ issues (.call o p) s = true)
    (hp : p = 1) : ((s.countIssue s.cur).gang g).hasRoom := by
  subst hp
  have hroom : (s.gang g).hasRoom := by
    rcases h with h | h | h <;> exact hasRoom_of_issues hc h (fun m => by cases m <;> rfl) rfl rfl
  rw [hc]
  exact (s.countIssue_a_hasRoom g).mpr hroom

end

/-! ## A branch of the c-slice or the controller -/

section
variable {s : State} {o : BitVec 18} {p : BitVec 1} {k : BitVec 3} {c : BitVec 2}

theorem exec_bra_other (hc : ∀ g, s.cur ≠ .a g) (h : issues (.bra o p) s = true) :
    exec (.bra o p) s = .next ((s.countIssue s.cur).setPc s.cur (branchTarget (s.pc s.cur) o)) := by
  have hex : exec (.bra o p) s = execBra o p s := rfl
  rw [hex, execBra, issue_of_issues _ h]
  simp only [State.countIssue_cur, State.countIssue_pc]
  cases hu : s.cur with
  | a g => exact absurd hu (hc g)
  | c g => rfl
  | m m => rfl

theorem exec_brc_m {m : CluId} (hc : s.cur = .m m) (h : issues (.brc o p k c) s = true) :
    exec (.brc o p k c) s = .next ((s.countIssue s.cur).setPc s.cur
      (if condScalar c.toNat (s.readReg s.cur .b64 k.toNat 0).bits then branchTarget (s.pc s.cur) o else s.pc s.cur + 4)) := by
  have hex : exec (.brc o p k c) s = execBrc o p k c s := rfl
  rw [hex, execBrc, issue_of_issues _ h]
  simp only [State.countIssue_cur, hc, State.countIssue_pc]
  rfl

theorem exec_call_c {g : GangId} (hc : s.cur = .c g) (h : issues (.call o p) s = true) : exec (.call o p) s = .next
    (((s.countIssue s.cur).writeReg s.cur .b64 62 (s.gang g).cfragMask fun _ => (s.pc s.cur + 4).zeroExtend 64).setPc s.cur
      (branchTarget (s.pc s.cur) o)) := by
  have hex : exec (.call o p) s = execCall o p s := rfl
  rw [hex, execCall, issue_of_issues _ h]
  simp only [State.countIssue_cur, hc, State.countIssue_pc, State.countIssue_fragment]
  rfl

theorem exec_call_m {m : CluId} (hc : s.cur = .m m) (h : issues (.call o p) s = true) : exec (.call o p) s = .next
    (((s.countIssue s.cur).writeReg s.cur .b64 31 1 fun _ => (s.pc s.cur + 4).zeroExtend 64).setPc s.cur (branchTarget (s.pc s.cur) o)) := by
  have hex : exec (.call o p) s = execCall o p s := rfl
  rw [hex, execCall, issue_of_issues _ h]
  simp only [State.countIssue_cur, hc, State.countIssue_pc]

end

/-! ## Registers beside the one that is written -/

theorem Gang.readA_writeA_other (x : Gang) {code c : Nat} (n : Nat) (act : Word) (f : Nat → Val) (h : c ≠ code) :
    (x.writeA code act f).readA c n = x.readA c n := by
  rw [Gang.readA, Gang.readA, Gang.writeA_banked, Gang.writeA]
  by_cases hs : code ≥ 48
  · rw [if_pos hs]
    cases lowestLane act with
    | none => rfl
    | some l => cases x.banked code <;> cases x.banked c <;> simp [tget_tset_other _ _ _ _ _ h]
  · rw [if_neg hs]
    cases x.banked code <;> cases x.banked c <;> simp [tget_tset_other _ _ _ _ _ h]

theorem Ctl.readM_of_tables {x y : Ctl} {c : Nat} (hmode : y.mode = x.mode) (hm : tget c {} y.m = tget c {} x.m)
    (hsm : tget c {} y.sm = tget c {} x.sm) : y.readM c = x.readM c := by
  unfold Ctl.readM
  rw [hmode]
  split
  · exact hsm
  · exact hm

theorem Ctl.readM_writeM_other (x : Ctl) {code c : Nat} (v : Val) (h : c ≠ code) : (x.writeM code v).readM c = x.readM c := by
  unfold Ctl.writeM
  split
  · split
    · exact Ctl.readM_of_tables rfl rfl (tget_tset_other _ _ _ _ _ h)
    · split
      next h24 => exact Ctl.readM_of_tables rfl rfl (tget_tset_other _ _ _ _ _ (h24 ▸ h))
      next => rfl
  · exact Ctl.readM_of_tables rfl (tget_tset_other _ _ _ _ _ h) rfl

@[simp] theorem State.readReg_setPc (s : State) (u : UnitId) (v : VAddr) (t : Ty) (code n : Nat) :
    (s.setPc u v).readReg u t code n = s.readReg u t code n := by
  cases u with
  | a g => simp only [State.readReg, State.setPc, State.gang_modGang]; rfl
  | c g => simp only [State.readReg, State.setPc, State.gang_modGang]; rfl
  | m c => simp only [State.readReg, State.setPc, State.ctl_modCtl]; rfl

theorem State.readReg_a (s : State) {u : UnitId} {g : GangId} (hu : u = .a g) (t : Ty) (code n : Nat) :
    s.readReg u t code n = (s.gang g).readA code n := by
  rw [hu, State.readReg]

/-! ## What a call leaves -/

section
variable {s : State} {o : BitVec 18} {p : BitVec 1}

theorem call_a {g : GangId} (hc : s.cur = .a g) (h : issues (.call o p) s = true) : ∃ t, exec (.call o p) s = .next t
    ∧ t.pc s.cur = branchTarget (s.pc s.cur) o ∧ (t.gang g).dq = (s.gang g).dq ++ (if p = 1 then [⟨0, 1⟩] else []) ∧ s.sameButData t s.cur
    ∧ ∀ d n, t.readReg s.cur .b64 d n = if d = 63 then ⟨(s.pc s.cur + 4).zeroExtend 64, false⟩ else s.readReg s.cur .b64 d n := by
  let v : Val := ⟨(s.pc s.cur + 4).zeroExtend 64, false⟩
  let r := s.countIssue s.cur
  let w := r.modGang g fun x => x.writeA 63 (BitVec.allOnes 32) fun _ => v
  have hw : w.gang g = (r.gang g).writeA 63 (BitVec.allOnes 32) fun _ => v := State.gang_modGang ..
  have hroom (hp : p = 1) : (w.gang g).hasRoom := by
    rw [hw, Gang.writeA_eq]
    exact hasRoom_of_issues_branch (k := 0) (c := 0) hc (.inr (.inr h)) hp
  have hgoes := branchA_goes (s := w) true (branchTarget (s.pc s.cur) o) (s.pc s.cur + 4) (.inr (.inl rfl)) hroom
  refine ⟨_, (exec_call_a hc h).trans (congrArg _ hgoes), ?pc, ?dq, ?frame, fun d n => ?reg⟩
  case pc => simp only [hc, State.pc, State.gang_modGang, if_true]
  case dq =>
    have hdq : (w.gang g).dq = (s.gang g).dq := by
      have hcount := s.countIssue_a_dq g
      rw [← hc] at hcount
      rw [hw, Gang.writeA_eq]
      exact hcount
    simp only [State.gang_modGang, hdq, if_true]
  case frame =>
    have hwrite : r.sameButData w s.cur := r.sameButData_modGang_a hc (by rw [Gang.writeA_eq]; rfl)
    exact ((s.sameButData_countIssue s.cur).trans hwrite).trans (w.sameButData_modGang_a hc rfl)
  case reg =>
    rw [State.readReg_a _ hc, State.gang_modGang]
    refine Eq.trans (b := (w.gang g).readA d n) rfl ?_
    rw [hw]
    split
    next hd => rw [hd]; exact Gang.readA_writeA_uniform _ n _ (by decide) (l := 0) (by decide)
    next hd => rw [Gang.readA_writeA_other _ n _ _ hd, ← r.readReg_a hc .b64, s.countIssue_readReg]

theorem call_c {g : GangId} (hc : s.cur = .c g) (h : issues (.call o p) s = true) : ∃ t, exec (.call o p) s = .next t
    ∧ t.pc s.cur = branchTarget (s.pc s.cur) o ∧ s.sameButData t s.cur
    ∧ (∀ d n, d ≠ 62 → d ≠ 63 → t.readReg s.cur .b32 d n = s.readReg s.cur .b32 d n)
    ∧ ∀ n, n < 32 → t.readReg s.cur .b64 62 n
      = if (s.gang g).cfragMask.getLsbD n then ⟨(s.pc s.cur + 4).zeroExtend 64, false⟩ else s.readReg s.cur .b64 62 n := by
  have hcount := s.countIssue_readReg s.cur
  refine ⟨_, exec_call_c hc h, State.pc_setPc .., ?frame, fun d n hlo hhi => ?other, fun n hn => ?link⟩
  case frame => exact ((s.sameButData_countIssue _).trans (State.sameButData_writeReg ..)).trans (State.sameButData_setPc ..)
  case other =>
    rw [State.readReg_setPc, ← hcount, hc, State.readReg_c_narrow _ _ _ _ rfl, State.readReg_c_narrow _ _ _ _ rfl,
      State.gang_writeReg_c_wide _ _ _ _ _ rfl, Gang.readC_writeC_other _ _ _ _ hhi, Gang.readC_writeC_other _ _ _ _ hlo]
  case link =>
    rw [State.readReg_setPc, ← hcount, hc]
    exact State.readReg_writeReg_c_wide _ g 62 _ _ rfl hn

theorem call_m {m : CluId} (hc : s.cur = .m m) (h : issues (.call o p) s = true) : ∃ t, exec (.call o p) s = .next t
    ∧ t.pc s.cur = branchTarget (s.pc s.cur) o ∧ s.sameButData t s.cur
    ∧ ∀ d, t.readReg s.cur .b64 d 0 = if d = 31 then ⟨(s.pc s.cur + 4).zeroExtend 64, false⟩ else s.readReg s.cur .b64 d 0 := by
  refine ⟨_, exec_call_m hc h, State.pc_setPc .., ?frame, fun d => ?reg⟩
  case frame => exact ((s.sameButData_countIssue _).trans (State.sameButData_writeReg ..)).trans (State.sameButData_setPc ..)
  case reg =>
    rw [State.readReg_setPc, ← s.countIssue_readReg s.cur, hc, State.writeReg_m _ _ _ _ _ rfl]
    simp only [State.readReg, State.ctl_modCtl]
    split
    next hd => rw [hd, Ctl.readM_writeM _ _ (.inr (.inr (by decide))), extendResult_of_wide _ rfl]
    next hd => exact Ctl.readM_writeM_other _ _ hd

end

/-- Settles O34: each branch goes to its side, and tells it where it does not yield (`branchA_goes`, `branchA_yields`). -/
theorem uniformBranches : Obligations.UniformBranches := by
  unfold Obligations.UniformBranches
  intro s o p k c u r target next v any
  have hroom {g : GangId} (hc : u = .a g) (h : issues (.bra o p) s = true ∨ issues (.brc o p k c) s = true ∨ issues (.call o p) s = true)
      (hp : p = 1) := hasRoom_of_issues_branch hc h hp
  have hdq {g : GangId} (hc : u = .a g) : (r.gang g).dq = (s.gang g).dq := by
    have hcount := s.countIssue_a_dq g
    rwa [← hc] at hcount
  refine ⟨fun g hc hy => ⟨fun h => ?bra, fun h => ⟨fun hany => ?taken, fun hany => ?not⟩⟩,
    fun g hc hp hy => ⟨fun h => ?braYields, fun h => ?brcYields⟩, fun g hc h => call_a hc h, fun hc h => exec_bra_other hc h,
    fun m hc h => ?scalar, fun g hc h => call_c hc h, fun m hc h => call_m hc h⟩
  case bra =>
    rw [exec_bra_a hc h, branchA_goes true _ _ (hy.imp_right .inr) (hroom hc (.inl h))]
    rfl
  case taken =>
    rw [exec_brc_a hc h, branchA_goes _ _ _ (hy.imp_right .inr) (hroom hc (.inr (.inl h))), (condMask_iff ..).mpr hany]
    rfl
  case not =>
    rw [exec_brc_a hc h, branchA_goes _ _ _ (hy.imp_right .inr) (hroom hc (.inr (.inl h))),
      Bool.eq_false_iff.mpr (mt (condMask_iff ..).mp hany)]
    rfl
  case braYields =>
    rw [exec_bra_a hc h, hp, ← hdq hc]
    exact ⟨_, (branchA_yields _ _ _ hy (hroom hc (.inl h) hp).1).imp fun _ hrs => ⟨rfl, hrs⟩⟩
  case brcYields =>
    rw [exec_brc_a hc h, hp, ← hdq hc]
    exact ⟨_, (branchA_yields _ _ _ hy (hroom hc (.inr (.inl h)) hp).1).imp fun _ hrs => ⟨rfl, hrs⟩⟩
  case scalar =>
    rw [exec_brc_m hc h]
    exact congrArg _ (congrArg _ (if_congr (condScalar_iff ..) rfl rfl))

end Sys2Proof.Machine
end

section
/-! PROOF. `ret` in the three units and `jmpi` in the a-slice and the controller (R168, R170, R171). -/

namespace Sys2Proof.Machine

/-! ## Targets -/

/-- The check of a control target names bits 63 to 57 before bit 0 (R170). -/
theorem targetFault_eq (v : DWord) :
    targetFault v = if v.extractLsb' 57 7 ≠ 0 then some 6 else if v.getLsbD 0 then some 3 else none := by
  simp [targetFault]

theorem truncate_eq_extractLsb' (v : DWord) : v.truncate 57 = v.extractLsb' 0 57 := BitVec.setWidth_eq_extractLsb' (by decide)

/-- The register that a call leaves its return address in (R169). -/
def returnCode (u : UnitId) : Nat :=
  match u with
  | .a _ => 63
  | .c _ => 62
  | .m _ => 31

section
variable {s : State}

theorem exec_ret_of_issues (h : issues .ret s = true) :
    let v := (s.readReg s.cur .b64 (returnCode s.cur) (s.leader s.cur)).bits
    (∀ n, targetFault v = some n → exec .ret s = .next ((s.countIssue s.cur).raise s.cur ⟨9, n, v, s.active s.cur, false, 4⟩))
      ∧ (targetFault v = none → exec .ret s = .next ((s.countIssue s.cur).setPc s.cur (v.extractLsb' 0 57))) := by
  intro v
  have hex : exec .ret s = match targetFault v with
      | some n => .next ((s.countIssue s.cur).raiseAt s.cur causeMemory n v)
      | none => .next ((s.countIssue s.cur).setPc s.cur (v.truncate 57)) := by
    have hexec : exec .ret s = execRet s := rfl
    rw [hexec, execRet, issue_of_issues _ h]
    simp only [State.countIssue_cur, leaderValue, State.countIssue_readReg, State.countIssue_leader]
    rfl
  rw [hex, ← truncate_eq_extractLsb']
  exact ⟨fun n hn => by simp only [hn, State.raiseAt, State.countIssue_active, causeMemory], fun hn => by rw [hn]⟩

end

/-- Settles O35: the check of the target decides (`targetFault_eq`). -/
theorem returnTargets : Obligations.ReturnTargets := by
  unfold Obligations.ReturnTargets
  intro s hi u r v
  obtain ⟨hbad, hgood⟩ := exec_ret_of_issues hi
  have hfault := targetFault_eq v
  refine ⟨fun hhigh => hbad 6 ?_, fun hlow hodd => hbad 3 ?_, fun hlow heven => hgood ?_⟩
  · exact hfault.trans (if_pos hhigh)
  · exact hfault.trans ((if_neg (not_not.mpr hlow)).trans (if_pos hodd))
  · exact hfault.trans ((if_neg (not_not.mpr hlow)).trans (if_neg (ne_true_of_eq_false heven)))

/-! ## Indirect jumps -/

section
variable {s : State} {b a : BitVec 6} {p : BitVec 1}

theorem exec_jmpi_of_fault (hc : ∀ g, s.cur ≠ .c g) (h : issues (.jmpi b a p) s = true) {n : Nat} :
    let v := (s.readReg s.cur .b64 a.toNat (s.leader s.cur)).bits
    targetFault v = some n → exec (.jmpi b a p) s = .next ((s.countIssue s.cur).raise s.cur ⟨9, n, v, s.active s.cur, false, 4⟩) := by
  intro v hv
  have hex : exec (.jmpi b a p) s = execJmpi b a p s := rfl
  rw [hex, execJmpi, issue_of_issues _ h]
  simp only [State.countIssue_cur, leaderValue, State.countIssue_readReg, State.countIssue_leader, State.raiseAt, State.countIssue_active,
    causeMemory]
  cases hu : s.cur with
  | c g => exact absurd hu (hc g)
  | a g => simp only [← hu, hv, v]
  | m m => simp only [← hu, hv, v]

theorem exec_jmpi_plain (hc : ∀ g, s.cur ≠ .c g) (h : issues (.jmpi b a p) s = true) (hp : p = 0) :
    let v := (s.readReg s.cur .b64 a.toNat (s.leader s.cur)).bits
    targetFault v = none → exec (.jmpi b a p) s = .next ((s.countIssue s.cur).setPc s.cur (v.extractLsb' 0 57)) := by
  intro v hv
  have hex : exec (.jmpi b a p) s = execJmpi b a p s := rfl
  rw [hex, execJmpi, issue_of_issues _ h, ← truncate_eq_extractLsb']
  simp only [State.countIssue_cur, leaderValue, State.countIssue_readReg, State.countIssue_leader]
  cases hu : s.cur with
  | c g => exact absurd hu (hc g)
  | a g => simp only [← hu, hv, hp, v]; rfl
  | m m => simp only [← hu, hv, v]

theorem exec_jmpi_record {g : GangId} (hc : s.cur = .a g) (h : issues (.jmpi b a p) s = true) (hp : p = 1) :
    let v := (s.readReg s.cur .b64 a.toNat (s.leader s.cur)).bits
    let w := (s.readReg s.cur .b64 b.toNat (s.leader s.cur)).bits
    targetFault v = none →
      (∀ n, targetFault w = some n → exec (.jmpi b a p) s = .next ((s.countIssue s.cur).raise s.cur ⟨9, n, w, s.active s.cur, false, 4⟩))
      ∧ (targetFault w = none → exec (.jmpi b a p) s = .next ((s.countIssue s.cur).modGang g fun x =>
          { x with apc := v.extractLsb' 0 57, dq := x.dq ++ [⟨2, w⟩] })) := by
  intro v w hv
  have hroom : ((s.countIssue s.cur).gang g).hasRoom := by
    subst hp
    rw [hc]
    exact (s.countIssue_a_hasRoom g).mpr (hasRoom_of_issues hc h (fun m => by cases m <;> rfl) rfl rfl)
  have hex : exec (.jmpi b a p) s = match targetFault w with
      | some n => .next ((s.countIssue s.cur).raiseAt s.cur causeMemory n w)
      | none => .next ((s.countIssue s.cur).modGang g fun x => { x.pushDq ⟨2, w⟩ with apc := v.truncate 57 }) := by
    have hexec : exec (.jmpi b a p) s = execJmpi b a p s := rfl
    rw [hexec, execJmpi, issue_of_issues _ h]
    simp only [State.countIssue_cur, leaderValue, State.countIssue_readReg, State.countIssue_leader]
    simp only [v, w] at hv ⊢
    simp only [hc] at hv ⊢
    simp only [hv, hp]
    rfl
  rw [hex, ← truncate_eq_extractLsb']
  refine ⟨fun n hn => by simp only [hn, State.raiseAt, State.countIssue_active, causeMemory], fun hn => ?_⟩
  simp only [hn, State.modGang, Gang.pushDq_of_hasRoom hroom]

end

end Sys2Proof.Machine
end

section
/-! PROOF. Queue inspection in the two slices: `qpeek`, `qcount` and `qdrain` (R174, R175). -/

namespace Sys2Proof.Machine

section
variable {s : State} {g : GangId} {q : BitVec 3} {d : BitVec 6}

theorem State.gangOf_of_slice {u : UnitId} (hu : u = .a g ∨ u = .c g) : s.gangOf u = s.gang g := by
  rcases hu with rfl | rfl <;> rfl

@[simp] theorem State.countIssue_gangOf_dq (u : UnitId) : ((s.countIssue u).gangOf u).dq = (s.gangOf u).dq := by
  cases u with
  | a g => exact s.countIssue_a_dq g
  | c g => exact s.countIssue_c_dq g
  | m c => rfl

@[simp] theorem State.countIssue_gangOf_readQueue (u : UnitId) (k : UnitKind) (c : Nat) :
    ((s.countIssue u).gangOf u).readQueue k c = (s.gangOf u).readQueue k c := by
  cases u with
  | a g => simp only [State.gangOf, State.gang_countIssue_a, Gang.readQueue]
  | c g => simp only [State.gangOf, State.gang_countIssue_c, Gang.readQueue]
  | m c => rfl

/-- The code by which the c-slice names `dq` (R63). -/
theorem namesDq_iff {u : UnitId} (hu : u = .a g ∨ u = .c g) : (u.kind == .C && q == 4) = true ↔ u = .c g ∧ q = 4 := by
  rcases hu with rfl | rfl <;> simp [UnitId.kind]

/-! ## What a `qpeek` that issues finds -/

/-- A queue that `qpeek` names holds an entry, or the `qpeek` stalls. -/
theorem readQueue_ne_nil_of_issues (hu : s.cur = .a g ∨ s.cur = .c g) (h : issues (.qpeek q d) s = true) (hq : ¬ (s.cur = .c g ∧ q = 4)) :
    (s.gang g).readQueue s.cur.kind q.toNat ≠ [] := by
  intro hnil
  have hst : stallOther s s.cur (.qpeek q d) = none := stallOther_of_issues h rfl
  rcases hu with hc | hc <;> rw [hc] at hst hnil
  · have hst' : (if ((s.gang g).readQueue .A q.toNat).isEmpty || (s.gang g).spokenFor q.toNat then some (Stall.pop q.toNat) else none) = none := hst
    rw [show (s.gang g).readQueue .A q.toNat = [] from hnil] at hst'
    simp at hst'
  · have hst' : (if q = 4 then (if (s.gang g).dq.isEmpty then some (Stall.pop 4) else none)
        else if ((s.gang g).readQueue .C q.toNat).isEmpty then some (Stall.pop q.toNat) else none) = none := hst
    rw [show (s.gang g).readQueue .C q.toNat = [] from hnil, if_neg fun h4 => hq ⟨hc, h4⟩] at hst'
    simp at hst'

/-- The c-slice's `qpeek` on `dq` finds a record, or stalls. -/
theorem dq_ne_nil_of_issues (hc : s.cur = .c g) (h : issues (.qpeek 4 d) s = true) : (s.gang g).dq ≠ [] := by
  intro hnil
  have hst : stallOther s s.cur (.qpeek 4 d) = none := stallOther_of_issues h rfl
  rw [hc] at hst
  have hst' : (if (s.gang g).dq.isEmpty then some (Stall.pop 4) else none) = none := hst
  rw [hnil] at hst'
  simp at hst'

/-- The word that `qpeek` shows a lane: of the head entry of the queue, or of `dq` the kind of the head record. -/
def Gang.peek (x : Gang) (u : UnitKind) (q : BitVec 3) (n : Nat) : Val32 :=
  if u == .C && q == 4 then ⟨BitVec.ofNat 32 (x.dq.headD ⟨0, 0⟩).kind, false⟩
  else ((x.readQueue u q.toNat).headD ⟨[], 0⟩).word n

theorem exec_qpeek_of_issues (hu : s.cur = .a g ∨ s.cur = .c g) (h : issues (.qpeek q d) s = true) : exec (.qpeek q d) s =
    .next (((s.countIssue s.cur).writeMarked s.cur .b32 d.toNat (s.active s.cur) fun n =>
      ⟨((s.gang g).peek s.cur.kind q n).bits.zeroExtend 64, ((s.gang g).peek s.cur.kind q n).poison⟩).advance (.qpeek q d)) := by
  have hex : exec (.qpeek q d) s = execQpeek q d s := rfl
  rw [hex, execQpeek, issue_of_issues _ h]
  simp only [State.countIssue_cur, State.countIssue_active, State.countIssue_gangOf_dq, State.countIssue_gangOf_readQueue,
    State.gangOf_of_slice (s := s) hu, Gang.peek]

theorem exec_qpeek_queue (hu : s.cur = .a g ∨ s.cur = .c g) (h : issues (.qpeek q d) s = true) (hq : ¬ (s.cur = .c g ∧ q = 4)) :
    ∃ e es, (s.gang g).readQueue s.cur.kind q.toNat = e :: es
      ∧ exec (.qpeek q d) s = .next (((s.countIssue s.cur).writeMarked s.cur .b32 d.toNat (s.active s.cur) fun n =>
        ⟨(e.word n).bits.zeroExtend 64, (e.word n).poison⟩).advance (.qpeek q d)) := by
  obtain ⟨e, es, he⟩ := List.exists_cons_of_ne_nil (readQueue_ne_nil_of_issues hu h hq)
  have hpeek (n : Nat) : (s.gang g).peek s.cur.kind q n = e.word n := by
    rw [Gang.peek, if_neg (mt (namesDq_iff hu).mp hq), he, List.headD_cons]
  refine ⟨e, es, he, ?_⟩
  rw [exec_qpeek_of_issues hu h]
  simp only [hpeek]

theorem exec_qpeek_dq (hc : s.cur = .c g) (h : issues (.qpeek 4 d) s = true) : ∃ x xs, (s.gang g).dq = x :: xs
    ∧ exec (.qpeek 4 d) s = .next (((s.countIssue s.cur).writeMarked s.cur .b32 d.toNat (s.active s.cur) fun _ =>
      ⟨BitVec.ofNat 64 (x.kind % 2 ^ 32), false⟩).advance (.qpeek 4 d)) := by
  obtain ⟨x, xs, hx⟩ := List.exists_cons_of_ne_nil (dq_ne_nil_of_issues hc h)
  have hpeek (n : Nat) : (s.gang g).peek s.cur.kind 4 n = ⟨BitVec.ofNat 32 x.kind, false⟩ := by
    rw [Gang.peek, if_pos ((namesDq_iff (.inr hc)).mpr ⟨hc, rfl⟩), hx, List.headD_cons]
  have hwide : (BitVec.ofNat 32 x.kind).zeroExtend 64 = BitVec.ofNat 64 (x.kind % 2 ^ 32) :=
    BitVec.eq_of_toNat_eq (by simp)
  refine ⟨x, xs, hx, ?_⟩
  rw [exec_qpeek_of_issues (.inr hc) h]
  simp only [hpeek, hwide]

theorem exec_qcount_of_issues (hu : s.cur = .a g ∨ s.cur = .c g) (h : issues (.qcount q d) s = true) :
    let n := if s.cur = .c g ∧ q = 4 then (s.gang g).dq.length else ((s.gang g).readQueue s.cur.kind q.toNat).length
    exec (.qcount q d) s = .next (((s.countIssue s.cur).writeReg s.cur .b32 d.toNat (s.active s.cur) fun _ =>
      BitVec.ofNat 64 n).advance (.qcount q d)) := by
  have hex : exec (.qcount q d) s = execQcount q d s := rfl
  rw [hex, execQcount, issue_of_issues _ h]
  simp only [State.countIssue_cur, State.countIssue_active, State.countIssue_gangOf_dq, State.countIssue_gangOf_readQueue,
    State.gangOf_of_slice (s := s) hu, namesDq_iff hu]

/-! ## Discarding a queue -/

@[simp] theorem Gang.readQueue_setQueue (x : Gang) (u : UnitKind) (code : Nat) (es : List QEntry) :
    (x.setQueue u code es).readQueue u code = es := by
  cases u with
  | A => by_cases h : code = 0 <;> simp [Gang.setQueue, Gang.readQueue, h, tget_tset_same]
  | C => exact tget_tset_same ..
  | M => exact tget_tset_same ..

/-- A queue replaced changes the queues that the slice reads alone. -/
theorem Gang.setQueue_eq (x : Gang) (u : UnitKind) (code : Nat) (es : List QEntry) :
    x.setQueue u code es = { x with fq := (x.setQueue u code es).fq, sq := (x.setQueue u code es).sq, lq := (x.setQueue u code es).lq } := by
  cases u with
  | A => by_cases h : code = 0 <;> simp [Gang.setQueue, h]
  | C => rfl
  | M => rfl

@[simp] theorem Gang.setQueue_dq (x : Gang) (u : UnitKind) (code : Nat) (es : List QEntry) : (x.setQueue u code es).dq = x.dq := by
  rw [Gang.setQueue_eq]

theorem exec_qdrain_of_issues (hu : s.cur = .a g ∨ s.cur = .c g) (h : issues (.qdrain q) s = true) : exec (.qdrain q) s =
    .next (((s.countIssue s.cur).modGang g fun x => x.setQueue s.cur.kind q.toNat []).advance (.qdrain q)) := by
  have hex : exec (.qdrain q) s = execQdrain q s := rfl
  rw [hex, execQdrain, issue_of_issues _ h]
  rcases hu with hc | hc <;> simp only [State.countIssue_cur, hc] <;> rfl

theorem State.sameButData_setQueue {u : UnitId} (hu : u = .a g ∨ u = .c g) (s : State) (code : Nat) (es : List QEntry) :
    s.sameButData (s.modGang g fun x => x.setQueue u.kind code es) u := by
  rcases hu with rfl | rfl
  · exact s.sameButData_modGang_a rfl (by rw [Gang.setQueue_eq]; rfl)
  · exact s.sameButData_modGang_c rfl (by rw [Gang.setQueue_eq]; rfl)

theorem State.pc_setQueue {u : UnitId} (hu : u = .a g ∨ u = .c g) (s : State) (code : Nat) (es : List QEntry) :
    (s.modGang g fun x => x.setQueue u.kind code es).pc u = s.pc u := by
  rcases hu with rfl | rfl <;> simp only [State.pc, State.gang_modGang] <;> rw [Gang.setQueue_eq]

/-- The program counter of a slice set leaves its queues alone. -/
theorem State.readQueue_setPc {u : UnitId} (hu : u = .a g ∨ u = .c g) (s : State) (v : VAddr) (k : UnitKind) (c : Nat) :
    ((s.setPc u v).gang g).readQueue k c = (s.gang g).readQueue k c ∧ ((s.setPc u v).gang g).dq = (s.gang g).dq := by
  rcases hu with rfl | rfl <;> exact ⟨by simp only [State.setPc, State.gang_modGang, Gang.readQueue], by simp only [State.setPc, State.gang_modGang]⟩

theorem exec_qdrain_spec (hu : s.cur = .a g ∨ s.cur = .c g) (h : issues (.qdrain q) s = true) : ∃ t, exec (.qdrain q) s = .next t
    ∧ t.pc s.cur = s.pc s.cur + 4 ∧ s.sameButData t s.cur
    ∧ (t.gang g).readQueue s.cur.kind q.toNat = [] ∧ (t.gang g).dq = (s.gang g).dq := by
  have hdq : ((s.countIssue s.cur).gang g).dq = (s.gang g).dq := by
    simpa only [State.gangOf_of_slice hu] using s.countIssue_gangOf_dq s.cur
  have hex := exec_qdrain_of_issues hu h
  rw [State.advance_of_cur (s := (s.countIssue s.cur).modGang g _) (s.countIssue_cur _), State.pc_setQueue hu, State.countIssue_pc] at hex
  obtain ⟨hqueue, hdq'⟩ := State.readQueue_setPc hu ((s.countIssue s.cur).modGang g fun x => x.setQueue s.cur.kind q.toNat [])
    (s.pc s.cur + BitVec.ofNat 57 (Instr.qdrain q).size) s.cur.kind q.toNat
  refine ⟨_, hex, State.pc_setPc .., ?_, hqueue.trans ?_, hdq'.trans ?_⟩
  · exact ((s.sameButData_countIssue _).trans (State.sameButData_setQueue hu _ _ _)).trans (State.sameButData_setPc _ _ _)
  · simp only [State.gang_modGang, Gang.readQueue_setQueue]
  · simp only [State.gang_modGang, Gang.setQueue_dq, hdq]

end

/-- Settles O40: `jmpi` by the check of its targets, the queue instructions by what lets them issue. -/
theorem jumpsAndQueueInspection : Obligations.JumpsAndQueueInspection := by
  unfold Obligations.JumpsAndQueueInspection
  intro s u r bad
  have hbad (v : DWord) : bad v = targetFault v := (targetFault_eq v).symm
  simp only [hbad]
  refine ⟨fun b a p hc hi => ⟨fun n hn => exec_jmpi_of_fault hc hi hn, fun hv hp => exec_jmpi_plain hc hi hp hv,
    fun g n hu hv hp hn => (exec_jmpi_record hu hi hp hv).1 n hn, fun g hu hv hp hw => (exec_jmpi_record hu hi hp hv).2 hw⟩,
    fun q d g hu hi hq => exec_qpeek_queue hu hi hq, fun d g hu hi => exec_qpeek_dq hu hi,
    fun q d g hu hi => exec_qcount_of_issues hu hi, fun q g hu hi => ?_⟩
  obtain ⟨t, ht, hpc, hframe, hqueue⟩ := exec_qdrain_spec hu hi
  exact ⟨t, ht, hpc, hframe, fun _ => hqueue⟩

end Sys2Proof.Machine
end

section
/-! PROOF. Traps by instruction, their delivery and the return from a handler, of a gang and of the controller
(R179, R204, R180, R292 to R294). -/

namespace Sys2Proof.Machine

/-! ## `trap`, `brk` and `svc` -/

theorem exec_trapBy {s : State} {i : Instr} {cause : Nat} {n : BitVec 12} (hex : exec i s = trapBy i cause n s) (h : issues i s = true) :
    (s.active s.cur ≠ 0 → exec i s = .next ((s.countIssue s.cur).raise s.cur ⟨cause, 0, n.zeroExtend 64, s.active s.cur, true, 4⟩))
      ∧ (s.active s.cur = 0 → exec i s = .next ((s.countIssue s.cur).advance i)) := by
  rw [hex, trapBy, issue_of_issues _ h]
  simp only [State.countIssue_cur, State.countIssue_active, beq_iff_eq]
  exact ⟨fun ha => if_neg ha, fun ha => if_pos ha⟩

/-! ## The vector table -/

theorem runtimeCause_iff (c : Nat) : runtimeCause c = true ↔ c ∈ [10, 11, 14, 15, 16] := by
  simp [runtimeCause, or_assoc]

/-- The causes that R204 sends to the handler of a valid vector entry. -/
theorem runtimeCause_eq_false {c : Nat} (h : c ∉ [10, 11, 14, 15, 16]) : runtimeCause c = false :=
  Bool.eq_false_iff.mpr (mt (runtimeCause_iff c).mp h)

/-- A handler's address: the entry without its valid bit. -/
theorem truncate_vector (v : DWord) : (v &&& ~~~1).truncate 57 = v.extractLsb' 0 57 &&& ~~~1 := by
  rw [truncate_eq_extractLsb', BitVec.extractLsb'_and]
  rfl

theorem truncate_vector_masked (v : DWord) : (v &&& ~~~1).truncate 57 &&& ~~~1 = v.extractLsb' 0 57 &&& ~~~1 := by
  rw [truncate_vector, BitVec.and_assoc, BitVec.and_self]

theorem Core.vector_of_valid {x : Core} {n : Nat} (h : (tget n 0 x.vectors).getLsbD 0 = true) :
    x.vector n = some (tget n 0 x.vectors &&& ~~~1) := if_pos h

theorem Core.vector_of_invalid {x : Core} {n : Nat} (h : (tget n 0 x.vectors).getLsbD 0 = false) : x.vector n = none :=
  if_neg (ne_true_of_eq_false h)

/-! ## Kill -/

theorem State.noteKill_mem (s : State) (p l : Nat) (bs : List Byte) : (s.noteKill p l bs).mem = s.mem := by
  unfold State.noteKill
  split
  · rfl
  · split <;> rfl

theorem State.noteCrew_mem (s : State) (g : GangId) : (s.noteCrew g).mem = s.mem := by
  unfold State.noteCrew
  dsimp only
  split <;> rfl

theorem State.withdraw_mem (s : State) (g : GangId) : (s.withdraw g).mem = s.mem := rfl

theorem State.killGang_mem (s : State) (g : GangId) (bs : List Byte) : (s.killGang g bs).mem = s.mem := by
  rw [State.killGang, State.modGang_mem, State.withdraw_mem, State.noteCrew_mem, State.noteKill_mem]

/-- A gang that is killed has no lane, both slices ended and no trap left. -/
theorem State.killGang_spec (s : State) (g : GangId) (bs : List Byte) : let y := (s.killGang g bs).gang g
    (s.killGang g bs).mem = s.mem ∧ y.live = 0 ∧ y.aEnd = true ∧ y.cEnd = true ∧ y.mode = .user ∧ y.trapA = none := by
  have hy : (s.killGang g bs).gang g = _ := State.gang_modGang ..
  rw [hy]
  exact ⟨s.killGang_mem g bs, rfl, rfl, rfl, rfl, rfl⟩

/-! ## Delivery to a gang -/

/-- A raised trap that nothing holds back is delivered (R120, R121). -/
theorem execTrapDelivery_of_stopped {s : State} {g : GangId} {r : Raised} {slice : Bool}
    (htrap : (s.gang g).trapA = some r ∧ slice = false ∨ (s.gang g).trapA = none ∧ (s.gang g).trapC = some r ∧ slice = true)
    (hstop : s.stoppedFor g slice = true ∨ slice = false ∧ (s.gang g).mode ≠ .user) (hval : slice = true ∨ s.valuesOut g = false) :
    exec (.trapDelivery g) s = .next (s.deliver g r slice) := by
  have hex : exec (.trapDelivery g) s = execTrapDelivery g s := rfl
  rw [hex, execTrapDelivery]
  rcases htrap with ⟨ha, rfl⟩ | ⟨ha, hc, rfl⟩
  · have hs : (s.gang g).mode ≠ .user ∨ s.stoppedFor g false = true := by simpa [or_comm] using hstop
    have hv : s.valuesOut g = false := by simpa using hval
    simp [ha, hs, hv]
  · have hs : s.stoppedFor g true = true := by simpa using hstop
    simp [ha, hc, hs]

/-- Whether a trap of a gang goes to a handler of its core (R204). -/
def State.handles (s : State) (g : GangId) (cause : Nat) : Prop :=
  (s.gang g).mode = .user ∧ cause ∉ [10, 11, 14, 15, 16] ∧ (tget cause 0 (s.core g.coreId).vectors).getLsbD 0 = true

theorem State.deliver_of_handles {s : State} {g : GangId} {r : Raised} (slice : Bool) (h : s.handles g r.cause) :
    s.deliver g r slice = s.setGang g ((({ s.gang g with record := (s.gang g).recordFor r slice } : Gang).cancelWaits).enter r.lanes
      (tget r.cause 0 (s.core g.coreId).vectors &&& ~~~1) .trap) := by
  obtain ⟨hmode, hcause, hvalid⟩ := h
  simp [State.deliver, hmode, runtimeCause_eq_false hcause, Core.vector_of_valid hvalid]

theorem State.deliver_of_not_handles {s : State} {g : GangId} {r : Raised} (slice : Bool) (h : ¬ s.handles g r.cause) :
    ∃ bs, s.deliver g r slice = s.killGang g bs := by
  unfold State.deliver
  dsimp only
  split
  · exact ⟨_, rfl⟩
  · next hmode =>
    split
    · exact ⟨_, rfl⟩
    · next hcause =>
      have hvalid : (tget r.cause 0 (s.core g.coreId).vectors).getLsbD 0 = false :=
        Bool.eq_false_iff.mpr fun hvalid => h ⟨by simpa using hmode, mt (runtimeCause_iff _).mpr hcause, hvalid⟩
      exact ⟨_, by rw [Core.vector_of_invalid hvalid]⟩

/-- The entry of a handler saves `%exm` in the running fragment's entry, and changes no other part of the fragment table. -/
theorem Gang.saveExm_eq (x : Gang) : x.saveExm = { x with frags := x.saveExm.frags } := by
  unfold Gang.saveExm
  split <;> rfl

theorem Gang.saveExm_frag {x : Gang} {e : Nat} (he : x.cur = some e) : (x.saveExm.frag e).aexm = x.exmA := by
  simp [Gang.saveExm, he]

/-- Entering a handler sets the mode, `%exm`, the program counter and the entry, past what `saveExm` does. -/
theorem Gang.enter_eq (x : Gang) (lanes : Word) (addr : DWord) (e : Entry) : x.enter lanes addr e =
    { x with frags := x.saveExm.frags, mode := .supervisor, exmA := lanes, apc := addr.truncate 57 &&& ~~~1, entry := e } := by
  rw [Gang.enter, Gang.saveExm_eq]

/-! ## Return of a gang -/

/-- Past the instruction where the record says skip and its cause is not one whose resumption is a replay (R125). -/
def TrapRec.past (r : TrapRec) : VAddr := if r.skip ∧ r.cause ≠ 8 then BitVec.ofNat 57 r.len else 0

theorem Gang.select_of_cur {x : Gang} {e : Nat} (he : x.cur = some e) : x.select = x := by
  rw [Gang.select, he]

theorem Gang.with_replay {x : Gang} {h : Option Held} (hr : x.replay = h) : { x with replay := h } = x := by
  subst hr
  rfl

theorem Gang.killLanes_zero {x : Gang} (hr : x.replay = none) : x.killLanes 0 = x := by
  rw [Gang.killLanes, hr, Option.map_none, Gang.with_replay hr]
  exact if_pos BitVec.zero_and

/-- The gang that a return resumes, past the lanes that it kills (R125). -/
def Gang.resumed (x : Gang) (e : Nat) : Gang :=
  { x with mode := .user, entry := .none, stopC := false, exmA := (x.frag e).aexm
           apc := x.record.apc.extractLsb' 0 57 + if x.record.slice then 0 else x.record.past
           cpc := x.record.cpc.extractLsb' 0 57 + if x.record.slice then x.record.past else 0 }

/-- A resumption with no lane to kill and no held access. -/
theorem Gang.resume_eq {x : Gang} {e : Nat} (he : x.cur = some e) (hk : x.record.kill = 0) (hr : x.replay = none) :
    x.resume = x.resumed e := by
  have hreload : x.reloadExm = { x with exmA := (x.frag e).aexm } := by rw [Gang.reloadExm, he]
  have hpast : x.record.past = if x.record.skip && x.record.cause != causeTranslation then BitVec.ofNat 57 x.record.len else 0 := by
    simp [TrapRec.past, causeTranslation]
  have hres : x.resume = ((x.resumed e).killLanes 0).select := by
    rw [Gang.resume, hreload, hk, Gang.resumed, hpast, ← truncate_eq_extractLsb', ← truncate_eq_extractLsb']
    dsimp only
    rw [if_pos (by rw [he]; rfl)]
    cases x.record.slice <;> cases (x.record.skip && x.record.cause != causeTranslation) <;> rfl
  rw [hres, Gang.killLanes_zero (x := x.resumed e) hr, Gang.select_of_cur (x := x.resumed e) he]

theorem State.reissueGang_of_none {s : State} {g : GangId} (h : (s.gang g).replay = none) : s.reissueGang g = s := by
  simp [State.reissueGang, State.reissueHeld, Gang.held, h]

theorem State.gangReturn_trap {s : State} {g : GangId} {e : Nat} (hentry : (s.gang g).entry = .trap) (hk : (s.gang g).record.kill = 0)
    (hr : (s.gang g).replay = none) (he : (s.gang g).cur = some e) : s.gangReturn g = s.modGang g fun x => x.resume := by
  have hres : (s.modGang g fun x => x.resume).gang g = _ := (State.gang_modGang ..).trans (Gang.resume_eq he hk hr)
  have hdead : (s.modGang g fun x => x.resume).checkDeadlock g = s.modGang g fun x => x.resume :=
    State.checkDeadlock_of_cur (e := e) (by rw [hres]; exact he)
  have hheld : (s.modGang g fun x => x.resume).reissueGang g = s.modGang g fun x => x.resume :=
    State.reissueGang_of_none (by rw [hres]; exact hr)
  simp only [State.gangReturn, hentry, hdead, hheld, ite_self]

theorem exec_rft_a {s : State} {g : GangId} (hc : s.cur = .a g) (h : issues .rft s = true) :
    exec .rft s = .next ((s.countIssue (.a g)).gangReturn g) := by
  have hex : exec .rft s = execRft s := rfl
  rw [hex, execRft, issue_of_issues _ h]
  simp only [State.countIssue_cur, hc]

/-! ## The controller -/

theorem exec_controllerTrapDelivery_of_ready {s : State} {c : CluId} {r : Raised} (htrap : (s.clu c).ctl.trap = some r)
    (huse : (s.clu c).ctl.inUse = true) (hpre : (s.clu c).ctl.preempted = false) (hwait : (s.clu c).ctl.wait = none)
    (hmiss : (s.clu c).ctl.miss = none) : exec (.controllerTrapDelivery c) s = .next (s.deliverCtl c r) := by
  have hex : exec (.controllerTrapDelivery c) s = execControllerTrapDelivery c s := rfl
  rw [hex, execControllerTrapDelivery]
  simp [htrap, huse, hpre, hwait, hmiss]

theorem State.deliverCtl_of_handler {s : State} {c : CluId} {r : Raised} (hmode : (s.clu c).ctl.mode = .user)
    (hcause : r.cause ∉ [10, 11, 14, 15, 16]) (hvalid : (tget r.cause 0 (s.core (c.core 0)).vectors).getLsbD 0 = true) :
    s.deliverCtl c r = s.modCtl c fun x => x.enter r (ctlRecord r r.cause (s.clu c).ctl.pc (s.clu c).ctl.aaddr)
      (tget r.cause 0 (s.core (c.core 0)).vectors &&& ~~~1) := by
  simp [State.deliverCtl, hmode, runtimeCause_eq_false hcause, Core.vector_of_valid hvalid]

/-- The record of a trap stands in `m24` to `m27` as the handler reads them (R293). -/
theorem Ctl.readM_enter (x : Ctl) (r : Raised) (rec : List DWord) (addr : DWord) {i : Nat} (hi : i < 4) :
    ((x.enter r rec addr).readM (24 + i)).bits = rec.getD i 0 := by
  have hread : (x.enter r rec addr).readM (24 + i) = tget (24 + i) {} (x.enter r rec addr).sm := by
    simp [Ctl.readM, Ctl.enter]
  have hsm : (x.enter r rec addr).sm = tset 27 ⟨rec.getD 3 0, false⟩ (tset 26 ⟨rec.getD 2 0, false⟩
    (tset 25 ⟨rec.getD 1 0, false⟩ (tset 24 ⟨rec.getD 0 0, false⟩ x.sm))) := rfl
  rw [hread, hsm]
  rcases i with _ | _ | _ | _ | i
  · rw [tget_tset_other _ _ _ _ _ (by decide), tget_tset_other _ _ _ _ _ (by decide), tget_tset_other _ _ _ _ _ (by decide), tget_tset_same]
  · rw [tget_tset_other _ _ _ _ _ (by decide), tget_tset_other _ _ _ _ _ (by decide), tget_tset_same]
  · rw [tget_tset_other _ _ _ _ _ (by decide), tget_tset_same]
  · rw [tget_tset_same]
  · omega

/-- The first word of the controller's record as a number. -/
theorem ctlRecord_head_toNat {r : Raised} {cause : Nat} (rpc : VAddr) (aaddr : Option VAddr) (hc : cause < 2 ^ 8) (hd : r.detail < 2 ^ 8) :
    ((ctlRecord r cause rpc aaddr).getD 0 0).toNat = cause + r.detail * 2 ^ 8 + (if 5 ≤ cause ∧ cause ≤ 7 then 2 ^ 16 else 0) := by
  have hhead : (ctlRecord r cause rpc aaddr).getD 0 0
    = BitVec.ofNat 64 (cause + r.detail * 2 ^ 8 + (if 5 ≤ cause && cause ≤ 7 then 2 ^ 16 else 0)) := rfl
  rw [hhead, BitVec.toNat_ofNat]
  simp only [Bool.and_eq_true, decide_eq_true_eq]
  split <;> omega

theorem exec_rft_m {s : State} {c : CluId} (hc : s.cur = .m c) (h : issues .rft s = true) : ∃ t, exec .rft s = .next t ∧ t.mem = s.mem
    ∧ (t.clu c).ctl = (s.clu c).ctl.resume := by
  have hex : exec .rft s = execRft s := rfl
  rw [hex, execRft, issue_of_issues _ h]
  simp only [State.countIssue_cur, hc]
  exact ⟨_, rfl, rfl, by rw [State.clu_modClu]; rfl⟩

/-- The return from a trap of the controller's own (R294). -/
theorem Ctl.resume_of_own {x : Ctl} (h : (tget 27 ({} : Val) x.sm).bits = 0) : x.resume = { x with
    mode := .user
    pc := (tget 25 ({} : Val) x.sm).bits.extractLsb' 0 57
      + if (tget 24 ({} : Val) x.sm).bits.getLsbD 16 then BitVec.ofNat 57 x.trapLen else 0 } := by
  rw [Ctl.resume, if_pos h, ← truncate_eq_extractLsb']
  cases (tget 24 ({} : Val) x.sm).bits.getLsbD 16 <;> simp

/-! ## The obligation -/

theorem State.deliver_spec {s : State} {g : GangId} {r : Raised} (slice : Bool) (h : s.handles g r.cause) :
    let x := s.gang g
    let t := s.deliver g r slice
    t.mem = s.mem ∧ let y := t.gang g
      y.mode = .supervisor ∧ y.entry = .trap ∧ y.exmA = r.lanes ∧ y.trapA = none ∧ y.trapC = none ∧ y.stopC = true
        ∧ y.apc = (tget r.cause 0 (s.core g.coreId).vectors).extractLsb' 0 57 &&& ~~~1
        ∧ y.record.cause = r.cause ∧ y.record.detail = r.detail ∧ y.record.info = r.info ∧ y.record.lanes = r.lanes
        ∧ y.record.skip = r.skip ∧ y.record.kill = 0 ∧ y.record.slice = slice ∧ y.record.cpc = x.cpc.zeroExtend 64
        ∧ (y.record.apc = if x.cur.isSome then x.apc.zeroExtend 64 else 0)
        ∧ (∀ e, x.cur = some e → (y.frag e).aexm = x.exmA ∧ y.cur = some e)
        ∧ y.a = x.a ∧ y.s = x.s ∧ y.ka = x.ka ∧ y.v = x.v ∧ y.kc = x.kc := by
  intro x t
  have ht : t = _ := State.deliver_of_handles slice h
  refine ⟨by rw [ht]; exact State.setGang_mem .., ?_⟩
  rw [ht, State.gang_setGang, Gang.enter_eq, truncate_vector_masked]
  exact ⟨rfl, rfl, rfl, rfl, rfl, rfl, rfl, rfl, rfl, rfl, rfl, rfl, rfl, rfl, rfl, rfl,
    fun e he => ⟨Gang.saveExm_frag (x := ({ x with record := x.recordFor r slice } : Gang).cancelWaits) he, he⟩, rfl, rfl, rfl, rfl, rfl⟩

theorem State.deliverCtl_spec {s : State} {c : CluId} {r : Raised} (hfault : (s.clu c).ctl.afault = none)
    (hmode : (s.clu c).ctl.mode = .user) (hcause : r.cause ∉ [10, 11, 14, 15, 16])
    (hvalid : (tget r.cause 0 (s.core (c.core 0)).vectors).getLsbD 0 = true) (hc : r.cause < 2 ^ 8) (hd : r.detail < 2 ^ 8) :
    let x := (s.clu c).ctl
    let y := ((s.deliverCtl c r).clu c).ctl
    y.mode = .supervisor ∧ y.trap = none ∧ y.m = x.m
      ∧ y.pc = (tget r.cause 0 (s.core (c.core 0)).vectors).extractLsb' 0 57 &&& ~~~1
      ∧ (y.readM 24).bits.toNat = r.cause + r.detail * 2 ^ 8 + (if 5 ≤ r.cause ∧ r.cause ≤ 7 then 2 ^ 16 else 0)
      ∧ (y.readM 25).bits = x.pc.zeroExtend 64 ∧ (y.readM 26).bits = r.info ∧ (y.readM 27).bits = (x.aaddr.getD 0).zeroExtend 64 := by
  intro x y
  have hy : y = x.enter r (ctlRecord r r.cause x.pc x.aaddr) (tget r.cause 0 (s.core (c.core 0)).vectors &&& ~~~1) := by
    simp only [y, State.deliverCtl_of_handler hmode hcause hvalid, State.ctl_modCtl, x]
  rw [hy]
  exact ⟨rfl, congrArg (Option.map _) hfault, rfl, truncate_vector _,
    (congrArg BitVec.toNat (Ctl.readM_enter x r _ _ (i := 0) (by decide))).trans (ctlRecord_head_toNat _ _ hc hd),
    Ctl.readM_enter x r _ _ (i := 1) (by decide), Ctl.readM_enter x r _ _ (i := 2) (by decide), Ctl.readM_enter x r _ _ (i := 3) (by decide)⟩

/-- `rft` from a trap entry with no lane to kill and nothing held changes the gang as `Gang.resumed` has it. -/
theorem exec_rft_of_trap {s : State} {g : GangId} {e : Nat} (hc : s.cur = .a g) (h : issues .rft s = true) (hentry : (s.gang g).entry = .trap)
    (hk : (s.gang g).record.kill = 0) (hr : (s.gang g).replay = none) (he : (s.gang g).cur = some e) :
    ∃ t, exec .rft s = .next t ∧ t.mem = s.mem ∧ t.gang g = ((s.countIssue (.a g)).gang g).resumed e := by
  have hx := s.gang_countIssue_a g
  have hgang : (s.countIssue (.a g)).gangReturn g = _ := State.gangReturn_trap (by rw [hx]; exact hentry) (by rw [hx]; exact hk)
    (by rw [hx]; exact hr) ((s.countIssue_a_cur g).trans he)
  refine ⟨_, exec_rft_a hc h, ?_, ?_⟩
  · rw [hgang, State.modGang_mem, State.countIssue_mem]
  · rw [hgang, State.gang_modGang]
    exact Gang.resume_eq ((s.countIssue_a_cur g).trans he) (by rw [hx]; exact hk) (by rw [hx]; exact hr)

/-- Settles O42: the instruction's own effect, the delivery and the return of each unit. -/
theorem trapEntryAndReturn : Obligations.TrapEntryAndReturn := by
  unfold Obligations.TrapEntryAndReturn
  refine ⟨?_, ?_, ?_, ?_, ?_⟩
  · intro s i cause n hi h
    obtain ⟨rfl, rfl⟩ | ⟨rfl, rfl⟩ | ⟨rfl, rfl⟩ := hi <;> exact exec_trapBy rfl h
  · intro s g r slice x handler htrap hstop hval
    have hex := execTrapDelivery_of_stopped htrap hstop hval
    refine ⟨fun hh => ⟨_, hex, State.deliver_spec slice hh⟩, fun hh => ?_⟩
    obtain ⟨bs, hbs⟩ := State.deliver_of_not_handles slice hh
    exact ⟨_, hex.trans (congrArg _ hbs), State.killGang_spec s g bs⟩
  · intro s g hc h x
    refine ⟨fun hentry => ?_, fun e hentry hk hr he => ?_⟩
    · have hentry' : ((s.countIssue (.a g)).gang g).entry = .none := by rw [State.gang_countIssue_a]; exact hentry
      rw [exec_rft_a hc h, State.gangReturn, hentry']
    · obtain ⟨t, ht, hmem, hy⟩ := exec_rft_of_trap hc h hentry hk hr he
      refine ⟨t, ht, hmem, ?_⟩
      rw [hy, State.gang_countIssue_a]
      exact ⟨rfl, rfl, rfl, rfl, rfl, rfl, rfl, rfl, rfl, rfl, rfl⟩
  · intro s c r x htrap huse hpre hwait hmiss hfault hmode hcause hvalid hc hd
    refine ⟨_, exec_controllerTrapDelivery_of_ready htrap huse hpre hwait hmiss, ?_, State.deliverCtl_spec hfault hmode hcause hvalid hc hd⟩
    rw [State.deliverCtl_of_handler hmode hcause hvalid]
    rfl
  · intro s c hc h x hown
    obtain ⟨t, ht, hmem, hy⟩ := exec_rft_m hc h
    exact ⟨t, ht, hmem, hy.trans (Ctl.resume_of_own hown)⟩

end Sys2Proof.Machine
end


section
/-! SUPPORT. What a write at its home leaves of the gangs (R217), and the steps that change the dies or the cores alone (R212, R357, R414). -/

namespace Sys2Proof.Machine

/-! ## Tables read entry by entry -/

/-- A change of a whole table that keeps the default under a key is read there as a change of its value. -/
theorem tget_map_keyed {K V : Type} [DecidableEq K] (f : K → V → V) {k : K} {d : V} (hd : f k d = d) (t : Table K V) :
    tget k d (t.map fun e => (e.1, f e.1 e.2)) = f k (tget k d t) := by
  by_cases h : tget k d t = d
  · induction t with
    | nil => exact hd.symm
    | cons e t ih =>
      by_cases hk : e.1 = k
      · simp only [List.map_cons, tget, hk, if_true]
      · simp only [tget, if_neg hk] at h
        simp only [List.map_cons, tget, if_neg hk, ih h]
  · exact tget_map_of_ne f k d t h

theorem mem_of_tfind {K V : Type} [DecidableEq K] {k : K} {v : V} {t : Table K V} (h : tfind k t = some v) : (k, v) ∈ t := by
  induction t with
  | nil => cases h
  | cons e t ih =>
    by_cases hk : e.1 = k
    · simp only [tfind, if_pos hk, Option.some.injEq] at h
      rw [← hk, ← h]
      exact List.mem_cons_self
    · simp only [tfind, if_neg hk] at h
      exact List.mem_cons_of_mem _ (ih h)

theorem mem_of_tget_ne {K V : Type} [DecidableEq K] {k : K} {d : V} {t : Table K V} (h : tget k d t ≠ d) : (k, tget k d t) ∈ t := by
  induction t with
  | nil => exact absurd rfl h
  | cons e t ih =>
    by_cases hk : e.1 = k
    · simp only [tget, if_pos hk]
      rw [← hk]
      exact List.mem_cons_self
    · simp only [tget, if_neg hk] at h ⊢
      exact List.mem_cons_of_mem _ (ih h)

/-! ## What a write at its home does to gangs -/

/-- A change of a gang that neither frees its slot, nor moves it to another context, nor touches one that monitors and awaits nothing. -/
def Gang.Undisturbed (f : Gang → Gang) : Prop :=
  (∀ x, (f x).inUse = x.inUse ∧ (f x).ctx = x.ctx) ∧ ∀ x, x.monitors = [] → x.wait = none → f x = x

theorem Gang.hitMonitor_agent (x : Gang) (e : Nat) (m : Monitor) : (x.hitMonitor e m).inUse = x.inUse ∧ (x.hitMonitor e m).ctx = x.ctx := by
  have hselect (y : Gang) : y.select.inUse = y.inUse ∧ y.select.ctx = y.ctx := by
    obtain ⟨_, _, _, _, _, _, _, h, -⟩ := y.select_frame
    rw [h]
    exact ⟨rfl, rfl⟩
  rw [Gang.hitMonitor]
  split_ifs
  · exact hselect _
  · exact ⟨rfl, rfl⟩

theorem Gang.triggerMonitor_agent (lo hi : Nat) (ms : List (Nat × Monitor)) (x : Gang) :
    (x.triggerMonitor lo hi ms).inUse = x.inUse ∧ (x.triggerMonitor lo hi ms).ctx = x.ctx := by
  induction ms generalizing x with
  | nil => exact ⟨rfl, rfl⟩
  | cons m ms ih =>
    rw [Gang.triggerMonitor, (ih _).1, (ih _).2]
    split_ifs
    · exact x.hitMonitor_agent ..
    · exact ⟨rfl, rfl⟩

/-- Every gang has been changed by one rule that disturbs none. -/
def State.KeepsGangs (s t : State) : Prop := ∃ f, Gang.Undisturbed f ∧ t.gangs = s.gangs.map fun g => (g.1, f g.2)

theorem State.KeepsGangs.of_eq {s t : State} (h : t.gangs = s.gangs) : s.KeepsGangs t :=
  ⟨id, ⟨fun _ => ⟨rfl, rfl⟩, fun _ _ _ => rfl⟩, h.trans (List.map_id _).symm⟩

theorem State.KeepsGangs.trans {s t u : State} (h : s.KeepsGangs t) (h' : t.KeepsGangs u) : s.KeepsGangs u := by
  obtain ⟨f, ⟨hf, hidle⟩, h⟩ := h
  obtain ⟨f', ⟨hf', hidle'⟩, h'⟩ := h'
  refine ⟨f' ∘ f, ⟨fun x => ⟨(hf' _).1.trans (hf x).1, (hf' _).2.trans (hf x).2⟩, fun x hm hw => ?_⟩, ?_⟩
  · rw [Function.comp_apply, hidle x hm hw, hidle' x hm hw]
  · rw [h', h, List.map_map]
    rfl

theorem State.keepsGangs_triggerMonitors (s : State) (k n : Nat) : s.KeepsGangs (s.triggerMonitors k n) :=
  ⟨fun x => if x.monitors.isEmpty then x else x.triggerMonitor (k / 64) ((k + n - 1) / 64) x.monitors,
    ⟨fun x => by dsimp only; split_ifs; exacts [⟨rfl, rfl⟩, x.triggerMonitor_agent ..], fun x hm _ => if_pos (by rw [hm]; rfl)⟩, rfl⟩

theorem State.keepsGangs_fireTriggers (s : State) (k n : Nat) (xs : List (DieId × Die)) : s.KeepsGangs (s.fireTriggers k n xs) := by
  obtain ⟨ds, h⟩ := State.fireTriggers_frame k n xs s
  exact .of_eq (by rw [h])

theorem State.keepsGangs_meetCwaits (s : State) (k n : Nat) : s.KeepsGangs (s.meetCwaits k n) :=
  ⟨fun x => { x with wait := s.metWait k n x.wait }, ⟨fun _ => ⟨rfl, rfl⟩, fun x _ hw => by cases x; cases hw; rfl⟩, rfl⟩

theorem State.keepsGangs_writeHome (s : State) (k : Nat) (bs : List Byte) (p : Bool) : s.KeepsGangs (s.writeHome k bs p) := by
  have hraw : s.KeepsGangs (s.rawWrite k bs p) := .of_eq rfl
  have hset := ((hraw.trans (State.keepsGangs_triggerMonitors _ k bs.length)).trans (State.keepsGangs_fireTriggers _ k bs.length
    ((s.rawWrite k bs p).triggerMonitors k bs.length).dies)).trans (State.keepsGangs_meetCwaits _ k bs.length)
  simp only [State.writeHome]
  split
  · exact hraw
  · split
    · exact hset.trans (.of_eq rfl)
    · exact hset

theorem State.KeepsGangs.ctxGangs {s t : State} (h : s.KeepsGangs t) (p ctx : Nat) : t.ctxGangs p ctx = s.ctxGangs p ctx := by
  obtain ⟨f, ⟨hf, -⟩, h⟩ := h
  rw [State.ctxGangs, h, List.filter_map, List.map_map, State.ctxGangs]
  congr 1
  exact List.filter_congr fun g _ => by simp only [Function.comp_apply, hf]

/-- A gang that monitors and awaits nothing is as it was. -/
theorem State.KeepsGangs.gang_of_idle {s t : State} (h : s.KeepsGangs t) {g : GangId} (hm : (s.gang g).monitors = [])
    (hw : (s.gang g).wait = none) : t.gang g = s.gang g := by
  obtain ⟨f, ⟨-, hidle⟩, h⟩ := h
  rw [State.gang, h, tget_map_keyed (fun _ => f) (hidle {} rfl rfl)]
  exact hidle _ hm hw

/-- Every gang of a context on a package is in the table of gangs. -/
theorem State.mem_ctxGangs {s : State} {p ctx : Nat} {g : GangId} :
    g ∈ s.ctxGangs p ctx ↔ ∃ x, (g, x) ∈ s.gangs ∧ g.pkg = p ∧ x.inUse = true ∧ x.ctx = ctx := by
  simp only [State.ctxGangs, List.mem_map, List.mem_filter, Bool.and_eq_true, decide_eq_true_eq, and_assoc]
  exact ⟨fun ⟨⟨_, x⟩, hmem, hp, hu, hc, rfl⟩ => ⟨x, hmem, hp, hu, hc⟩, fun ⟨x, hmem, hp, hu, hc⟩ => ⟨(g, x), hmem, hp, hu, hc, rfl⟩⟩

/-- What a change of the gangs named in a list makes of one of them that is in the table. -/
theorem tget_map_of_mem {K V : Type} [DecidableEq K] {ks : List K} (f : V → V) {P : V → Prop} (hP : ∀ v, P (f v)) {k : K} (hk : k ∈ ks) {d : V}
    {t : Table K V} (h : ∃ v, (k, v) ∈ t) : P (tget k d (t.map fun e => (e.1, if ks.contains e.1 then f e.2 else e.2))) := by
  obtain ⟨v, hv⟩ := h
  induction t with
  | nil => cases hv
  | cons e t ih =>
    by_cases he : e.1 = k
    · simp only [List.map_cons, tget, if_pos he]
      rw [if_pos (by simpa [he] using hk)]
      exact hP _
    · simp only [List.map_cons, tget, if_neg he]
      refine ih ((List.mem_cons.mp hv).resolve_left fun h => he (by rw [← h]))

/-! ## Numbers of clusters that pass on, and queue instructions withdrawn, change the dies alone -/

theorem State.passNumber_frame (s : State) (d : DieId) (p : Nat) : ∃ ds, s.passNumber d p = { s with dies := ds } := by
  unfold State.passNumber
  dsimp only
  repeat' split
  all_goals exact ⟨_, rfl⟩

/-- Steps that change the dies alone change the dies alone one after another. -/
theorem State.foldl_dies {α : Type} (f : State → α → State) (hf : ∀ s x, ∃ ds, f s x = { s with dies := ds }) (xs : List α) (s : State) :
    ∃ ds, xs.foldl f s = { s with dies := ds } := by
  induction xs generalizing s with
  | nil => exact ⟨_, rfl⟩
  | cons x xs ih =>
    obtain ⟨ds, h⟩ := hf s x
    obtain ⟨ds', h'⟩ := ih (f s x)
    exact ⟨ds', by rw [List.foldl_cons, h', h]⟩

theorem State.passNumbers_frame (d : DieId) (ps : List Nat) (s : State) : ∃ ds, s.passNumbers d ps = { s with dies := ds } := by
  induction ps generalizing s with
  | nil => exact ⟨_, rfl⟩
  | cons p ps ih =>
    obtain ⟨ds, h⟩ := s.passNumber_frame d p
    obtain ⟨ds', h'⟩ := ih (s.passNumber d p)
    exact ⟨ds', by rw [State.passNumbers, h', h]⟩

theorem State.passAll_frame (s : State) (p : Nat) : ∃ ds, s.passAll p = { s with dies := ds } :=
  State.foldl_dies _ (fun s d => by
    split
    · exact State.passNumbers_frame ..
    · exact ⟨_, rfl⟩) s.dies s

theorem State.withdrawQueue_frame (s : State) (g : GangId) : ∃ ds, s.withdrawQueue g = { s with dies := ds } := by
  unfold State.withdrawQueue
  split <;> exact ⟨_, rfl⟩

theorem State.withdrawQueues_frame (gs : List GangId) (s : State) : ∃ ds, s.withdrawQueues gs = { s with dies := ds } := by
  induction gs generalizing s with
  | nil => exact ⟨_, rfl⟩
  | cons g gs ih =>
    obtain ⟨ds, h⟩ := s.withdrawQueue_frame g
    obtain ⟨ds', h'⟩ := ih (s.withdrawQueue g)
    exact ⟨ds', by rw [State.withdrawQueues, h', h]⟩

theorem State.setPartition_frame (v : Bool) (xs : List Launch) (s : State) : ∃ cs, s.setPartition v xs = { s with cores := cs } := by
  induction xs generalizing s with
  | nil => exact ⟨_, rfl⟩
  | cons x xs ih =>
    have hstep : ∀ t : State, (∃ cs, t = { s with cores := cs }) → ∃ cs, t.setPartition v xs = { s with cores := cs } := by
      rintro t ⟨cs, rfl⟩
      obtain ⟨cs', h'⟩ := ih { s with cores := cs }
      exact ⟨cs', h'⟩
    rw [State.setPartition]
    apply hstep
    split
    · split
      · exact ⟨_, rfl⟩
      · exact State.foldl_cores _ (fun _ _ => ⟨_, rfl⟩) _ _
    · exact ⟨_, rfl⟩

end Sys2Proof.Machine
end

section
/-! SUPPORT. A save from its request to its image (R212, R397, R398, R410). -/

namespace Sys2Proof.Machine

/-! ## The request (R397) -/

theorem execPreemptWrite_of_preempt {s t : State} {p : Nat} {v : DWord} (h : s.preempt p (v.toNat % 2 ^ 16) (s.pkg p).imgaddr = t) :
    exec (.preemptWrite p v) s = .next t := congrArg Host.Outcome.next h

/-- A number that names no context, or one that is being saved or held already, has no effect. -/
theorem State.preempt_ignored {s : State} {p ctx : Nat} (addr : DWord)
    (h : ctx = 0 ∨ 4095 < ctx ∨ (s.pkg p).cstate = 1 ∧ (s.pkg p).cctx = ctx ∨ ∃ h ∈ (s.pkg p).heldPre, h.1 = ctx) : s.preempt p ctx addr = s := by
  refine if_pos ?_
  simpa [or_assoc] using h

/-- A number that names a free context: whether its save has to be held decides. -/
theorem State.preempt_of_free {s : State} {p ctx : Nat} (addr : DWord) (hlo : 1 ≤ ctx) (hhi : ctx ≤ 4095) (hheld : ∀ h ∈ (s.pkg p).heldPre, h.1 ≠ ctx)
    (hsaving : ¬ ((s.pkg p).cstate = 1 ∧ (s.pkg p).cctx = ctx)) : s.preempt p ctx addr =
      if ((s.pkg p).cstate = 1 ∨ (s.pkg p).cstate = 3) ∨ (s.pkg p).heldPre ≠ [] then s.modPkg p fun x => { x with heldPre := x.heldPre ++ [(ctx, addr)] }
      else s.startSave p ctx addr.toNat := by
  have hnamed : ¬ ((ctx = 0 || ctx > 4095 || ((s.pkg p).cstate = 1 && (s.pkg p).cctx = ctx || (s.pkg p).heldPre.any fun h => h.1 == ctx)) = true) := by
    simp only [Bool.or_eq_true, decide_eq_true_eq, Bool.and_eq_true, List.any_eq_true, beq_iff_eq, not_or, not_exists, not_and]
    exact ⟨⟨by omega, by omega⟩, fun h1 h2 => hsaving ⟨h1, h2⟩, hheld⟩
  rw [State.preempt, if_neg hnamed]
  simp only [Bool.or_eq_true, decide_eq_true_eq, Bool.not_eq_true', List.isEmpty_eq_false_iff]

/-- With no save or restore under way and none held, it starts. -/
theorem State.preempt_starts {s : State} {p ctx : Nat} (addr : DWord) (hlo : 1 ≤ ctx) (hhi : ctx ≤ 4095) (h1 : (s.pkg p).cstate ≠ 1)
    (h3 : (s.pkg p).cstate ≠ 3) (hnil : (s.pkg p).heldPre = []) : s.preempt p ctx addr = s.startSave p ctx addr.toNat := by
  rw [State.preempt_of_free addr hlo hhi (by simp [hnil]) fun h => h1 h.1, if_neg]
  rintro ((h | h) | h)
  exacts [h1 h, h3 h, h hnil]

/-- Behind a save of another context, a restore or others that are held, it is held. -/
theorem State.preempt_holds {s : State} {p ctx : Nat} (addr : DWord) (hlo : 1 ≤ ctx) (hhi : ctx ≤ 4095) (hheld : ∀ h ∈ (s.pkg p).heldPre, h.1 ≠ ctx)
    (h : (s.pkg p).cstate = 3 ∨ (s.pkg p).cstate = 1 ∧ (s.pkg p).cctx ≠ ctx ∨ (s.pkg p).cstate ≠ 1 ∧ (s.pkg p).heldPre ≠ []) :
    s.preempt p ctx addr = s.modPkg p fun x => { x with heldPre := x.heldPre ++ [(ctx, addr)] } := by
  have hsaving : ¬ ((s.pkg p).cstate = 1 ∧ (s.pkg p).cctx = ctx) := by omega
  rw [State.preempt_of_free addr hlo hhi hheld hsaving, if_pos]
  rcases h with h | ⟨h, -⟩ | ⟨-, h⟩
  exacts [.inl (.inr h), .inl (.inl h), .inr h]

/-- An address that the image does not fit has no effect (log entry 18). -/
theorem State.startSave_of_fault {s : State} {p ctx addr : Nat} (h : saveFault addr (s.lengthNow p ctx) ((s.pkg p).durable ctx) = true) :
    s.startSave p ctx addr = s := if_pos h

theorem State.setPreempted_gang (s : State) (p : Nat) (ctx : Nat → Bool) (v : Bool) {g : GangId} (hp : g.pkg = p) (hu : (s.gang g).inUse = true)
    (hc : ctx (s.gang g).ctx = true) : (s.setPreempted p ctx v).gang g = { s.gang g with preempted := v } := by
  have hne : s.gang g ≠ {} := fun h => by simp [h] at hu
  exact (tget_map_of_ne (fun (g : GangId) (x : Gang) => if g.pkg = p && ctx x.ctx then { x with preempted := v } else x) g {} s.gangs hne).trans
    (if_pos (by rw [Bool.and_eq_true]; exact ⟨decide_eq_true hp, hc⟩))

theorem State.setPreempted_clu (s : State) (p : Nat) (ctx : Nat → Bool) (v : Bool) {c : CluId} (hp : c.pkg = p) (hu : (s.clu c).ctl.inUse = true)
    (hc : ctx (s.clu c).ctl.ctx = true) : (s.setPreempted p ctx v).clu c = { s.clu c with ctl := { (s.clu c).ctl with preempted := v } } := by
  have hne : s.clu c ≠ {} := fun h => by simp [h] at hu
  exact (tget_map_of_ne (fun (c : CluId) (x : Clu) => if c.pkg = p && ctx x.ctl.ctx then { x with ctl := { x.ctl with preempted := v } } else x)
    c {} s.clus hne).trans (if_pos (by rw [Bool.and_eq_true]; exact ⟨decide_eq_true hp, hc⟩))

/-- A save that starts fixes its image's address and length and stops the context's agents. -/
theorem State.startSave_spec {s : State} {p ctx addr : Nat} (h : saveFault addr (s.lengthNow p ctx) ((s.pkg p).durable ctx) = false) :
    let t := s.startSave p ctx addr
    t.mem = s.mem ∧ (t.pkg p).cstate = 1 ∧ (t.pkg p).cctx = ctx
      ∧ ((t.pkg p).saving.map fun sv => (sv.ctx, sv.addr, sv.durable, sv.length)) = some (ctx, addr, (s.pkg p).durable ctx, s.lengthNow p ctx)
      ∧ (∀ g, g.pkg = p → (s.gang g).inUse = true → (s.gang g).ctx = ctx → (t.gang g).preempted = true)
      ∧ ∀ c, c.pkg = p → (s.clu c).ctl.inUse = true → (s.clu c).ctl.ctx = ctx → (t.clu c).ctl.preempted = true := by
  intro t
  let b : State := s.modPkg p fun x => { x with
    cstate := 1, cctx := ctx
    saving := some { ctx := ctx, addr := addr, durable := (s.pkg p).durable ctx, length := s.lengthNow p ctx
                     second := if (s.pkg p).durable ctx then secondCopy addr (s.lengthNow p ctx) else 0 } }
  have ht : t = (b.setPreempted p (fun c => c == ctx) true).dropMerges p ctx := if_neg (by rw [h]; exact Bool.false_ne_true)
  have hpkg : t.pkg p = b.pkg p := by rw [ht]; rfl
  rw [hpkg, State.pkg_modPkg]
  refine ⟨by rw [ht]; rfl, rfl, rfl, rfl, fun g hp hu hc => ?_, fun c hp hu hc => ?_⟩
  · rw [ht]
    exact congrArg Gang.preempted (b.setPreempted_gang p (fun c => c == ctx) true hp hu (beq_iff_eq.mpr hc))
  · rw [ht]
    exact congrArg (fun x : Clu => x.ctl.preempted) (b.setPreempted_clu p (fun c => c == ctx) true hp hu (beq_iff_eq.mpr hc))

theorem execPreemptHeldStart_cons {s : State} {p : Nat} {h : Nat × DWord} {hs : List (Nat × DWord)} (hheld : (s.pkg p).heldPre = h :: hs) :
    exec (.preemptHeldStart p) s = if (s.pkg p).cstate = 1 ∨ (s.pkg p).cstate = 3 then .next s
      else .next ((s.modPkg p fun x => { x with heldPre := hs }).startSave p h.1 h.2.toNat) := by
  have hex : exec (.preemptHeldStart p) s = execPreemptHeldStart p s := rfl
  rw [hex, execPreemptHeldStart, hheld]
  simp only [Bool.or_eq_true, decide_eq_true_eq]

/-! ## The capture (R212, R398) -/

theorem hbmKey_add (p a n : Nat) : hbmKey p (a + n) = hbmKey p a + n := (Nat.add_assoc _ _ _).symm

@[simp] theorem State.markLines_gangs (s : State) (p addr : Nat) (ls : List Nat) : (s.markLines p addr ls).gangs = s.gangs := rfl
@[simp] theorem State.markLines_flight (s : State) (p addr : Nat) (ls : List Nat) : (s.markLines p addr ls).flight = s.flight := rfl
@[simp] theorem State.markLines_mem (s : State) (p addr : Nat) (ls : List Nat) : (s.markLines p addr ls).mem = s.mem := rfl

theorem State.writeSections_keeps (s : State) (p : Nat) (sv : Saved) (addr : Nat) :
    s.KeepsGangs (s.writeSections p sv addr) ∧ (s.writeSections p sv addr).flight = s.flight := by
  obtain ⟨hflight, -, -⟩ := s.keepsFlight_writeHome (hbmKey p (addr + 128)) sv.body false
  rw [State.writeSections, State.markLines_flight]
  exact ⟨(s.keepsGangs_writeHome _ _ _).trans (.of_eq (State.markLines_gangs ..)), hflight⟩

/-- Bytes are read from memory alone. -/
theorem State.readBytes_of_mem {s t : State} (h : t.mem = s.mem) (n k : Nat) : t.readBytes k n = s.readBytes k n := by
  induction n generalizing k with
  | zero => rfl
  | succ n ih => simp only [State.readBytes, State.readByte, h, ih]

/-- The sections read back from where they are written. -/
theorem State.writeSections_readBytes {s : State} (p : Nat) (sv : Saved) (addr : Nat) (h : s.Inv) :
    (s.writeSections p sv addr).readBytes (hbmKey p (addr + 128)) sv.body.length = sv.body := by
  have hmem : (s.writeSections p sv addr).mem = (s.writeHome (hbmKey p (addr + 128)) sv.body false).mem :=
    State.markLines_mem ..
  rw [State.readBytes_of_mem hmem]
  exact State.readBytes_eq _ _ _ fun i hi => s.writeHome_readByte_inside _ i _ _ h hi

/-- The image that a capture on a package takes for a save. -/
def State.captureOf (s : State) (p : Nat) (sv : Saved) : Saved :=
  let t := s.withdrawQueues (s.ctxGangs p sv.ctx)
  let w := { t.capture p sv with id := t.nextId + 1 }
  { w with poisoned := w.poisonedLines t.clock }

/-- The state once a captured context's agents hold nothing any more. -/
def State.shedFor (s : State) (p : Nat) (w : Saved) : State :=
  let t := s.withdrawQueues (s.ctxGangs p w.ctx)
  { t with clock := t.clock + w.length / 64 }.shed (s.ctxGangs p w.ctx) (t.ctxCtls p w.ctx)

/-- The state once the sections of a captured image are written, in both copies of one that is durable. -/
def State.imageWritten (s : State) (p : Nat) (w : Saved) : State :=
  let t := (s.shedFor p w).writeSections p w w.addr
  if w.durable then t.writeSections p w w.second else t

/-- The state after a capture. -/
def State.captured (s : State) (p : Nat) (sv : Saved) : State :=
  let t := s.imageWritten p (s.captureOf p sv)
  { t with nextId := t.nextId + 1 }.modPkg p fun x => { x with saving := some (s.captureOf p sv) }

theorem execContextCapture_waits {s : State} {p : Nat} {sv : Saved} (hsv : (s.pkg p).saving = some sv)
    (h : (∃ g ∈ s.ctxGangs p sv.ctx, s.gangQuiet g = false) ∨ (∃ c ∈ s.ctxCtls p sv.ctx, (s.clu c).ctl.begun = true) ∨ s.imageWaits p sv = true) :
    exec (.contextCapture p) s = .next s := by
  have hex : exec (.contextCapture p) s = execContextCapture p s := rfl
  rw [hex, execContextCapture, hsv]
  refine if_pos ?_
  simp only [Bool.or_eq_true, Bool.not_eq_true', List.all_eq_false, List.any_eq_true, Bool.not_eq_true]
  rcases h with h | h | h
  · exact .inl (.inl (.inr h))
  · exact .inl (.inr h)
  · exact .inr h

theorem execContextCapture_captures {s : State} {p : Nat} {sv : Saved} (hsv : (s.pkg p).saving = some sv) (hid : sv.id = 0)
    (hquiet : ∀ g ∈ s.ctxGangs p sv.ctx, s.gangQuiet g = true) (hbegun : ∀ c ∈ s.ctxCtls p sv.ctx, (s.clu c).ctl.begun = false)
    (hplace : s.imageWaits p sv = false) : exec (.contextCapture p) s = .next (s.captured p sv) := by
  have hex : exec (.contextCapture p) s = execContextCapture p s := rfl
  rw [hex, execContextCapture, hsv]
  refine (if_neg ?_).trans rfl
  simp only [Bool.or_eq_true, bne_iff_ne, Bool.not_eq_true', List.all_eq_false, List.any_eq_true, not_or, not_exists, not_and, hid, hplace]
  exact ⟨⟨⟨by simp, fun g hg => by simp [hquiet g hg]⟩, fun c hc => by simp [hbegun c hc]⟩, Bool.false_ne_true⟩

theorem State.captureOf_spec (s : State) (p : Nat) (sv : Saved) : let w := s.captureOf p sv
    w.id = s.nextId + 1 ∧ w.ctx = sv.ctx ∧ w.addr = sv.addr ∧ w.durable = sv.durable ∧ w.length = sv.length ∧ w.second = sv.second := by
  obtain ⟨ds, h⟩ := State.withdrawQueues_frame (s.ctxGangs p sv.ctx) s
  refine ⟨?_, rfl, rfl, rfl, rfl, rfl⟩
  show (s.withdrawQueues _).nextId + 1 = _
  rw [h]

theorem State.shedFor_flight (s : State) (p : Nat) (w : Saved) : ∀ a ∈ (s.shedFor p w).flight, a.gang ∉ s.ctxGangs p w.ctx := by
  intro a ha
  have hout := (List.mem_filter.mp ha).2
  simpa using hout

/-- A captured gang leaves its place and its records alone. -/
theorem State.shedFor_gang (s : State) (p : Nat) (w : Saved) {g : GangId} (hg : g ∈ s.ctxGangs p w.ctx) : ∃ x, (s.shedFor p w).gang g = Gang.husk x := by
  obtain ⟨ds, h⟩ := State.withdrawQueues_frame (s.ctxGangs p w.ctx) s
  obtain ⟨x, hx, -⟩ := State.mem_ctxGangs.mp hg
  refine tget_map_of_mem (P := fun v => ∃ x, v = Gang.husk x) Gang.husk (fun v => ⟨v, rfl⟩) hg ⟨x, ?_⟩
  show (g, x) ∈ (s.withdrawQueues (s.ctxGangs p w.ctx)).gangs
  rw [h]
  exact hx

theorem State.shedFor_inv {s : State} (p : Nat) (w : Saved) (h : s.Inv) : (s.shedFor p w).Inv := by
  obtain ⟨ds, hd⟩ := State.withdrawQueues_frame (s.ctxGangs p w.ctx) s
  show (s.withdrawQueues (s.ctxGangs p w.ctx)).Inv
  rw [hd]
  exact h

theorem State.imageWritten_keeps (s : State) (p : Nat) (w : Saved) :
    (s.shedFor p w).KeepsGangs (s.imageWritten p w) ∧ (s.imageWritten p w).flight = (s.shedFor p w).flight := by
  obtain ⟨hg, hf⟩ := (s.shedFor p w).writeSections_keeps p w w.addr
  unfold State.imageWritten
  dsimp only
  split
  · obtain ⟨hg', hf'⟩ := ((s.shedFor p w).writeSections p w w.addr).writeSections_keeps p w w.second
    exact ⟨hg.trans hg', hf'.trans hf⟩
  · exact ⟨hg, hf⟩

/-- No captured gang has an access on its way, a signal held or anything that it waits for. -/
theorem State.imageWritten_agents (s : State) (p : Nat) (w : Saved) : (∀ a ∈ (s.imageWritten p w).flight, a.gang ∉ s.ctxGangs p w.ctx)
    ∧ ∀ g ∈ s.ctxGangs p w.ctx, ((s.imageWritten p w).gang g).heldSignals = [] ∧ ((s.imageWritten p w).gang g).wait = none := by
  obtain ⟨hkeeps, hflight⟩ := s.imageWritten_keeps p w
  refine ⟨fun a ha => s.shedFor_flight p w a (hflight ▸ ha), fun g hg => ?_⟩
  obtain ⟨x, hx⟩ := s.shedFor_gang p w hg
  rw [hkeeps.gang_of_idle (by rw [hx]; rfl) (by rw [hx]; rfl), hx]
  exact ⟨rfl, rfl⟩

theorem State.imageWritten_readBytes {s : State} (p : Nat) {w : Saved} (h : s.Inv) (hd : w.durable = false) :
    (s.imageWritten p w).readBytes (hbmKey p (w.addr + 128)) w.body.length = w.body := by
  have hw : s.imageWritten p w = (s.shedFor p w).writeSections p w w.addr := if_neg (by rw [hd]; exact Bool.false_ne_true)
  rw [hw]
  exact State.writeSections_readBytes p w w.addr (State.shedFor_inv p w h)

/-- What a capture that nothing holds back does. -/
theorem execContextCapture_spec {s : State} {p : Nat} {sv : Saved} (hsv : (s.pkg p).saving = some sv) (hid : sv.id = 0)
    (hquiet : ∀ g ∈ s.ctxGangs p sv.ctx, s.gangQuiet g = true) (hbegun : ∀ c ∈ s.ctxCtls p sv.ctx, (s.clu c).ctl.begun = false)
    (hplace : s.imageWaits p sv = false) : ∃ t w, exec (.contextCapture p) s = .next t ∧ (t.pkg p).saving = some w
      ∧ w.id = s.nextId + 1 ∧ w.ctx = sv.ctx ∧ w.addr = sv.addr ∧ w.durable = sv.durable ∧ w.length = sv.length ∧ w.second = sv.second
      ∧ (∀ a ∈ t.flight, a.gang ∉ s.ctxGangs p sv.ctx) ∧ (∀ g ∈ s.ctxGangs p sv.ctx, (t.gang g).heldSignals = [] ∧ (t.gang g).wait = none)
      ∧ (s.Inv → sv.durable = false → t.readBytes (hbmKey p (sv.addr + 128)) w.body.length = w.body) := by
  obtain ⟨hid', hctx, haddr, hdur, hlen, hsec⟩ := s.captureOf_spec p sv
  obtain ⟨hflight, hgangs⟩ := s.imageWritten_agents p (s.captureOf p sv)
  rw [hctx] at hflight hgangs
  have hmem : (s.captured p sv).mem = (s.imageWritten p (s.captureOf p sv)).mem := rfl
  refine ⟨_, s.captureOf p sv, execContextCapture_captures hsv hid hquiet hbegun hplace,
    by rw [State.captured, State.pkg_modPkg], hid', hctx, haddr, hdur, hlen, hsec, hflight, hgangs, fun hinv hd => ?_⟩
  rw [State.readBytes_of_mem hmem, ← haddr]
  exact State.imageWritten_readBytes p hinv (hdur.trans hd)

end Sys2Proof.Machine
end

section
/-! SUPPORT. The image of a context completed (R397, R398, R410). -/

namespace Sys2Proof.Machine

/-! ## The header read back (R397) -/

/-- A number among the bytes of a write reads back from its place, cut to its bytes. -/
theorem State.writeHome_readNum_within {s : State} (k : Nat) {bs xs ys : List Byte} {o v n : Nat} (p : Bool) (h : s.Inv) (ho : xs.length = o)
    (hbs : bs = xs ++ (bytesOfNum v n ++ ys)) : (s.writeHome k bs p).readNum (k + o) n = v % 2 ^ (8 * n) := by
  subst ho
  have hread : (s.writeHome k bs p).readBytes (k + xs.length) (bytesOfNum v n).length = bytesOfNum v n := by
    refine State.readBytes_eq _ _ _ fun i hi => ?_
    rw [Nat.add_assoc, s.writeHome_readByte_inside k (xs.length + i) bs p h (by rw [hbs]; simp only [List.length_append]; omega), hbs,
      List.getD_append_right _ _ _ _ (Nat.le_add_right ..), Nat.add_sub_cancel_left, List.getD_append _ _ _ _ hi]
  rw [bytesOfNum_length] at hread
  rw [State.readNum, hread, numOf_bytesOfNum, Nat.pow_mul]

/-- The header names itself, its context, its length and, once complete, that it is. -/
theorem State.writeHome_imageHeader {s : State} (k : Nat) {sv : Saved} (now : Nat) (h : s.Inv) (hd : sv.durable = false) (hctx : sv.ctx < 2 ^ 16)
    (hlen : sv.length < 2 ^ 64) : let t := s.writeHome k (imageHeader sv now true) false
    t.readNum k 4 = 0x45584943 ∧ t.readNum (k + 6) 2 = sv.ctx ∧ t.readNum (k + 8) 8 = sv.length ∧ t.readNum (k + 16) 4 = 2 := by
  intro t
  let tail : List Byte := bytesOfNum 0 4 ++ (bytesOfNum now 8 ++ (bytesOfNum sv.second 8 ++ List.replicate 88 0))
  have hheader : imageHeader sv now true = bytesOfNum 0x45584943 4 ++ (bytesOfNum 1 2 ++ (bytesOfNum sv.ctx 2 ++ (bytesOfNum sv.length 8
      ++ (bytesOfNum (bitNum sv.durable 0 + bitNum true 1) 4 ++ tail)))) := by simp only [imageHeader, tail, List.append_assoc]
  refine ⟨?_, ?_, ?_, ?_⟩
  · have hread := State.writeHome_readNum_within (xs := []) (v := 0x45584943) (n := 4) k false h rfl hheader
    rwa [Nat.mod_eq_of_lt (by decide)] at hread
  · exact (State.writeHome_readNum_within (xs := bytesOfNum 0x45584943 4 ++ bytesOfNum 1 2) (v := sv.ctx) (n := 2) k false h (by simp)
      (by rw [hheader]; simp only [List.append_assoc]; rfl)).trans (Nat.mod_eq_of_lt hctx)
  · exact (State.writeHome_readNum_within (xs := bytesOfNum 0x45584943 4 ++ bytesOfNum 1 2 ++ bytesOfNum sv.ctx 2) (v := sv.length) (n := 8) k false h
      (by simp) (by rw [hheader]; simp only [List.append_assoc]; rfl)).trans (Nat.mod_eq_of_lt hlen)
  · rw [hd] at hheader
    exact State.writeHome_readNum_within (xs := bytesOfNum 0x45584943 4 ++ bytesOfNum 1 2 ++ bytesOfNum sv.ctx 2 ++ bytesOfNum sv.length 8)
      (v := 2) (n := 4) k false h (by simp) (by rw [hheader]; simp only [List.append_assoc]; rfl)

/-! ## The units freed (R398) -/

/-- The state once the headers are written and the units of the context are free. -/
def State.imageFreed (s : State) (p : Nat) (sv : Saved) : State :=
  let h := imageHeader sv (s.pkg p).time true
  let t := s.writeHome (hbmKey p sv.addr) h false
  let t := if sv.durable then t.writeHome (hbmKey p sv.second) h false else t
  ((t.freeUnits p sv).setPartition false (sv.launches.map (·.launch))).passAll p

/-- The state once an image is complete. -/
def State.imageCompleted (s : State) (p : Nat) (sv : Saved) : State :=
  let t := (s.imageFreed p sv).modPkg p fun x => { x with launches := x.launches.map fun (l : Nat × Launch) =>
    (l.1, if l.2.ctx == sv.ctx then { l.2 with saved := true } else l.2) }
  (t.modPkg p fun x => { x with cstate := 2, saving := none, images := x.images ++ [sv] }).interrupt p 79

theorem execContextImageComplete_completes {s : State} {p : Nat} {sv : Saved} (hsv : (s.pkg p).saving = some sv) (hid : sv.id ≠ 0)
    (hplace : s.imageWaits p sv = false) : exec (.contextImageComplete p) s = .next (s.imageCompleted p sv) := by
  have hex : exec (.contextImageComplete p) s = execContextImageComplete p s := rfl
  rw [hex, execContextImageComplete, hsv]
  exact (if_neg (by simp [hid, hplace])).trans rfl

theorem State.freeUnits_gang {s : State} {p : Nat} {sv : Saved} {g : GangId} (hg : g ∈ s.ctxGangs p sv.ctx) :
    ((s.freeUnits p sv).gang g).inUse = false := by
  obtain ⟨x, hx, -⟩ := State.mem_ctxGangs.mp hg
  exact tget_map_of_mem (P := fun v : Gang => v.inUse = false) (fun x : Gang => { record := x.record, ft := x.ft }) (fun _ => rfl) hg ⟨x, hx⟩

/-- What the freeing of units sets off reaches neither memory nor the gangs. -/
theorem State.freed_keeps (s : State) (p : Nat) (sv : Saved) (xs : List Launch) :
    let t := ((s.freeUnits p sv).setPartition false xs).passAll p
    t.mem = s.mem ∧ t.gangs = (s.freeUnits p sv).gangs := by
  obtain ⟨cs, hpart⟩ := State.setPartition_frame false xs (s.freeUnits p sv)
  obtain ⟨ds, hpass⟩ := ((s.freeUnits p sv).setPartition false xs).passAll_frame p
  intro t
  have ht : t = { ({ s.freeUnits p sv with cores := cs } : State) with dies := ds } := by rw [← hpart]; exact hpass
  rw [ht]
  exact ⟨rfl, rfl⟩

theorem State.imageFreed_keeps {s : State} {p : Nat} {sv : Saved} (hd : sv.durable = false) :
    (s.imageFreed p sv).mem = (s.writeHome (hbmKey p sv.addr) (imageHeader sv (s.pkg p).time true) false).mem
      ∧ ∀ g ∈ s.ctxGangs p sv.ctx, ((s.imageFreed p sv).gang g).inUse = false := by
  have heq : s.imageFreed p sv = (((s.writeHome (hbmKey p sv.addr) (imageHeader sv (s.pkg p).time true) false).freeUnits p sv).setPartition false
      (sv.launches.map (·.launch))).passAll p := by
    simp only [State.imageFreed, hd, Bool.false_eq_true, if_false]
  have hwritten := s.keepsGangs_writeHome (hbmKey p sv.addr) (imageHeader sv (s.pkg p).time true) false
  obtain ⟨hmem, hgangs⟩ := (s.writeHome (hbmKey p sv.addr) (imageHeader sv (s.pkg p).time true) false).freed_keeps p sv (sv.launches.map (·.launch))
  rw [heq]
  refine ⟨hmem, fun g hg => ?_⟩
  rw [State.gang, hgangs]
  exact State.freeUnits_gang (by rwa [hwritten.ctxGangs])

@[simp] theorem Pkg.interrupt_cstate (x : Pkg) (n : Nat) : (x.interrupt n).cstate = x.cstate := by
  unfold Pkg.interrupt
  dsimp only
  split <;> rfl

@[simp] theorem Pkg.interrupt_saving (x : Pkg) (n : Nat) : (x.interrupt n).saving = x.saving := by
  unfold Pkg.interrupt
  dsimp only
  split <;> rfl

@[simp] theorem State.pkg_interrupt (s : State) (p n : Nat) : (s.interrupt p n).pkg p = (s.pkg p).interrupt n := State.pkg_modPkg ..

/-- What the completion of an image that is not durable does. -/
theorem execContextImageComplete_spec {s : State} {p : Nat} {sv : Saved} (hsv : (s.pkg p).saving = some sv) (hinv : s.Inv) (hid : sv.id ≠ 0)
    (hplace : s.imageWaits p sv = false) (hd : sv.durable = false) (hctx : sv.ctx < 2 ^ 16) (hlen : sv.length < 2 ^ 64) :
    ∃ t, exec (.contextImageComplete p) s = .next t ∧ (t.pkg p).cstate = 2 ∧ (t.pkg p).saving = none
      ∧ t.readNum (hbmKey p sv.addr) 4 = 0x45584943 ∧ t.readNum (hbmKey p (sv.addr + 6)) 2 = sv.ctx
      ∧ t.readNum (hbmKey p (sv.addr + 8)) 8 = sv.length ∧ t.readNum (hbmKey p (sv.addr + 16)) 4 = 2
      ∧ ∀ g ∈ s.ctxGangs p sv.ctx, (t.gang g).inUse = false := by
  obtain ⟨hfreed, hgangs⟩ := State.imageFreed_keeps (s := s) (p := p) hd
  have hmem : (s.imageCompleted p sv).mem = (s.writeHome (hbmKey p sv.addr) (imageHeader sv (s.pkg p).time true) false).mem := hfreed
  obtain ⟨hmagic, hc, hl, hflags⟩ := State.writeHome_imageHeader (hbmKey p sv.addr) (s.pkg p).time hinv hd hctx hlen
  refine ⟨_, execContextImageComplete_completes hsv hid hplace, ?_, ?_, ?_, ?_, ?_, ?_, fun g hg => ?_⟩
  · rw [State.imageCompleted, State.pkg_interrupt, Pkg.interrupt_cstate, State.pkg_modPkg]
  · rw [State.imageCompleted, State.pkg_interrupt, Pkg.interrupt_saving, State.pkg_modPkg]
  · rw [State.readNum_of_mem hmem, hmagic]
  · rw [State.readNum_of_mem hmem, hbmKey_add, hc]
  · rw [State.readNum_of_mem hmem, hbmKey_add, hl]
  · rw [State.readNum_of_mem hmem, hbmKey_add, hflags]
  · rw [State.imageCompleted, State.interrupt, State.gang_modPkg, State.gang_modPkg, State.gang_modPkg]
    exact hgangs g hg

end Sys2Proof.Machine
end

section
/-! SUPPORT. A restore line by line, and a context that is lost: its launches stopped on every package (R383, R392, R399). -/

namespace Sys2Proof.Machine

/-! ## A line of a restore (R399) -/

theorem execRestoreLineRead_line {s : State} {p : Nat} {r : Restore} (hr : (s.pkg p).restoring = some r) (hline : 64 * r.line < r.image.length)
    (hplace : s.imageWaits p r.image = false) : exec (.restoreLineRead p) s = .next (
      if s.lineBad p r = false then s.modPkg p fun x => { x with restoring := some (s.readLine p r) }
      else if r.second = false ∧ r.image.second ≠ 0 then s.modPkg p fun x => { x with restoring := some { r with second := true } }
      else s.loseContext p r.image.ctx) := by
  have hex : exec (.restoreLineRead p) s = execRestoreLineRead p s := rfl
  rw [hex, execRestoreLineRead, hr]
  simp only [hplace, Bool.false_eq_true, if_false, Nat.not_le.mpr hline, Bool.not_eq_true', Bool.and_eq_true, bne_iff_ne]
  split_ifs <;> rfl

/-! ## What the stop of agents leaves of memory and of the packages -/

/-- Neither memory nor any package has changed. -/
def State.KeepsPkgs (s t : State) : Prop := t.mem = s.mem ∧ t.pkgs = s.pkgs

theorem State.KeepsPkgs.trans {s t u : State} (h : s.KeepsPkgs t) (h' : t.KeepsPkgs u) : s.KeepsPkgs u := by
  obtain ⟨hm, hp⟩ := h
  obtain ⟨hm', hp'⟩ := h'
  exact ⟨hm'.trans hm, hp'.trans hp⟩

theorem State.keepsPkgs_addSignaller (n : Nat) (root : WeirId) (now join : Bool) (fuel : Nat) (w : WeirId) (s : State) :
    s.KeepsPkgs (s.addSignaller n root now join w fuel) := by
  induction fuel generalizing w s with
  | zero => exact ⟨rfl, rfl⟩
  | succ fuel ih =>
    have hup (stop : Bool) (t : State) (ht : s.KeepsPkgs t) : s.KeepsPkgs (if stop then t
        else match parentWeir w with
          | some p => t.addSignaller n root now join p fuel
          | none => t) := by
      split
      · exact ht
      · split
        · exact ht.trans (ih _ t)
        · exact ht
    exact hup _ _ ⟨rfl, rfl⟩

theorem State.keepsPkgs_uncount (s : State) (u : UnitId) (r : PhReg) : s.KeepsPkgs (s.uncount u r) := by
  have hcount := State.keepsPkgs_addSignaller r.phaser (s.phaser (agentDie u).pkg r.phaser).root false false 5 (.die (agentDie u)) s
  unfold State.uncount
  dsimp only
  split
  · exact ⟨rfl, rfl⟩
  · split <;> exact hcount

theorem State.keepsPkgs_setRegs (s : State) (u : UnitId) (rs : List PhReg) : s.KeepsPkgs (s.setRegs u rs) := by
  cases u <;> exact ⟨rfl, rfl⟩

theorem State.keepsPkgs_leaveAll (u : UnitId) (rs : List PhReg) (s : State) : s.KeepsPkgs (s.leaveAll u rs) := by
  induction rs generalizing s with
  | nil => exact ⟨rfl, rfl⟩
  | cons r rs ih => exact ((s.keepsPkgs_setRegs u _).trans (State.keepsPkgs_uncount _ u r)).trans (ih _)

theorem State.keepsPkgs_endRegistrations (s : State) (u : UnitId) : s.KeepsPkgs (s.endRegistrations u) :=
  State.keepsPkgs_leaveAll u _ _

theorem State.keepsPkgs_settleGroups (s : State) (p l : Nat) : s.KeepsPkgs (s.settleGroups p l) := by
  have hfree : s.KeepsPkgs (s.freeGroups p l) := by
    unfold State.freeGroups
    split <;> exact ⟨rfl, rfl⟩
  obtain ⟨ds, hpass⟩ := (s.freeGroups p l).passAll_frame p
  rw [State.settleGroups, hpass]
  exact hfree

theorem State.keepsPkgs_endController (s : State) (c : CluId) : s.KeepsPkgs (s.endController c) :=
  ((State.keepsPkgs_endRegistrations (s.haltController c) (.m c)).trans ⟨rfl, rfl⟩).trans (State.keepsPkgs_settleGroups _ _ _)

theorem State.keepsPkgs_stopCtls (l : Nat) (cs : List CluId) (s : State) : s.KeepsPkgs (s.stopCtls l cs) := by
  induction cs generalizing s with
  | nil => exact ⟨rfl, rfl⟩
  | cons c cs ih =>
    rw [State.stopCtls]
    refine State.KeepsPkgs.trans ?_ (ih _)
    split_ifs
    · exact ⟨rfl, rfl⟩
    · exact ⟨rfl, rfl⟩
    · exact s.keepsPkgs_endController c

theorem State.keepsPkgs_stopGangs (p l : Nat) (gs : List GangId) (s : State) : s.KeepsPkgs (s.stopGangs p l gs) := by
  induction gs generalizing s with
  | nil => exact ⟨rfl, rfl⟩
  | cons g gs ih =>
    rw [State.stopGangs]
    refine State.KeepsPkgs.trans ?_ (ih _)
    split_ifs <;> exact ⟨rfl, rfl⟩

/-! ## The launches of a package -/

theorem State.modLaunch_mem (s : State) (p l : Nat) (f : Launch → Launch) : (s.modLaunch p l f).mem = s.mem := by
  unfold State.modLaunch
  split <;> rfl

/-- A launch read after one has been changed. -/
theorem State.tfind_modLaunch (s : State) (p l : Nat) (f : Launch → Launch) (q m : Nat) : tfind m ((s.modLaunch p l f).pkg q).launches =
    if q = p ∧ m = l then (tfind l (s.pkg p).launches).map f else tfind m (s.pkg q).launches := by
  unfold State.modLaunch
  split
  · rename_i x hx
    by_cases hq : q = p
    · subst hq
      rw [State.pkg_modPkg]
      by_cases hm : m = l
      · subst hm
        rw [if_pos ⟨rfl, rfl⟩, hx, tfind_tset_same]
        rfl
      · rw [if_neg fun h => hm h.2, tfind_tset_other _ _ hm]
    · rw [if_neg fun h => hq h.1, State.pkg_modPkg_other _ _ _ _ hq]
  · rename_i hx
    split
    · rename_i h
      obtain ⟨rfl, rfl⟩ := h
      rw [hx]
      rfl
    · rfl

theorem State.KeepsPkgs.launches {s t : State} (h : s.KeepsPkgs t) (q : Nat) : (t.pkg q).launches = (s.pkg q).launches := by
  rw [State.pkg, h.2, State.pkg]

theorem State.endOrigin_launches (s : State) (o : Nat × Nat) (q : Nat) : ((s.endOrigin o).pkg q).launches = (s.pkg q).launches :=
  let close (v : Saved) : Saved := { v with launches := v.launches.map fun l => if l.launch.origin = o then { l with closed := true } else l }
  tget_map_part Pkg.launches (fun x : Pkg => { x with images := x.images.map close, saving := x.saving.map close }) id (fun _ => rfl) q {} rfl s.pkgs

/-! ## A launch that is stopped (R392, R399) -/

/-- The code of a launch that is stopped with a code: a kill before it does not count. -/
def Launch.codeStopped (x : Launch) (code : Nat) : Nat := if x.code = 0 ∨ x.code = 4 ∧ code ≠ 4 then code else x.code

/-- A launch that is stopped keeps memory, takes its code and leaves every other launch as it was. -/
theorem State.stopLaunch_launches (s : State) (p l code : Nat) (trap : List Byte) : (s.stopLaunch p l code trap).mem = s.mem
    ∧ ∀ q m x, tfind m (s.pkg q).launches = some x → ∃ y, tfind m ((s.stopLaunch p l code trap).pkg q).launches = some y
      ∧ y.code = if q = p ∧ m = l then x.codeStopped code else x.code := by
  unfold State.stopLaunch
  split
  · rename_i hnone
    refine ⟨rfl, fun q m x hx => ⟨x, hx, (if_neg ?_).symm⟩⟩
    rintro ⟨rfl, rfl⟩
    rw [hx] at hnone
    cases hnone
  · rename_i z _
    let a := s.modLaunch p l fun x => if x.code = 0 || (x.code = 4 && code != 4) then { x with code := code, trap := trap } else x
    let b := a.stopGangs p l (a.gangs.map (·.1))
    let c := b.modLaunch p l fun y => { y with crews := y.crews.map fun w => if b.crewGone l w then { w with ended := true } else w }
    let d := ((c.stopCtls l z.ctls).stopCopies p l).disarmCopies p l
    have hb : a.KeepsPkgs b := State.keepsPkgs_stopGangs p l _ a
    have hd : c.KeepsPkgs d := (State.keepsPkgs_stopCtls l z.ctls c).trans ⟨rfl, rfl⟩
    show (d.endOrigin z.origin).mem = s.mem ∧ ∀ q m x, tfind m (s.pkg q).launches = some x →
      ∃ y, tfind m ((d.endOrigin z.origin).pkg q).launches = some y ∧ y.code = if q = p ∧ m = l then x.codeStopped code else x.code
    refine ⟨hd.1.trans ((State.modLaunch_mem ..).trans (hb.1.trans (State.modLaunch_mem ..))), fun q m x hx => ?_⟩
    rw [State.endOrigin_launches, hd.launches, State.tfind_modLaunch, hb.launches, hb.launches, State.tfind_modLaunch, State.tfind_modLaunch]
    by_cases h : q = p ∧ m = l
    · obtain ⟨rfl, rfl⟩ := h
      simp only [and_self, if_true, hx, Option.map_some]
      refine ⟨_, rfl, ?_⟩
      by_cases hcode : x.code = 0 ∨ x.code = 4 ∧ code ≠ 4
      · simp [Launch.codeStopped, hcode]
      · simp [Launch.codeStopped, hcode]
    · simp only [if_neg h]
      exact ⟨x, hx, rfl⟩

/-! ## A context that is lost (R399) -/

/-- Launches stopped one after another with code 5: every one that has not ended otherwise keeps its place, and those named end with it. -/
theorem State.stopLaunches_launches (ls : List (Nat × Nat)) (s : State) :
    (ls.foldl (fun s l => s.stopLaunch l.1 l.2 5 []) s).mem = s.mem
      ∧ ∀ q m x, tfind m (s.pkg q).launches = some x → x.code = 0 ∨ x.code = 5 → ∃ y,
        tfind m ((ls.foldl (fun s l => s.stopLaunch l.1 l.2 5 []) s).pkg q).launches = some y ∧ (x.code = 5 ∨ (q, m) ∈ ls → y.code = 5) := by
  induction ls generalizing s with
  | nil => exact ⟨rfl, fun q m x hx _ => ⟨x, hx, fun h => h.resolve_right List.not_mem_nil⟩⟩
  | cons l ls ih =>
    obtain ⟨hmem, hone⟩ := s.stopLaunch_launches l.1 l.2 5 []
    obtain ⟨hmem', hrest⟩ := ih (s.stopLaunch l.1 l.2 5 [])
    rw [List.foldl_cons]
    refine ⟨hmem'.trans hmem, fun q m x hx hcode => ?_⟩
    obtain ⟨y, hy, hycode⟩ := hone q m x hx
    have hstopped : x.codeStopped 5 = 5 := by
      rcases hcode with h | h <;> simp [Launch.codeStopped, h]
    rw [hstopped] at hycode
    have hyc : y.code = 0 ∨ y.code = 5 := by
      rw [hycode]
      split
      · exact .inr rfl
      · exact hcode
    obtain ⟨z, hz, hzcode⟩ := hrest q m y hy hyc
    refine ⟨z, hz, fun h => hzcode ?_⟩
    by_cases hl : q = l.1 ∧ m = l.2
    · exact .inl (by rw [hycode, if_pos hl])
    · rw [if_neg hl] at hycode
      rcases h with h | h
      · exact .inl (hycode.trans h)
      · exact .inr ((List.mem_cons.mp h).resolve_left fun h => hl (by simp [← h]))

theorem State.mem_launchesOf {s : State} {q m : Nat} {x : Launch} (h : tfind m (s.pkg q).launches = some x) : (q, m) ∈ launchesOf x.ctx s.pkgs := by
  have hne : tget q {} s.pkgs ≠ {} := fun hnone => by
    rw [State.pkg, hnone] at h
    cases h
  refine List.mem_flatMap.mpr ⟨_, mem_of_tget_ne hne, List.mem_map.mpr ⟨(m, x), List.mem_filter.mpr ⟨mem_of_tfind h, by simp⟩, rfl⟩⟩

@[simp] theorem Pkg.interrupt_launches (x : Pkg) (n : Nat) : (x.interrupt n).launches = x.launches := by
  unfold Pkg.interrupt
  dsimp only
  split <;> rfl

/-- A context that is lost reads so, and every launch of it that has not ended has code 5, on whichever package. -/
theorem State.loseContext_spec (s : State) (p ctx : Nat) : ((s.loseContext p ctx).pkg p).cstate = 5 ∧ (s.loseContext p ctx).mem = s.mem
    ∧ ∀ q l x, tfind l (s.pkg q).launches = some x → x.ctx = ctx → x.code = 0 →
      ∃ y, tfind l ((s.loseContext p ctx).pkg q).launches = some y ∧ y.code = 5 := by
  obtain ⟨hmem, hstop⟩ := State.stopLaunches_launches (launchesOf ctx s.pkgs) s
  rw [State.loseContext]
  refine ⟨by simp, hmem, fun q l x hx hctx hcode => ?_⟩
  obtain ⟨y, hy, hycode⟩ := hstop q l x hx (.inl hcode)
  refine ⟨y, ?_, hycode (.inr (hctx ▸ State.mem_launchesOf hx))⟩
  rw [← hy]
  by_cases hq : q = p
  · subst hq
    simp
  · rw [State.interrupt, State.pkg_modPkg_other _ _ _ _ hq, State.pkg_modPkg_other _ _ _ _ hq]

end Sys2Proof.Machine
end

section
/-! SUPPORT. An entry of the context table written (R383), and retirement migrations (R380, R381). -/

namespace Sys2Proof.Machine

/-! ## The context table (R383) -/

/-- No cluster of a package holds a translation of a context once every trace of its number is removed. -/
theorem State.forgetCtx_tlb (s : State) (p n : Nat) {c : CluId} (hp : c.pkg = p) : ∀ y ∈ ((s.forgetCtx p n).clu c).tlb, y.ctx ≠ n := by
  let f (c : CluId) (x : Clu) : Clu := if c.pkg == p then ({ x with tlb := x.tlb.filter fun e => !e.goes n none } : Clu).dropPins n none else x
  have hclu : (s.forgetCtx p n).clu c = f c (s.clu c) := tget_map_keyed f (by simp only [f]; split <;> rfl) s.clus
  have htlb : (f c (s.clu c)).tlb = (s.clu c).tlb.filter fun e => !e.goes n none :=
    congrArg Clu.tlb (if_pos (beq_iff_eq.mpr hp))
  intro y hy
  rw [hclu, htlb] at hy
  have hstays := (List.mem_filter.mp hy).2
  simpa [TlbEntry.goes] using hstays

/-- A number from 1 to 4,095 names a context. -/
theorem contextNumber_of_range {n : Nat} (hlo : 1 ≤ n) (hhi : n ≤ 4095) : ¬ ((n = 0 || n > 4095) = true) := by
  simp only [Bool.or_eq_true, decide_eq_true_eq, not_or]
  omega

/-- An entry with a number that no context has is not written. -/
theorem State.writeContext_ignored {s : State} {p n : Nat} (v : DWord) (h : n = 0 ∨ 4095 < n) : s.writeContext p n v = s :=
  if_pos (by simpa using h)

/-- The base of the root table that a write of an entry gives. -/
def rootOf (v : DWord) : Nat := v.toNat / 2 ^ 17 % 2 ^ 35 * 2 ^ 17

/-- A write of `en` = 1: stale traces of a number that was not enabled go first. -/
theorem State.writeContext_set {s : State} {p n : Nat} {v : DWord} (hlo : 1 ≤ n) (hhi : n ≤ 4095) (hv : v.getLsbD 0 = true) :
    ∃ bs, s.writeContext p n v = (if (tget n ({} : CtxEntry) (s.pkg p).contexts).en = false then ({ s with bindings := bs } : State).forgetCtx p n
      else { s with bindings := bs }).modPkg p fun x => { x with contexts := tset n ⟨rootOf v, true⟩ x.contexts } := by
  have hfresh : ∀ fresh : Bool, ∃ bs, (if fresh = true then { s with bindings := tset n [] s.bindings } else s) = { s with bindings := bs } := by
    rintro (_ | _) <;> exact ⟨_, rfl⟩
  obtain ⟨bs, hbs⟩ := hfresh (s.pkgs.all fun q => !(tget n ({} : CtxEntry) q.2.contexts).en)
  refine ⟨bs, ?_⟩
  rw [State.writeContext, if_neg (contextNumber_of_range hlo hhi)]
  simp only [hv, Bool.true_and, hbs, Bool.true_or, Bool.not_true, Bool.and_false, Bool.false_eq_true, if_false, Bool.not_eq_true', rootOf]

/-- A write of `en` = 0, which is ignored while anything names the context; root is stored all the same (log entry 18). -/
theorem State.writeContext_clear {s : State} {p n : Nat} {v : DWord} (hlo : 1 ≤ n) (hhi : n ≤ 4095) (hv : v.getLsbD 0 = false) :
    s.writeContext p n v = (if (tget n ({} : CtxEntry) (s.pkg p).contexts).en = true ∧ s.ctxNamed p n = false then s.dropMerges p n else s).modPkg p
      fun x => { x with contexts := tset n ⟨rootOf v, (tget n ({} : CtxEntry) (s.pkg p).contexts).en && s.ctxNamed p n⟩ x.contexts } := by
  rw [State.writeContext, if_neg (contextNumber_of_range hlo hhi)]
  cases hen : (tget n ({} : CtxEntry) (s.pkg p).contexts).en <;>
    simp only [hv, hen, Bool.false_and, Bool.false_or, Bool.true_and, Bool.false_eq_true, if_false, Bool.not_eq_true', false_and, true_and, rootOf]

theorem State.writeContext_spec {s : State} {p n : Nat} (v : DWord) (hlo : 1 ≤ n) (hhi : n ≤ 4095) : (s.writeContext p n v).mem = s.mem
    ∧ (tget n ({} : CtxEntry) ((s.writeContext p n v).pkg p).contexts).root = v.toNat / 2 ^ 17 % 2 ^ 35 * 2 ^ 17
    ∧ (tget n ({} : CtxEntry) ((s.writeContext p n v).pkg p).contexts).en
      = (v.getLsbD 0 || ((tget n ({} : CtxEntry) (s.pkg p).contexts).en && s.ctxNamed p n))
    ∧ (v.getLsbD 0 = true → (tget n ({} : CtxEntry) (s.pkg p).contexts).en = false →
      ∀ c : CluId, c.pkg = p → ∀ y ∈ ((s.writeContext p n v).clu c).tlb, y.ctx ≠ n) := by
  cases hv : v.getLsbD 0 with
  | true =>
    obtain ⟨bs, h⟩ := State.writeContext_set (s := s) (p := p) hlo hhi hv
    rw [h, State.pkg_modPkg, tget_tset_same, State.modPkg_mem]
    refine ⟨by split <;> rfl, rfl, rfl, fun _ hold c hc => ?_⟩
    rw [if_pos hold]
    exact State.forgetCtx_tlb _ p n hc
  | false =>
    rw [State.writeContext_clear hlo hhi hv, State.pkg_modPkg, tget_tset_same, State.modPkg_mem]
    exact ⟨by split <;> rfl, rfl, rfl, fun h => absurd h Bool.false_ne_true⟩

/-! ## What a migration's copies and zeroings leave of a package (R242, R381, R382) -/

theorem Pkg.dirtied_frame (x : Pkg) (pa n : Nat) : ∃ d, x.dirtied pa n = { x with mig := { x.mig with dirty := d } } := by
  unfold Pkg.dirtied
  dsimp only
  split
  · exact ⟨_, rfl⟩
  · exact ⟨_, rfl⟩

/-- A package but for the frames that are being zeroed and the dirty granules of its migration. -/
def Pkg.SameMig (x y : Pkg) : Prop := y.time = x.time ∧ { y.mig with dirty := [] } = { x.mig with dirty := [] }

theorem Pkg.SameMig.trans {x y z : Pkg} (h : x.SameMig y) (h' : y.SameMig z) : x.SameMig z := ⟨h'.1.trans h.1, h'.2.trans h.2⟩

/-- What a write of zeroes or a copy sets off changes no package. -/
theorem State.setOff_pkgs (s : State) (k n : Nat) (ds : List (DieId × Die)) :
    (((s.triggerMonitors k n).fireTriggers k n ds).meetCwaits k n).pkgs = s.pkgs := by
  obtain ⟨ds', h⟩ := State.fireTriggers_frame k n ds (s.triggerMonitors k n)
  rw [h]
  rfl

theorem State.endZeroing_sameMig (s : State) (p : Nat) (z : Nat × Nat) : (s.pkg p).SameMig ((s.endZeroing p z).pkg p) := by
  let a := (s.modPkg p fun x => { x with zeroing := x.zeroing.erase z }).clearRange (hbmKey p z.1) z.2
  have hset : ((((a.triggerMonitors (hbmKey p z.1) z.2).fireTriggers (hbmKey p z.1) z.2 a.dies).meetCwaits (hbmKey p z.1) z.2).pkg p)
      = { s.pkg p with zeroing := (s.pkg p).zeroing.erase z } := by
    rw [State.pkg, State.setOff_pkgs]
    exact State.pkg_modPkg s p fun x => { x with zeroing := x.zeroing.erase z }
  have hend : (s.endZeroing p z).pkg p = ({ s.pkg p with zeroing := (s.pkg p).zeroing.erase z } : Pkg).dirtied z.1 z.2 :=
    (State.pkg_modPkg _ p fun x => x.dirtied z.1 z.2).trans (congrArg (fun x : Pkg => x.dirtied z.1 z.2) hset)
  obtain ⟨d, hd⟩ := Pkg.dirtied_frame { s.pkg p with zeroing := (s.pkg p).zeroing.erase z } z.1 z.2
  rw [hend, hd]
  exact ⟨rfl, rfl⟩

/-- Zeroings that end change neither the time of a package nor its migration, but for the dirty granules. -/
theorem State.finishZeroing_sameMig (s : State) (p : Nat) : (s.pkg p).SameMig ((s.finishZeroing p).pkg p) := by
  have hall : ∀ (zs : List (Nat × Nat)) (t : State), (t.pkg p).SameMig ((zs.foldl (fun s z => s.endZeroing p z) t).pkg p) := by
    intro zs
    induction zs with
    | nil => exact fun t => ⟨rfl, rfl⟩
    | cons z zs ih => exact fun t => (t.endZeroing_sameMig p z).trans (ih _)
  exact hall _ s

@[simp] theorem State.copyRange_pkgs (s : State) (p src dst n : Nat) : (s.copyRange p src dst n).pkgs = s.pkgs := State.setOff_pkgs ..

theorem State.copyRange_pkg (s : State) (p src dst n q : Nat) : (s.copyRange p src dst n).pkg q = s.pkg q := by
  rw [State.pkg, State.copyRange_pkgs, State.pkg]

/-! ## `go` (R380, R381) -/

@[simp] theorem Pkg.interrupt_mig (x : Pkg) (n : Nat) : (x.interrupt n).mig = x.mig := by
  unfold Pkg.interrupt
  dsimp only
  split <;> rfl

@[simp] theorem State.mig_modMig (s : State) (p : Nat) (f : Mig → Mig) : ((s.modMig p f).pkg p).mig = f (s.pkg p).mig := by
  rw [State.modMig, State.pkg_modPkg]

@[simp] theorem State.mig_endMig (s : State) (p : Nat) (st : MigState) : ((s.endMig p st).pkg p).mig = { (s.pkg p).mig with state := st } := by
  rw [State.endMig, State.pkg_interrupt, Pkg.interrupt_mig, State.mig_modMig]

@[simp] theorem State.endMig_mem (s : State) (p : Nat) (st : MigState) : (s.endMig p st).mem = s.mem := rfl

/-- Whether `go` finds a page and a frame of the size in range. -/
def Mig.fits (m : Mig) : Prop :=
  m.va.toNat % 2 ^ pageLg m.size = 0 ∧ m.va.toNat < 2 ^ 57 ∧ m.frame.toNat % 2 ^ pageLg m.size = 0 ∧ m.frame.toNat + 2 ^ pageLg m.size ≤ hbmSize

theorem Mig.fits_iff (m : Mig) : m.fits ↔ (m.va.toNat % 2 ^ pageLg m.size != 0 || m.va.toNat ≥ 2 ^ 57 || m.frame.toNat % 2 ^ pageLg m.size != 0
    || m.frame.toNat + 2 ^ pageLg m.size > hbmSize) = false := by
  simp only [Mig.fits, Bool.or_eq_false_iff, bne_eq_false_iff_eq, decide_eq_false_iff_not, ge_iff_le, gt_iff_lt, Nat.not_le, Nat.not_lt, and_assoc]

section
variable {s : State} {p : Nat} (hcopy : (s.pkg p).mig.state ≠ .copying) (hfinal : (s.pkg p).mig.state ≠ .final)
include hcopy hfinal

/-- A page or a frame that is misaligned or out of range, or a page that is not mapped so, fails the migration. -/
theorem State.goMig_fails (h : ¬ (s.pkg p).mig.fits ∨ s.mappedFrame p (s.pkg p).mig.ctx (s.pkg p).mig.va.toNat (s.pkg p).mig.size = none) :
    s.goMig p = s.endMig p .failedLeaf := by
  rw [State.goMig, if_neg (by simp [hcopy, hfinal])]
  split
  · rfl
  · rename_i hfits
    rw [h.resolve_left (not_not.mpr ((Mig.fits_iff _).mpr (eq_false_of_ne_true hfits)))]

/-- A page that is mapped in HBM is copied. -/
theorem State.goMig_copies {old : Nat} {pas : List Nat} (hfits : (s.pkg p).mig.fits)
    (hmapped : s.mappedFrame p (s.pkg p).mig.ctx (s.pkg p).mig.va.toNat (s.pkg p).mig.size = some (old, pas))
    (hold : old + 2 ^ pageLg (s.pkg p).mig.size ≤ hbmSize) : ((s.goMig p).pkg p).mig = { (s.pkg p).mig with
      state := .copying, aborts := 0, page := (s.pkg p).mig.va.toNat, lg := pageLg (s.pkg p).mig.size, pctx := (s.pkg p).mig.ctx, old := old
      newFrame := (s.pkg p).mig.frame.toNat, dirty := [] } := by
  rw [State.goMig, if_neg (by simp [hcopy, hfinal]), if_neg (ne_true_of_eq_false ((Mig.fits_iff _).mp hfits)), hmapped]
  dsimp only
  rw [if_neg (Nat.not_lt.mpr hold), State.copyRange_pkg, State.mig_modMig]

end

/-- The state at which a write of `go` looks: the fields of migctl written, and what was being zeroed zero. -/
def State.goReady (s : State) (p : Nat) (v : DWord) : State :=
  (s.modPkg p fun x => { x with mig := { x.mig with ctx := v.toNat % 2 ^ 16, size := v.toNat / 2 ^ 16 % 4 } }).finishZeroing p

theorem execMigctlGo_fields {s : State} {p : Nat} {v : DWord} (hv : v.getLsbD 18 = false) : exec (.migctlGo p v) s =
    .next (s.modPkg p fun x => { x with mig := { x.mig with ctx := v.toNat % 2 ^ 16, size := v.toNat / 2 ^ 16 % 4 } }) := by
  have hex : exec (.migctlGo p v) s = .next (s.writeMigctl p v) := rfl
  rw [hex, State.writeMigctl, hv]
  rfl

theorem execMigctlGo_go {s : State} {p : Nat} {v : DWord} (hv : v.getLsbD 18 = true) : exec (.migctlGo p v) s = .next ((s.goReady p v).goMig p) := by
  have hex : exec (.migctlGo p v) s = .next (s.writeMigctl p v) := rfl
  rw [hex, State.writeMigctl, hv]
  rfl

/-- `go` finds the migration as its registers have it. -/
theorem State.goReady_mig (s : State) (p : Nat) (v : DWord) : let m := ((s.goReady p v).pkg p).mig
    m.state = (s.pkg p).mig.state ∧ m.va = (s.pkg p).mig.va ∧ m.frame = (s.pkg p).mig.frame ∧ m.ctx = v.toNat % 2 ^ 16
      ∧ m.size = v.toNat / 2 ^ 16 % 4 := by
  obtain ⟨-, hmig⟩ := State.finishZeroing_sameMig
    (s.modPkg p fun x => { x with mig := { x.mig with ctx := v.toNat % 2 ^ 16, size := v.toNat / 2 ^ 16 % 4 } }) p
  rw [State.pkg_modPkg] at hmig
  exact ⟨(congrArg Mig.state hmig :), (congrArg Mig.va hmig :), (congrArg Mig.frame hmig :), (congrArg Mig.ctx hmig :), (congrArg Mig.size hmig :)⟩

/-- What `go` does: it fails where the page or the frame is none of the size or the page is not mapped so, and copies otherwise. -/
theorem execMigctlGo_spec {s : State} {p : Nat} {v : DWord} (hv : v.getLsbD 18 = true) (hcopy : (s.pkg p).mig.state ≠ .copying)
    (hfinal : (s.pkg p).mig.state ≠ .final) :
    let m := (s.pkg p).mig
    let size := v.toNat / 2 ^ 16 % 4
    let n := 2 ^ pageLg size
    let z := s.goReady p v
    (m.va.toNat % n ≠ 0 ∨ 2 ^ 57 ≤ m.va.toNat ∨ m.frame.toNat % n ≠ 0 ∨ hbmSize < m.frame.toNat + n
        ∨ z.mappedFrame p (v.toNat % 2 ^ 16) m.va.toNat size = none →
      ∃ t, exec (.migctlGo p v) s = .next t ∧ t.mem = z.mem ∧ (t.pkg p).mig.state = .failedLeaf)
    ∧ (∀ old pas, m.va.toNat % n = 0 → m.va.toNat < 2 ^ 57 → m.frame.toNat % n = 0 → m.frame.toNat + n ≤ hbmSize →
      z.mappedFrame p (v.toNat % 2 ^ 16) m.va.toNat size = some (old, pas) → old + n ≤ hbmSize →
      ∃ t, exec (.migctlGo p v) s = .next t ∧ (t.pkg p).mig.state = .copying ∧ (t.pkg p).mig.old = old ∧ (t.pkg p).mig.newFrame = m.frame.toNat
        ∧ (t.pkg p).mig.aborts = 0) := by
  intro m size n z
  obtain ⟨hstate, hva, hframe, hctx, hsize⟩ := s.goReady_mig p v
  have hfits : (z.pkg p).mig.fits ↔ m.va.toNat % n = 0 ∧ m.va.toNat < 2 ^ 57 ∧ m.frame.toNat % n = 0 ∧ m.frame.toNat + n ≤ hbmSize := by
    rw [Mig.fits, hva, hframe, hsize]
  refine ⟨fun h => ⟨_, execMigctlGo_go hv, ?_⟩, fun old pas hpage hlow hplace htop hmapped hold => ⟨_, execMigctlGo_go hv, ?_⟩⟩
  · have hfails : ¬ (z.pkg p).mig.fits ∨ z.mappedFrame p (z.pkg p).mig.ctx (z.pkg p).mig.va.toNat (z.pkg p).mig.size = none := by
      rw [hfits, hctx, hva, hsize]
      by_cases hnone : z.mappedFrame p (v.toNat % 2 ^ 16) m.va.toNat size = none
      · exact .inr hnone
      · refine .inl fun ⟨h1, h2, h3, h4⟩ => ?_
        rcases h with h | h | h | h | h
        · exact h h1
        · exact absurd h (Nat.not_le.mpr h2)
        · exact h h3
        · exact absurd h (Nat.not_lt.mpr h4)
        · exact hnone h
    rw [State.goMig_fails (hstate ▸ hcopy) (hstate ▸ hfinal) hfails, State.mig_endMig]
    exact ⟨rfl, rfl⟩
  · rw [State.goMig_copies (hstate ▸ hcopy) (hstate ▸ hfinal) (hfits.mpr ⟨hpage, hlow, hplace, htop⟩) (by rw [hctx, hva, hsize]; exact hmapped)
      (by rw [hsize]; exact hold)]
    exact ⟨rfl, rfl, congrArg BitVec.toNat hframe, rfl⟩

/-! ## The final pass, the switch and the timeout (R381) -/

section
variable {s : State} {p : Nat}

theorem execMigrationFinalStart_idle (h : (s.pkg p).mig.state ≠ .copying) : exec (.migrationFinalStart p) s = .next s := by
  have hex : exec (.migrationFinalStart p) s = execMigrationFinalStart p s := rfl
  rw [hex, execMigrationFinalStart, if_pos (bne_iff_ne.mpr h)]

theorem execMigrationFinalStart_starts (h : (s.pkg p).mig.state = .copying) : ∃ t, exec (.migrationFinalStart p) s = .next t
    ∧ (t.pkg p).mig.state = .final ∧ (t.pkg p).mig.heldSince = (s.pkg p).time := by
  have hex : exec (.migrationFinalStart p) s = execMigrationFinalStart p s := rfl
  obtain ⟨htime, -⟩ := s.finishZeroing_sameMig p
  rw [hex, execMigrationFinalStart, if_neg (by simp [h])]
  exact ⟨_, rfl, by rw [State.mig_modMig], by rw [State.mig_modMig, htime]⟩

theorem execMigrationSwitch_waits (h : (s.pkg p).mig.state ≠ .final ∨ (s.pkg p).mig.heldSince + 40000 ≤ (s.pkg p).time
    ∨ s.migBusy p (s.pkg p).mig = true) : exec (.migrationSwitch p) s = .next s := by
  have hex : exec (.migrationSwitch p) s = execMigrationSwitch p s := rfl
  rw [hex, execMigrationSwitch, if_pos]
  simpa only [Bool.or_eq_true, bne_iff_ne, decide_eq_true_eq, or_assoc] using h

/-- A switch ends its migration. -/
theorem State.switchMig_state (s : State) (p : Nat) (m : Mig) (pas : List Nat) : ((s.switchMig p m pas).pkg p).mig.state = .done := by
  have hend := fun t : State => congrArg Mig.state (State.mig_endMig t p .done)
  exact hend _

theorem execMigrationSwitch_ends (hfinal : (s.pkg p).mig.state = .final) (htime : (s.pkg p).time < (s.pkg p).mig.heldSince + 40000)
    (hbusy : s.migBusy p (s.pkg p).mig = false) : ∃ t, exec (.migrationSwitch p) s = .next t
      ∧ ((t.pkg p).mig.state = .done ∨ (t.pkg p).mig.state = .failedLeaf) := by
  have hex : exec (.migrationSwitch p) s = execMigrationSwitch p s := rfl
  have hfails (t : State) : ((t.endMig p .failedLeaf).pkg p).mig.state = .failedLeaf := by rw [State.mig_endMig]
  rw [hex, execMigrationSwitch, if_neg (by simp [hfinal, htime, hbusy])]
  dsimp only
  split
  · refine ⟨_, rfl, ?_⟩
    split
    · exact .inl (State.switchMig_state ..)
    · exact .inr (hfails _)
  · exact ⟨_, rfl, .inr (hfails _)⟩

theorem execMigrationHoldTimeout_waits (h : (s.pkg p).mig.state ≠ .final ∨ (s.pkg p).time < (s.pkg p).mig.heldSince + 40000) :
    exec (.migrationHoldTimeout p) s = .next s := by
  have hex : exec (.migrationHoldTimeout p) s = execMigrationHoldTimeout p s := rfl
  rw [hex, execMigrationHoldTimeout, if_pos]
  simpa only [Bool.or_eq_true, bne_iff_ne, decide_eq_true_eq] using h

/-- The hold released: copying goes on, or the sixteenth abort fails the migration. -/
theorem execMigrationHoldTimeout_aborts (hfinal : (s.pkg p).mig.state = .final) (htime : (s.pkg p).mig.heldSince + 40000 ≤ (s.pkg p).time) :
    ∃ t, exec (.migrationHoldTimeout p) s = .next t ∧ t.mem = s.mem ∧ (t.pkg p).mig.aborts = (s.pkg p).mig.aborts + 1
      ∧ (t.pkg p).mig.state = if 16 ≤ (s.pkg p).mig.aborts + 1 then .failedAborts else .copying := by
  have hex : exec (.migrationHoldTimeout p) s = execMigrationHoldTimeout p s := rfl
  rw [hex, execMigrationHoldTimeout, if_neg (by simp [hfinal, htime])]
  refine ⟨_, rfl, ?_⟩
  split
  · rw [State.mig_endMig, State.mig_modMig]
    exact ⟨rfl, rfl, rfl⟩
  · rw [State.mig_modMig]
    exact ⟨rfl, rfl, rfl⟩

end

end Sys2Proof.Machine
end

section
/-! PROOF. `ContextEvents` (R212, R380, R381, R383, R396 to R399): the statement from the lemmas of its events. -/

namespace Sys2Proof.Machine

/-- Settles O57: each event by the lemma that says what it does. -/
theorem contextEvents : Obligations.ContextEvents := by
  unfold Obligations.ContextEvents
  refine ⟨?_, ?_, ?_, ?_, State.loseContext_spec, ?_, ?_, ?_⟩
  · intro s p v x ctx
    refine ⟨fun h => execPreemptWrite_of_preempt (State.preempt_ignored x.imgaddr h), fun hlo hhi hheld => ⟨?_, ?_, fun h => ?_⟩⟩
    · exact fun h1 h3 hnil hfault => execPreemptWrite_of_preempt
        ((State.preempt_starts x.imgaddr hlo hhi h1 h3 hnil).trans (State.startSave_of_fault hfault))
    · exact fun h1 h3 hnil hfits => ⟨_, execPreemptWrite_of_preempt (State.preempt_starts x.imgaddr hlo hhi h1 h3 hnil), State.startSave_spec hfits⟩
    · exact execPreemptWrite_of_preempt (State.preempt_holds x.imgaddr hlo hhi hheld h)
  · intro s p h hs hheld
    rw [execPreemptHeldStart_cons hheld]
    exact ⟨fun h => if_pos h, fun h1 h3 => if_neg (not_or.mpr ⟨h1, h3⟩)⟩
  · intro s p sv hsv
    exact ⟨fun _ h => execContextCapture_waits hsv h, fun hid hquiet hbegun hplace => execContextCapture_spec hsv hid hquiet hbegun hplace,
      fun hinv hid hplace hd _ hctx hlen => execContextImageComplete_spec hsv hinv hid hplace hd hctx hlen⟩
  · exact fun s p r hr hline hplace => execRestoreLineRead_line hr hline hplace
  · exact fun s p n v => ⟨fun h => congrArg _ (State.writeContext_ignored v h), fun hlo hhi => ⟨_, rfl, State.writeContext_spec v hlo hhi⟩⟩
  · exact fun s p v => ⟨execMigctlGo_fields, fun hv hcopy hfinal => execMigctlGo_spec hv hcopy hfinal⟩
  · exact fun s p => ⟨execMigrationFinalStart_idle, execMigrationFinalStart_starts, execMigrationSwitch_waits, execMigrationSwitch_ends,
      execMigrationHoldTimeout_waits, execMigrationHoldTimeout_aborts⟩

end Sys2Proof.Machine
end

section
/-! SUPPORT. What a step that acts on memory, on caches and on TLBs leaves of the units: their contexts and program counters, and the
bindings (R113, R217, R226). -/

namespace Sys2Proof.Machine

/-! ## A gang that a wake-up does not move -/

/-- A fragment runs, or a handler does: nothing is selected in the gang (R113, R479). -/
def Gang.Steady (x : Gang) : Prop := x.mode = .user → x.cur.isSome = true

/-- The gang has its context, and where it is steady it stays so at its program counter. -/
def Gang.SameRun (x y : Gang) : Prop := y.ctx = x.ctx ∧ (x.Steady → y.Steady ∧ y.apc = x.apc)

theorem Gang.SameRun.refl (x : Gang) : x.SameRun x := ⟨rfl, fun h => ⟨h, rfl⟩⟩

theorem Gang.SameRun.trans {x y z : Gang} (h : x.SameRun y) (h' : y.SameRun z) : x.SameRun z :=
  ⟨h'.1.trans h.1, fun hx => ⟨(h'.2 (h.2 hx).1).1, (h'.2 (h.2 hx).1).2.trans (h.2 hx).2⟩⟩

theorem Gang.select_of_steady {x : Gang} (h : x.Steady) : x.select = x := by
  cases hc : x.cur with
  | some e => exact Gang.select_of_cur hc
  | none =>
    have hmode : x.mode ≠ .user := fun hm => by simpa [hc] using h hm
    rw [Gang.select, hc]
    simp only [if_neg hmode]

theorem Gang.sameRun_select (x : Gang) : x.SameRun x.select := by
  refine ⟨?_, fun h => by rw [Gang.select_of_steady h]; exact ⟨h, rfl⟩⟩
  obtain ⟨_, _, _, _, _, _, _, h, -⟩ := x.select_frame
  rw [h]

theorem Gang.sameRun_hitMonitor (x : Gang) (e : Nat) (m : Monitor) : x.SameRun (x.hitMonitor e m) := by
  rw [Gang.hitMonitor]
  split_ifs
  · exact Gang.SameRun.trans ⟨rfl, fun h => ⟨h, rfl⟩⟩ (Gang.sameRun_select _)
  · exact ⟨rfl, fun h => ⟨h, rfl⟩⟩

theorem Gang.sameRun_triggerMonitor (lo hi : Nat) (ms : List (Nat × Monitor)) (x : Gang) : x.SameRun (x.triggerMonitor lo hi ms) := by
  induction ms generalizing x with
  | nil => exact .refl x
  | cons m ms ih =>
    rw [Gang.triggerMonitor]
    split_ifs
    · exact (x.sameRun_hitMonitor ..).trans (ih _)
    · exact ih x

/-! ## Steps that leave the units where they are -/

/-- The unit that acts, the bindings, and of every gang and controller the context and the program counter are as they were. -/
structure State.KeepsUnits (s t : State) : Prop where
  cur : t.cur = s.cur
  bindings : t.bindings = s.bindings
  gang : ∀ g, (s.gang g).SameRun (t.gang g)
  ctl : ∀ c, (t.clu c).ctl.pc = (s.clu c).ctl.pc

theorem State.KeepsUnits.trans {s t u : State} (h : s.KeepsUnits t) (h' : t.KeepsUnits u) : s.KeepsUnits u :=
  ⟨h'.cur.trans h.cur, h'.bindings.trans h.bindings, fun g => (h.gang g).trans (h'.gang g), fun c => (h'.ctl c).trans (h.ctl c)⟩

theorem State.KeepsUnits.of_eq {s t : State} (hcur : t.cur = s.cur) (hb : t.bindings = s.bindings) (hg : t.gangs = s.gangs)
    (hc : t.clus = s.clus) : s.KeepsUnits t :=
  ⟨hcur, hb, fun g => by rw [State.gang, State.gang, hg]; exact .refl _, fun c => by rw [State.clu, State.clu, hc]⟩

theorem State.KeepsUnits.boundTo {s t : State} (h : s.KeepsUnits t) (ctx : Nat) (o : DWord) (va : Nat) :
    t.boundTo ctx o va = s.boundTo ctx o va := by
  rw [State.boundTo, State.boundTo, State.bindingsOf, State.bindingsOf, h.bindings]

/-- The a-slice issues in user mode only with a fragment running (R113). -/
theorem Gang.steady_of_runnable {s : State} {g : GangId} (h : s.runnable (.a g) = true) : (s.gang g).Steady := by
  intro hm
  simp only [State.runnable, Bool.and_eq_true, hm] at h
  obtain ⟨_, huser⟩ := h
  simp only [bne_self_eq_false, Bool.false_or, Bool.and_eq_true] at huser
  exact huser.2

/-- The a-slice of a gang and a controller that can issue stay at their program counters. -/
theorem State.KeepsUnits.pc {s t : State} (h : s.KeepsUnits t) {u : UnitId} (hu : ∀ g, u ≠ .c g) (hrun : s.runnable u = true) :
    t.pc u = s.pc u := by
  cases u with
  | a g => exact ((h.gang g).2 (Gang.steady_of_runnable hrun)).2
  | c g => exact absurd rfl (hu g)
  | m c => exact h.ctl c

theorem State.keepsUnits_modGang (s : State) (g : GangId) (f : Gang → Gang) (hf : (s.gang g).SameRun (f (s.gang g))) :
    s.KeepsUnits (s.modGang g f) := by
  refine ⟨rfl, rfl, fun h => ?_, fun _ => rfl⟩
  by_cases hgh : h = g
  · rw [hgh, State.gang_modGang]
    exact hf
  · rw [State.gang_modGang_other _ _ _ _ hgh]
    exact .refl _

theorem State.keepsUnits_countIssue (s : State) (u : UnitId) : s.KeepsUnits (s.countIssue u) := by
  cases u with
  | a g =>
    rw [State.countIssue]
    exact s.keepsUnits_modGang g _ ⟨rfl, fun h => ⟨h, rfl⟩⟩
  | c g =>
    rw [State.countIssue]
    exact s.keepsUnits_modGang g _ ⟨rfl, fun h => ⟨h, rfl⟩⟩
  | m c => exact .of_eq rfl rfl rfl rfl

theorem State.keepsUnits_modCore (s : State) (c : CoreId) (f : Core → Core) : s.KeepsUnits (s.modCore c f) := .of_eq rfl rfl rfl rfl

/-! ## A write at its home -/

theorem State.keepsUnits_triggerMonitors (s : State) (k n : Nat) : s.KeepsUnits (s.triggerMonitors k n) :=
  ⟨rfl, rfl, fun g => tget_map_rel Gang.SameRun _ g {} s.gangs
    (fun _ x => by dsimp only; split_ifs; exacts [.refl x, x.sameRun_triggerMonitor ..]) (.refl _), fun _ => rfl⟩

theorem State.keepsUnits_fireTriggers (s : State) (k n : Nat) (xs : List (DieId × Die)) : s.KeepsUnits (s.fireTriggers k n xs) := by
  obtain ⟨ds, h⟩ := State.fireTriggers_frame k n xs s
  rw [h]
  exact .of_eq rfl rfl rfl rfl

theorem State.keepsUnits_meetCwaits (s : State) (k n : Nat) : s.KeepsUnits (s.meetCwaits k n) :=
  ⟨rfl, rfl, fun g => tget_map_rel Gang.SameRun _ g {} s.gangs (fun _ x => Gang.SameRun.refl x) (.refl _),
    fun c => tget_map_part (fun x => x.ctl.pc) (fun x => { x with ctl := { x.ctl with wait := s.metWait k n x.ctl.wait } }) id (fun _ => rfl) c {} rfl
      s.clus⟩

/-- A write at its home wakes fragments that are parked and ends waits, but moves no unit that runs. -/
theorem State.keepsUnits_writeHome (s : State) (k : Nat) (bs : List Byte) (p : Bool) : s.KeepsUnits (s.writeHome k bs p) := by
  have hraw : s.KeepsUnits (s.rawWrite k bs p) := .of_eq rfl rfl rfl rfl
  have hset := ((hraw.trans (State.keepsUnits_triggerMonitors _ k bs.length)).trans (State.keepsUnits_fireTriggers _ k bs.length
    ((s.rawWrite k bs p).triggerMonitors k bs.length).dies)).trans (State.keepsUnits_meetCwaits _ k bs.length)
  simp only [State.writeHome]
  split
  · exact hraw
  · split
    · exact hset.trans (.of_eq rfl rfl rfl rfl)
    · exact hset

end Sys2Proof.Machine
end

section
/-! SUPPORT. An access that passes the checks and the translation of R250, and a word that an agent reaches by it (R250, R299). -/

namespace Sys2Proof.Machine

/-! ## Translations taken into cluster TLBs -/

/-- The states differ at most in what the cluster TLBs hold. -/
def State.Filled (s t : State) : Prop := { s with clus := t.clus } = t ∧ ∀ c, t.clu c = { s.clu c with tlb := (t.clu c).tlb }

theorem State.Filled.refl (s : State) : s.Filled s := ⟨rfl, fun _ => rfl⟩

theorem State.Filled.trans {s t u : State} (h : s.Filled t) (h' : t.Filled u) : s.Filled u :=
  ⟨by rw [← h'.1, ← h.1], fun c => by rw [h'.2 c, h.2 c]⟩

theorem State.Filled.mem {s t : State} (h : s.Filled t) : t.mem = s.mem := by rw [← h.1]
theorem State.Filled.cur {s t : State} (h : s.Filled t) : t.cur = s.cur := by rw [← h.1]
theorem State.Filled.gang {s t : State} (h : s.Filled t) (g : GangId) : t.gang g = s.gang g := by rw [← h.1]; rfl

theorem State.Filled.keepsUnits {s t : State} (h : s.Filled t) : s.KeepsUnits t :=
  ⟨h.cur, by rw [← h.1], fun g => by rw [h.gang g]; exact .refl _, fun c => by rw [h.2 c]⟩

theorem State.filled_fillClu (s : State) (c : CluId) (e : TlbEntry) : s.Filled (s.fillClu c e) := by
  rw [State.fillClu]
  split_ifs
  · exact .refl s
  · refine ⟨rfl, fun d => ?_⟩
    by_cases h : d = c
    · rw [h, State.clu_modClu]
    · rw [State.clu_modClu_other _ _ _ _ h]

/-! ## The lanes of an access -/

theorem State.translateLane_spec (s : State) (g : GangId) (ctx : Nat) (sp : Space) (l : LaneAccess) :
    s.Filled (s.translateLane g ctx sp l).1 ∧ (s.translateLane g ctx sp l).2.ea = l.ea := by
  cases sp
  case g =>
    rw [State.translateLane]
    split
    · exact ⟨s.filled_fillClu .., rfl⟩
    · exact ⟨.refl s, rfl⟩
  all_goals exact ⟨.refl s, rfl⟩

/-- A translation leaves every lane its address. -/
theorem State.translateLanes_spec (g : GangId) (ctx : Nat) (sp : Space) (ls : List LaneAccess) (s : State) :
    s.Filled (s.translateLanes g ctx sp ls).1 ∧ (s.translateLanes g ctx sp ls).2.map (·.ea) = ls.map (·.ea) := by
  induction ls generalizing s with
  | nil => exact ⟨.refl s, rfl⟩
  | cons l ls ih =>
    obtain ⟨hfill, hea⟩ := s.translateLane_spec g ctx sp l
    obtain ⟨hfills, heas⟩ := ih (s.translateLane g ctx sp l).1
    exact ⟨hfill.trans hfills, congrArg₂ List.cons hea heas⟩

/-- An access that goes on has filled TLBs alone, and its lanes name what they named. -/
theorem State.reach_go {s t : State} {a b : Access} {pc : VAddr} {len : Nat} {redo : Bool} (h : s.reach a pc len redo = .go t b) :
    s.Filled t ∧ b.lanes.map (·.ea) = a.lanes.map (·.ea) := by
  rw [State.reach] at h
  split at h
  · cases h
  · dsimp only at h
    split_ifs at h
    cases h
    exact State.translateLanes_spec ..

/-- A word that is reached has filled TLBs alone, and it is no c-slice that reaches it. -/
theorem State.reachWord_go {s t : State} {u : UnitId} {lane ea size k : Nat} {kind : AccessKind} {d : Dest}
    (h : s.reachWord u lane ea size kind d = .go t k) : s.Filled t ∧ ∀ g, u ≠ .c g := by
  cases u with
  | a g =>
    refine ⟨?_, fun _ => UnitId.noConfusion⟩
    simp only [State.reachWord] at h
    split at h
    case h_4 _ _ hreach =>
      split_ifs at h
      split at h
      · cases h; exact (State.reach_go hreach).1
      · cases h
    all_goals cases h
  | c g => cases h
  | m c =>
    refine ⟨?_, fun _ => UnitId.noConfusion⟩
    simp only [State.reachWord] at h
    split_ifs at h
    split at h
    · split_ifs at h
      cases h
      exact s.filled_fillClu ..
    · split at h
      · split_ifs at h
      · cases h

end Sys2Proof.Machine
end

section
/-! SUPPORT. A word whose page a TLB holds with the permission is reached at once, by a gang and by a controller (R250, R299). -/

namespace Sys2Proof.Machine

/-! ## A gang's access to one word -/

/-- The access by which a gang reads or writes an 8-byte word in one lane (R250). -/
def State.wordAccess (s : State) (g : GangId) (lane ea : Nat) (k : AccessKind) (d : Dest) : Access :=
  { blankAccess s g k .g 8 0 .b64 d with lanes := [⟨lane, ea, none, 0, 0⟩] }

section
variable {s : State} {g : GangId} {ea : Nat} {k : AccessKind} {d : Dest} {e : TlbEntry} (lane : Nat)

/-- An aligned word of a permitted page fails no check of R250. -/
theorem State.accessFault_wordAccess (hk : k = .load ∨ k = .store ∨ k = .atomic) (hea : ea < 2 ^ 57) (hal : ea % 8 = 0)
    (htlb : s.tlbLookup g.cluId (s.gang g).ctx ea = some e) (hp : e.permits (s.gang g).mode (needs k d) = true) :
    s.accessFault (s.gang g).mode (s.wordAccess g lane ea k d) = none := by
  have hfe : (k == .loadFe || k == .loadFec || k == .storeFe) = false := by rcases hk with rfl | rfl | rfl <;> rfl
  have haddr : s.addressDetail g (s.gang g).mode .g 8 false ea = none := by
    simpa [State.addressDetail, hal] using hea
  have hforbids : s.forbids g (s.gang g).mode (s.gang g).ctx (needs k d) ea = false := by simp [State.forbids, htlb, hp]
  simp [State.accessFault, State.wordAccess, blankAccess, hfe, haddr, hforbids, firstFault]

theorem State.translateLanes_wordAccess (htlb : s.tlbLookup g.cluId (s.gang g).ctx ea = some e) :
    s.translateLanes g (s.gang g).ctx .g [⟨lane, ea, none, 0, 0⟩]
      = (s.fillClu g.cluId e, [⟨lane, ea, some (hbmKey g.pkg (e.pa ea)), 0, 0⟩]) := by
  simp only [State.translateLanes, State.translateLane, htlb]

/-- No access waits in a gang without a held store whose core has no fabric access to the own package that is still to be served (R106,
R223). -/
theorem State.mustWait_eq_false {a : Access} (hhold : (s.gang a.gang).hold = [])
    (hmsgs : ∀ m ∈ s.msgs, ∀ r, m.2 = .remote r → r.gang.coreId = a.gang.coreId → r.dst = a.gang.pkg → r.served = true) :
    s.mustWait a = false := by
  have hown : s.meetsOwn a = false := by
    rw [State.meetsOwn, Bool.and_eq_false_iff]
    refine .inr (List.any_eq_false.mpr fun m hm => ?_)
    split
    case h_1 r hr =>
      dsimp only
      intro h
      simp only [Bool.and_eq_true, Bool.or_eq_true, beq_iff_eq, Bool.not_eq_true', Access.storeOf] at h
      obtain ⟨⟨⟨hgang, hdst⟩, hserved⟩, -⟩ := h
      have hcore : r.gang.coreId = a.gang.coreId := by
        rcases hgang with h | h
        · rw [h]
        · exact h.1.symm
      rw [hmsgs m hm r hr hcore hdst] at hserved
      cases hserved
    case h_2 => exact Bool.false_ne_true
  rw [State.mustWait, hhold, hown]
  rfl

/-- A gang reaches a word that a TLB maps and nothing of its own or of its core comes before. -/
theorem State.reachWord_a_go (hk : k = .load ∨ k = .store ∨ k = .atomic) (hea : ea < 2 ^ 57) (hal : ea % 8 = 0) (hhold : (s.gang g).hold = [])
    (hflight : ∀ a ∈ s.flight, a.gang ≠ g ∧ a.storeOf g.coreId = false)
    (hmsgs : ∀ m ∈ s.msgs, ∀ r, m.2 = .remote r → r.gang.coreId = g.coreId → r.dst = g.pkg → r.served = true)
    (htlb : s.tlbLookup g.cluId (s.gang g).ctx ea = some e) (hp : e.permits (s.gang g).mode (needs k d) = true) :
    s.reachWord (.a g) lane ea 8 k d = .go (s.fillClu g.cluId e) (hbmKey g.pkg (e.pa ea)) := by
  have hfill := s.filled_fillClu g.cluId e
  have hwait (ls : List LaneAccess) : (s.fillClu g.cluId e).mustWait { s.wordAccess g lane ea k d with lanes := ls } = false :=
    State.mustWait_eq_false (by rw [hfill.gang]; exact hhold) (by rw [← hfill.1]; exact hmsgs)
  have hreach : s.reach (s.wordAccess g lane ea k d) (s.pc (.a g)) 4 true = .go (s.fillClu g.cluId e)
      { s.wordAccess g lane ea k d with lanes := [⟨lane, ea, some (hbmKey g.pkg (e.pa ea)), 0, 0⟩] } := by
    have hfault := State.accessFault_wordAccess lane hk hea hal htlb hp
    have hlanes := State.translateLanes_wordAccess lane htlb
    simp only [State.wordAccess, blankAccess] at hfault hwait ⊢
    simp [State.reach, hfault, hlanes, hwait]
  have hearlier (b : Access) : ((s.fillClu g.cluId e).flight.any fun f => (f.gang == g || f.storeOf g.coreId) && f.overlaps b) = false := by
    rw [← hfill.1]
    exact List.any_eq_false.mpr fun f hf => by simp [hflight f hf]
  rw [State.wordAccess] at hreach
  rw [State.reachWord]
  simp only [hreach, hearlier]
  rfl

/-- A controller reaches a word that a TLB maps. -/
theorem State.reachWord_m_go {c : CluId} (hea : ea < 2 ^ 57) (hal : ea % 8 = 0) (htlb : s.tlbLookup c (s.clu c).ctl.ctx ea = some e)
    (hp : e.permits (s.clu c).ctl.mode (needs k d) = true) :
    s.reachWord (.m c) lane ea 8 k d = .go (s.fillClu c e) (hbmKey c.pkg (e.pa ea)) := by
  simpa [State.reachWord, hal, htlb, hp] using hea

end

end Sys2Proof.Machine
end

section
/-! SUPPORT. Fences and locks: what `fence`, `acq` and `rel` do when they issue and reach their words (R229, R233, R264, R265). -/

namespace Sys2Proof.Machine

/-! ## Past the instruction -/

/-- The word of an instruction that issues is reached, and its place can be accessed: its effect follows. -/
theorem wordOp_go {i : Instr} {s t w : State} {lane ea key : Nat} {kind : AccessKind} {d : Dest} (f : State → Nat → State)
    (h : t.reachWord t.cur lane ea 8 kind d = .go w key) (hplace : w.placeWaits key 8 = false) :
    wordOp i s t lane ea kind d f = .next (f w key) := by
  rw [wordOp, h]
  exact if_neg (by rw [hplace]; exact Bool.false_ne_true)

theorem State.core_advance (s : State) (i : Instr) (c : CoreId) : (s.advance i).core c = s.core c := by
  rw [State.advance]
  cases s.cur <;> rfl

/-- Past an instruction of a word's length, a gang has moved its a-slice's program counter alone. -/
theorem State.gang_advance_a {w : State} {g : GangId} (hc : w.cur = .a g) {i : Instr} (hi : i.size = 4) :
    (w.advance i).gang g = { w.gang g with apc := (w.gang g).apc + 4 } := by
  rw [State.advance_of_cur hc, hi]
  exact State.gang_modGang ..

theorem State.core_retire (s : State) (u : UnitId) (c : CoreId) : (s.retire u).core c = s.core c := by cases u <;> rfl

theorem State.readByte_of_mem {s t : State} (h : t.mem = s.mem) (k : Nat) : t.readByte k = s.readByte k := by
  rw [State.readByte, State.readByte, h]

/-! ## Lines that leave the L1 -/

theorem State.mem_l1Drop {s : State} {c : CoreId} {f : Nat → Nat → Bool} {y : L1Line} :
    y ∈ ((s.l1Drop c f).core c).l1d ↔ y ∈ (s.core c).l1d ∧ f y.ctx (y.vsec / 4) = false := by
  simp [State.l1Drop]

/-- The lines of a region leave every L1 (R227). -/
theorem State.mem_dropRegion {s : State} {ctx base len : Nat} {c : CoreId} {y : L1Line} :
    y ∈ ((s.dropRegion ctx base len).core c).l1d
      ↔ y ∈ (s.core c).l1d ∧ ¬ (y.ctx = ctx ∧ base ≤ y.vsec * 16 ∧ y.vsec * 16 < base + len) := by
  have hcore : ((s.dropRegion ctx base len).core c).l1d
      = (s.core c).l1d.filter fun y => !(y.ctx == ctx && base ≤ y.vsec * 16 && y.vsec * 16 < base + len) :=
    tget_map_part Core.l1d (fun x => { x with l1d := x.l1d.filter fun y => !(y.ctx == ctx && base ≤ y.vsec * 16 && y.vsec * 16 < base + len) })
      (List.filter fun y => !(y.ctx == ctx && base ≤ y.vsec * 16 && y.vsec * 16 < base + len)) (fun _ => rfl) c {} rfl s.cores
  rw [hcore, List.mem_filter]
  simp only [Bool.not_eq_true', ← Bool.not_eq_true, Bool.and_eq_true, beq_iff_eq, decide_eq_true_eq, and_assoc]

/-! ## Fences (R233) -/

/-- What a fence does beside the waits before it: a gang's of a wide scope removes the context's lines from its L1. -/
def State.fenced (s : State) (c : BitVec 3) : State :=
  match s.cur with
  | .a g => if scopeWide c.toNat then s.ambientAcquire g else s
  | _ => s

theorem exec_fence_of_issues {s : State} {c : BitVec 3} (h : issues (.fence c) s = true) :
    exec (.fence c) s = .next (((s.countIssue s.cur).fenced c).advance (.fence c)) := by
  have hexec : exec (.fence c) s = execFence c s := rfl
  rw [hexec, execFence, issue_of_issues _ h]
  generalize s.countIssue s.cur = r
  cases hr : r.cur <;> simp only [State.fenced, hr]

theorem State.fenced_frame (s : State) (c : BitVec 3) : ∃ cs, s.fenced c = { s with cores := cs } := by
  rw [State.fenced]
  split
  · split_ifs
    · exact ⟨_, rfl⟩
    · exact ⟨_, rfl⟩
  · exact ⟨_, rfl⟩

theorem State.fenced_l1d {s : State} {g : GangId} (hc : s.cur = .a g) (c : BitVec 3) : ((s.fenced c).core g.coreId).l1d =
    if 2 ≤ c.toNat then (s.core g.coreId).l1d.filter fun y => y.ctx != (s.gang g).ctx else (s.core g.coreId).l1d := by
  rw [State.fenced, hc]
  by_cases hwide : 2 ≤ c.toNat
  · have hscope : scopeWide c.toNat = true := decide_eq_true hwide
    simp only [hscope, if_pos hwide, if_true, State.ambientAcquire, State.l1Drop, State.core_modCore]
    rfl
  · have hscope : scopeWide c.toNat = false := decide_eq_false hwide
    simp only [hscope, if_neg hwide, Bool.false_eq_true, if_false]

/-- A fence moves past itself, and of the L1 of a gang's core removes what its scope says. -/
theorem exec_fence_spec {s : State} {c : BitVec 3} (h : issues (.fence c) s = true) : ∃ v, exec (.fence c) s = .next v ∧ v.mem = s.mem
    ∧ v.pc s.cur = s.pc s.cur + 4 ∧ ∀ g, s.cur = .a g → (v.core g.coreId).l1d =
      if 2 ≤ c.toNat then (s.core g.coreId).l1d.filter fun y => y.ctx != (s.gang g).ctx else (s.core g.coreId).l1d := by
  refine ⟨_, exec_fence_of_issues h, ?_⟩
  have hcur := s.countIssue_cur s.cur
  obtain ⟨cs, hcs⟩ := (s.countIssue s.cur).fenced_frame c
  have hcur' : ((s.countIssue s.cur).fenced c).cur = s.cur := by rw [hcs]; exact hcur
  refine ⟨by rw [State.advance_mem, hcs]; exact s.countIssue_mem _, ?_, fun g hg => ?_⟩
  · have hpc : ((s.countIssue s.cur).fenced c).pc s.cur = s.pc s.cur := by
      rw [← s.countIssue_pc s.cur, hcs]
      cases s.cur <;> rfl
    rw [State.advance_of_cur hcur', State.pc_setPc, hpc]
    rfl
  · rw [State.core_advance, State.fenced_l1d (hcur.trans hg), ((s.keepsUnits_countIssue s.cur).gang g).1, hg]
    rfl

/-! ## Locks (R229, R265) -/

section
variable {s r t : State} {u : UnitId} {a : BitVec 6} {k : Nat} {o : DWord}

/-- An `acq` that issues and reaches its word makes its attempt there. -/
theorem exec_acq_reached (hu : s.cur = u) (h : issues (.acq a) s = true) (hr : s.countIssue u = r) (ho : leaderValue r u .b64 a.toNat = o)
    (hact : r.active u ≠ 0) (hlock : lockBad o = false) (hreach : r.reachWord u (r.leader u) (handleName o) 8 .atomic (.reg 0) = .go t k)
    (hplace : t.placeWaits k 8 = false) : exec (.acq a) s = .next (t.tryAcquire u k (handleName o) o) := by
  have hexec : exec (.acq a) s = execAcq a s := rfl
  have hcur : r.cur = u := by rw [← hr, State.countIssue_cur, hu]
  rw [hexec, execAcq, issue_of_issues _ h, hu, hr]
  simp only [hcur, if_neg hact, ho, hlock, Bool.false_eq_true, if_false]
  exact wordOp_go _ (hcur.symm ▸ hreach) hplace

/-- What an attempt makes of a free lock in HBM. -/
theorem State.tryAcquire_eq (va : Nat) (o : DWord) (hk : isHbm k = true) (hmark : s.markedAt k 8 = false) (hfree : s.readNum k 8 = 0) :
    s.tryAcquire u k va o = (((s.writeHome k (bytesOfNum 1 8) false).dropWord u k).acquire u o).retire u := by
  rw [State.tryAcquire, s.readAt_hbm 8 hk]
  simp only [hmark, hfree, hk, if_true, if_false, Bool.false_eq_true]

theorem State.keepsUnits_dropWord (s : State) (u : UnitId) (k : Nat) : s.KeepsUnits (s.dropWord u k) := by
  cases u <;> exact .of_eq rfl rfl rfl rfl

theorem State.keepsUnits_acquire (s : State) (u : UnitId) (o : DWord) : s.KeepsUnits (s.acquire u o) := by
  cases u <;> exact .of_eq rfl rfl rfl rfl

/-- A free lock is taken: its word alone changes in memory, the agent goes on, and no line that the lock binds stays in its L1. -/
theorem State.tryAcquire_takes {va : Nat} (hkeep : s.KeepsUnits t) (hmem : t.mem = s.mem) (hs : s.Inv) (hu : ∀ g, u ≠ .c g)
    (hrun : s.runnable u = true) (hk : isHbm k = true) (hmark : t.markedAt k 8 = false) (hfree : t.readNum k 8 = 0) :
    (t.tryAcquire u k va o).pc u = s.pc u + 4 ∧ (∀ j, (j < k ∨ k + 8 ≤ j) → (t.tryAcquire u k va o).readByte j = s.readByte j)
      ∧ ∀ g, u = .a g → ∀ y ∈ ((t.tryAcquire u k va o).core g.coreId).l1d, y.ctx = (s.gang g).ctx →
        s.boundTo y.ctx o (64 * (y.vsec / 4)) = false := by
  have hinv : t.Inv := by rw [State.Inv, hmem]; exact hs
  have hdrop := (hkeep.trans (t.keepsUnits_writeHome k (bytesOfNum 1 8) false)).trans (State.keepsUnits_dropWord _ u k)
  have hacq := hdrop.trans (State.keepsUnits_acquire _ u o)
  obtain ⟨-, hpc, hretire⟩ := State.retire_ends (((t.writeHome k (bytesOfNum 1 8) false).dropWord u k).acquire u o) u
  rw [State.tryAcquire_eq va o hk hmark hfree]
  refine ⟨by rw [hpc, hacq.pc hu hrun], fun j hj => ?_, ?_⟩
  · rw [State.readByte_of_mem (hretire.trans ((State.acquire_mem ..).trans (State.dropWord_mem ..))),
      t.writeHome_readByte_outside k j _ _ hinv (by simpa using hj), State.readByte_of_mem hmem]
  · rintro g rfl y hy hctx
    rw [State.core_retire] at hy
    have hkept := (State.mem_l1Drop.mp hy).2
    rw [hdrop.boundTo, (hdrop.gang g).1, hctx] at hkept
    simpa [hctx] using hkept

/-- The word that a `rel` writes is seen at once by the L1 of a gang's core (R198). -/
def State.seenInL1 (s : State) (u : UnitId) (k : Nat) : State :=
  match u with
  | .a g => s.l1Store g.coreId k (bytesOfNum 0 8)
  | _ => s

theorem State.seenInL1_mem (s : State) (u : UnitId) (k : Nat) : (s.seenInL1 u k).mem = s.mem := by cases u <;> rfl

theorem State.keepsUnits_seenInL1 (s : State) (u : UnitId) (k : Nat) : s.KeepsUnits (s.seenInL1 u k) := by
  cases u <;> exact .of_eq rfl rfl rfl rfl

/-- A `rel` that issues with nothing bound outstanding and reaches its word writes 0 there. -/
theorem exec_rel_reached (hu : s.cur = u) (h : issues (.rel a) s = true) (hr : s.countIssue u = r) (ho : leaderValue r u .b64 a.toNat = o)
    (hact : r.active u ≠ 0) (hlock : lockBad o = false) (hbusy : ∀ g, u = .a g → r.boundBusy g o = false)
    (hreach : r.reachWord u (r.leader u) (handleName o) 8 .store .none = .go t k) (hk : isHbm k = true) (hplace : t.placeWaits k 8 = false) :
    exec (.rel a) s = .next (((t.seenInL1 u k).writeHome k (bytesOfNum 0 8) false).advance (.rel a)) := by
  have hexec : exec (.rel a) s = execRel a s := rfl
  have hcur : r.cur = u := by rw [← hr, State.countIssue_cur, hu]
  rw [hexec, execRel, issue_of_issues _ h, hu, hr]
  simp only [hcur, if_neg hact, ho, hlock, Bool.false_eq_true, if_false]
  refine (if_neg ?_).trans ((wordOp_go _ (hcur.symm ▸ hreach) hplace).trans ?_)
  · cases u with
    | a g => exact fun hwait => Bool.false_ne_true ((hbusy g rfl).symm.trans hwait)
    | c g => exact Bool.false_ne_true
    | m c => exact Bool.false_ne_true
  · rw [State.storeBy_hbm _ _ _ _ hk]
    cases u <;> simp only [State.seenInL1]

/-- A taken lock reads 1, a held one is waited for (R265). -/
theorem exec_acq_spec (hs : s.Inv) (hu : s.cur = u) (h : issues (.acq a) s = true) : let r := s.countIssue u
    let o := leaderValue r u .b64 a.toNat
    r.active u ≠ 0 → lockBad o = false → r.reachWord u (r.leader u) (handleName o) 8 .atomic (.reg 0) = .go t k →
    isHbm k = true → t.placeWaits k 8 = false → t.markedAt k 8 = false →
    (t.readNum k 8 = 0 → ∃ v, exec (.acq a) s = .next v ∧ v.readNum k 8 = 1 ∧ v.waitOf u = none ∧ v.pc u = s.pc u + 4
      ∧ (∀ j, (j < k ∨ k + 8 ≤ j) → v.readByte j = s.readByte j)
      ∧ ∀ g, u = .a g → ∀ y ∈ (v.core g.coreId).l1d, y.ctx = (s.gang g).ctx → s.boundTo y.ctx o (64 * (y.vsec / 4)) = false)
    ∧ (t.readNum k 8 ≠ 0 → ∃ v, exec (.acq a) s = .next v ∧ v.mem = s.mem ∧ v.waitOf u = some (.acq k (handleName o) o)
      ∧ v.pc u = s.pc u) := by
  intro r o hact hlock hreach hk hplace hmark
  obtain ⟨hfill, hslice⟩ := State.reachWord_go hreach
  have hmem : t.mem = s.mem := hfill.mem.trans (s.countIssue_mem u)
  have hkeep := (s.keepsUnits_countIssue u).trans hfill.keepsUnits
  have hrun : s.runnable u = true := hu ▸ runnable_of_issues h
  have hpc : t.pc u = s.pc u := hkeep.pc hslice hrun
  have hexec := exec_acq_reached hu h rfl rfl hact hlock hreach hplace
  refine ⟨fun hfree => ?_, fun hheld => ?_⟩
  · have hinv : t.Inv := by rw [State.Inv, hmem]; exact hs
    obtain ⟨hone, hwait⟩ := State.tryAcquire_free (u := u) (va := handleName o) (h := o) hinv hk hmark hfree
    exact ⟨_, hexec, hone, hwait, State.tryAcquire_takes hkeep hmem hs hslice hrun hk hmark hfree⟩
  · rw [State.tryAcquire_held hk hmark hheld] at hexec
    exact ⟨_, hexec, (State.setWait_mem ..).trans hmem, State.waitOf_setWait _ _ hslice, (State.setWait_pc ..).trans hpc⟩

theorem exec_rel_spec (hs : s.Inv) (hu : s.cur = u) (h : issues (.rel a) s = true) : let r := s.countIssue u
    let o := leaderValue r u .b64 a.toNat
    r.active u ≠ 0 → lockBad o = false → (∀ g, u = .a g → r.boundBusy g o = false) →
    r.reachWord u (r.leader u) (handleName o) 8 .store .none = .go t k → isHbm k = true → t.placeWaits k 8 = false →
    ∃ v, exec (.rel a) s = .next v ∧ v.readNum k 8 = 0 ∧ v.pc u = s.pc u + 4
      ∧ ∀ j, (j < k ∨ k + 8 ≤ j) → v.readByte j = s.readByte j := by
  intro r o hact hlock hbusy hreach hk hplace
  obtain ⟨hfill, hslice⟩ := State.reachWord_go hreach
  have hmem : (t.seenInL1 u k).mem = s.mem := (t.seenInL1_mem u k).trans (hfill.mem.trans (s.countIssue_mem u))
  have hinv : (t.seenInL1 u k).Inv := by rw [State.Inv, hmem]; exact hs
  have hkeep := (((s.keepsUnits_countIssue u).trans hfill.keepsUnits).trans (t.keepsUnits_seenInL1 u k)).trans
    (State.keepsUnits_writeHome _ k (bytesOfNum 0 8) false)
  have hpc := hkeep.pc hslice (hu ▸ runnable_of_issues h)
  refine ⟨_, exec_rel_reached hu h rfl rfl hact hlock hbusy hreach hk hplace, ?_, ?_, fun j hj => ?_⟩
  · rw [State.readNum_of_mem (State.advance_mem ..), State.writeHome_readNum _ _ _ _ _ hinv]
    rfl
  · rw [State.advance_of_cur (hkeep.cur.trans hu), State.pc_setPc, hpc]
    rfl
  · rw [State.readByte_of_mem (State.advance_mem ..), State.writeHome_readByte_outside _ _ _ _ _ hinv (by simpa using hj),
      State.readByte_of_mem hmem]

end

end Sys2Proof.Machine
end

section
/-! SUPPORT. Bindings, monitors and prefetches: what `bind`, `unbind`, `mon`, `pf.l1` and `pf.l2` do when they issue (R226, R227, R266, R267,
R270). -/

namespace Sys2Proof.Machine

/-! ## Bindings (R226, R227) -/

section
variable {s : State} {g : GangId}

/-- A region bound or unbound in a context: its binding table replaced, and the region's lines dropped. -/
def State.rebind (s : State) (ctx : Nat) (bs : List Binding) (base len : Nat) : State :=
  { s with bindings := tset ctx bs s.bindings }.dropRegion ctx base len

theorem State.bindingsOf_rebind (s : State) (ctx : Nat) (bs : List Binding) (base len : Nat) :
    (s.rebind ctx bs base len).bindingsOf ctx = bs := tget_tset_same ..

theorem State.bindingsOf_rebind_other (s : State) {ctx x : Nat} (bs : List Binding) (base len : Nat) (h : x ≠ ctx) :
    (s.rebind ctx bs base len).bindingsOf x = s.bindingsOf x := tget_tset_other _ _ _ _ _ h

theorem State.bindingsOf_advance (s : State) (i : Instr) (x : Nat) : (s.advance i).bindingsOf x = s.bindingsOf x := by
  rw [State.advance]
  cases s.cur <;> rfl

/-- What an instruction that binds or unbinds a region leaves, past what is counted at its issue. -/
theorem State.rebind_spec (hc : s.cur = .a g) {i : Instr} (hi : i.size = 4) (ctx : Nat) (bs : List Binding) (base len : Nat) :
    let v := ((s.countIssue (.a g)).rebind ctx bs base len).advance i
    v.mem = s.mem ∧ (v.gang g).apc = (s.gang g).apc + 4 ∧ v.bindingsOf ctx = bs ∧ (∀ x, x ≠ ctx → v.bindingsOf x = s.bindingsOf x)
      ∧ ∀ c, ∀ y ∈ (v.core c).l1d, y ∈ (s.core c).l1d ∧ ¬ (y.ctx = ctx ∧ base ≤ y.vsec * 16 ∧ y.vsec * 16 < base + len) := by
  intro v
  have hcur : ((s.countIssue (.a g)).rebind ctx bs base len).cur = .a g := hc
  refine ⟨(State.advance_mem ..).trans (s.countIssue_mem (.a g)), ?_, (State.bindingsOf_advance ..).trans (State.bindingsOf_rebind ..),
    fun x hx => (State.bindingsOf_advance ..).trans (State.bindingsOf_rebind_other _ _ _ _ hx), fun c y hy => ?_⟩
  · rw [State.gang_advance_a hcur hi]
    exact congrArg (· + 4) (s.countIssue_a_apc g)
  · rw [State.core_advance] at hy
    exact State.mem_dropRegion.mp hy

theorem exec_bind_of_issues {b a d : BitVec 6} (hc : s.cur = .a g) (h : issues (.bind b a d) s = true) : let r := s.countIssue (.a g)
    let o := leaderValue r (.a g) .b64 d.toNat
    let base := (leaderValue r (.a g) .b64 a.toNat).toNat
    let len := (leaderValue r (.a g) .b64 b.toNat).toNat
    let ctx := (s.gang g).ctx
    r.active (.a g) ≠ 0 → bindFault (s.bindingsOf ctx) o base len = none →
      exec (.bind b a d) s = .next ((r.rebind ctx (s.bindingsOf ctx ++ [⟨base, len, o⟩]) base len).advance (.bind b a d)) := by
  intro r o base len ctx hact hfault
  have hexec : exec (.bind b a d) s = execBind b a d s := rfl
  have hctx : (r.gang g).ctx = ctx := ((s.keepsUnits_countIssue (.a g)).gang g).1
  have hbind : r.bindingsOf ctx = s.bindingsOf ctx := rfl
  rw [hexec, execBind, issue_of_issues _ h]
  simp only [State.countIssue_cur, hc, if_neg hact, hctx, hbind, hfault, o, base, len, r, State.rebind]

theorem exec_unbind_of_issues {a : BitVec 6} {x : Binding} (hc : s.cur = .a g) (h : issues (.unbind a) s = true) :
    let r := s.countIssue (.a g)
    let base := (leaderValue r (.a g) .b64 a.toNat).toNat
    let ctx := (s.gang g).ctx
    r.active (.a g) ≠ 0 → base % 64 = 0 → base < 2 ^ 57 → (s.bindingsOf ctx).find? (fun y => y.base == base) = some x →
      exec (.unbind a) s = .next ((r.rebind ctx ((s.bindingsOf ctx).filter fun y => y.base != base) x.base x.len).advance (.unbind a)) := by
  intro r base ctx hact hal hlt hfind
  have hexec : exec (.unbind a) s = execUnbind a s := rfl
  have hctx : (r.gang g).ctx = ctx := ((s.keepsUnits_countIssue (.a g)).gang g).1
  have hbind : r.bindingsOf ctx = s.bindingsOf ctx := rfl
  have hok : ¬ ((base % 64 != 0 || decide (base ≥ 2 ^ 57)) = true) := by
    rw [hal, decide_eq_false (Nat.not_le.mpr hlt)]
    exact Bool.false_ne_true
  rw [hexec, execUnbind, issue_of_issues _ h]
  simp only [State.countIssue_cur, hc, if_neg hact, if_neg hok, hctx, hbind, hfind, base, r, State.rebind]

end

/-! ## Monitors (R267) -/

theorem mem_dedup (xs : List Nat) (n : Nat) : n ∈ dedup xs ↔ n ∈ xs := by
  have hfold (xs ys : List Nat) : n ∈ xs.foldl (fun ys x => if ys.contains x then ys else ys ++ [x]) ys ↔ n ∈ ys ∨ n ∈ xs := by
    induction xs generalizing ys with
    | nil => simp
    | cons x xs ih =>
      rw [List.foldl_cons, ih]
      by_cases hx : x ∈ ys
      · simp only [List.contains_iff_mem.mpr hx, if_true, List.mem_cons]
        exact ⟨fun h => h.imp_right .inr, fun h => by rcases h with h | rfl | h; exacts [.inl h, .inl hx, .inr h]⟩
      · simp [hx, or_assoc]
  rw [dedup, hfold]
  simp

section
variable {s t : State} {g : GangId} {a : BitVec 6} {acc : Access}

/-- The monitor that `mon` arms on the lines of an access. -/
def Access.monitor (acc : Access) : Monitor :=
  ⟨dedup (acc.lanes.map fun l => l.pa.getD 0 / 64), dedup (acc.lanes.map fun l => l.ea / 64), false⟩

theorem exec_mon_of_issues {e : Nat} (hc : s.cur = .a g) (h : issues (.mon a) s = true) (he : (s.gang g).cur = some e)
    (hlanes : (lineAccess (s.countIssue (.a g)) g a).lanes ≠ [])
    (hreach : (s.countIssue (.a g)).reach (lineAccess (s.countIssue (.a g)) g a) ((s.countIssue (.a g)).pc (.a g)) 4 true = .go t acc) :
    exec (.mon a) s = .next ((t.modGang g fun x => { x with monitors := tset e acc.monitor x.monitors }).advance (.mon a)) := by
  have hexec : exec (.mon a) s = execMon a s := rfl
  rw [hexec, execMon, issue_of_issues _ h]
  simp only [State.countIssue_cur, hc, List.isEmpty_iff, if_neg hlanes, hreach, State.countIssue_a_cur, he, Option.getD_some]
  rfl

/-- `mon` arms the running fragment's monitor on the lines of its lanes. -/
theorem exec_mon_spec {e : Nat} (hc : s.cur = .a g) (h : issues (.mon a) s = true) : let r := s.countIssue (.a g)
    (s.gang g).cur = some e → (lineAccess r g a).lanes ≠ [] → r.reach (lineAccess r g a) (r.pc (.a g)) 4 true = .go t acc →
    ∃ v m, exec (.mon a) s = .next v ∧ v.mem = s.mem ∧ (v.gang g).apc = (s.gang g).apc + 4 ∧ tfind e (v.gang g).monitors = some m
      ∧ m.hit = false ∧ ∀ n, n ∈ m.vlines ↔ ∃ l ∈ (lineAccess r g a).lanes, l.ea / 64 = n := by
  intro r he hlanes hreach
  obtain ⟨hfill, hea⟩ := State.reach_go hreach
  have hcur : (t.modGang g fun x => { x with monitors := tset e acc.monitor x.monitors }).cur = .a g := hfill.cur.trans hc
  refine ⟨_, acc.monitor, exec_mon_of_issues hc h he hlanes hreach, ?_, ?_, ?_, rfl, fun n => ?_⟩
  · exact (State.advance_mem ..).trans (hfill.mem.trans (s.countIssue_mem _))
  · rw [State.gang_advance_a hcur rfl, State.gang_modGang, hfill.gang]
    exact congrArg (· + 4) (s.countIssue_a_apc g)
  · rw [State.gang_advance_a hcur rfl, State.gang_modGang]
    exact tfind_tset_same ..
  · have hlines := congrArg (List.map (· / 64)) hea
    rw [List.map_map, List.map_map] at hlines
    rw [Access.monitor, mem_dedup, ← List.mem_map]
    exact iff_of_eq (congrArg (n ∈ ·) hlines)

end

/-! ## Prefetches (R270) -/

theorem State.prefetch_frame (g : GangId) (ls : List LaneAccess) (s : State) : ∃ cs, s.prefetch g ls = { s with cores := cs } := by
  induction ls generalizing s with
  | nil => exact ⟨_, rfl⟩
  | cons l ls ih =>
    have hstep (t : State) (ht : ∃ cs, t = { s with cores := cs }) : ∃ cs, t.prefetch g ls = { s with cores := cs } := by
      obtain ⟨cs, rfl⟩ := ht
      obtain ⟨cs', h⟩ := ih { s with cores := cs }
      exact ⟨cs', h⟩
    rw [State.prefetch]
    refine hstep _ ?_
    split
    · dsimp only
      split_ifs
      · exact ⟨_, rfl⟩
      · exact ⟨_, rfl⟩
    · exact ⟨_, rfl⟩

section
variable {s : State} {g : GangId} {a : BitVec 6}

theorem exec_pfL1_of_issues (hc : s.cur = .a g) (h : issues (.pfL1 a) s = true) : exec (.pfL1 a) s =
    .next (((s.countIssue (.a g)).prefetch g (lineAccess (s.countIssue (.a g)) g a).lanes).advance (.pfL1 a)) := by
  have hexec : exec (.pfL1 a) s = execPfL1 a s := rfl
  rw [hexec, execPfL1, issue_of_issues _ h]
  simp only [State.countIssue_cur, hc]

theorem exec_pfL2_of_issues (hc : s.cur = .a g) (h : issues (.pfL2 a) s = true) :
    exec (.pfL2 a) s = .next ((s.countIssue (.a g)).advance (.pfL2 a)) := by
  have hexec : exec (.pfL2 a) s = execPfL2 a s := rfl
  rw [hexec, execPfL2, issue_of_issues _ h, hc]

/-- A prefetch that issues changes lines in the L1 and moves past itself. -/
theorem exec_prefetch_of_issues {i : Instr} (hi : i = .pfL1 a ∨ i = .pfL2 a) (hc : s.cur = .a g) (h : issues i s = true) :
    i.size = 4 ∧ ∃ cs, exec i s = .next (({ s.countIssue (.a g) with cores := cs } : State).advance i) := by
  rcases hi with rfl | rfl
  · obtain ⟨cs, hcs⟩ := State.prefetch_frame g (lineAccess (s.countIssue (.a g)) g a).lanes (s.countIssue (.a g))
    exact ⟨rfl, cs, (exec_pfL1_of_issues hc h).trans (by rw [hcs])⟩
  · exact ⟨rfl, (s.countIssue (.a g)).cores, exec_pfL2_of_issues hc h⟩

/-- An instruction that acts on cores alone leaves its gang what is counted at issue, and the program counter past it. -/
theorem State.advance_counted_spec (hc : s.cur = .a g) {i : Instr} (hi : i.size = 4) (cs : Table CoreId Core) :
    let v := ({ s.countIssue (.a g) with cores := cs } : State).advance i
    v.mem = s.mem ∧ v.gang g = { s.gang g with
      apc := (s.gang g).apc + 4, ran := if (s.gang g).mode = .user then (s.gang g).ran + 1 else (s.gang g).ran, since := (v.gang g).since
      lossSeen := (s.gang g).lossSeen && (s.gang g).mode != .user } := by
  intro v
  have hgang : ({ s.countIssue (.a g) with cores := cs } : State).gang g = (s.countIssue (.a g)).gang g := rfl
  refine ⟨(State.advance_mem ..).trans (s.countIssue_mem (.a g)), ?_⟩
  rw [State.gang_advance_a (w := { s.countIssue (.a g) with cores := cs }) hc hi, hgang, State.gang_countIssue_a]

end

end Sys2Proof.Machine
end

section
/-! PROOF. `Synchronisation` (R226, R229, R233, R265 to R267, R270): the statement from the lemmas of its instructions. -/

namespace Sys2Proof.Machine

/-- Settles O46: a word is reached by `reachWord_a_go` and `reachWord_m_go`, and each instruction has the effect of its lemma. -/
theorem synchronisation : Obligations.Synchronisation := by
  unfold Obligations.Synchronisation
  refine ⟨?_, ?_, ?_, ?_, ?_, ?_, ?_, ?_, ?_⟩
  · exact fun s g lane ea k d e hk hea hal hhold hflight hmsgs htlb hp => State.reachWord_a_go lane hk hea hal hhold hflight hmsgs htlb hp
  · exact fun s c lane ea k d e hea hal htlb hp => State.reachWord_m_go lane hea hal htlb hp
  · exact fun s t u a k hs hu h => exec_acq_spec hs hu h
  · exact fun s t u a k hs hu h => exec_rel_spec hs hu h
  · exact fun s g b a d hc h hact hfault => ⟨_, exec_bind_of_issues hc h hact hfault, State.rebind_spec hc rfl ..⟩
  · intro s g a x hc h r base ctx hact hal hlt hfind
    obtain ⟨hmem, hpc, hbind, -, hlines⟩ :=
      State.rebind_spec hc (i := .unbind a) rfl ctx ((s.bindingsOf ctx).filter fun y => y.base != base) x.base x.len
    refine ⟨_, exec_unbind_of_issues hc h hact hal hlt hfind, hmem, hpc, fun y => ?_, hlines⟩
    rw [hbind, List.mem_filter, bne_iff_ne]
  · exact fun s t g a e acc hc h => exec_mon_spec hc h
  · exact fun s c h => exec_fence_spec h
  · intro s g a i hi hc h
    obtain ⟨hsize, cs, hexec⟩ := exec_prefetch_of_issues hi hc h
    exact ⟨_, hexec, State.advance_counted_spec hc hsize cs⟩

end Sys2Proof.Machine
end
